-- ==== Sys2Proof/Word.lean ====
section
/-! DEFINITION. The plain words of the model: bytes, lines, line numbers, headers. -/
namespace Sys2Proof

/-- One byte (R6). -/
abbrev Byte := BitVec 8
/-- One line of 128 bytes; byte i stands at bits [8i+7:8i] (R5, R6). -/
abbrev Line := BitVec 1024
/-- A 40-bit line number (R5, R20). -/
abbrev LineNo := BitVec 40
/-- A Walkan slot: a header, a byte mask or a LINK message (R165, R175, R182). -/
abbrev Slot := BitVec 128
/-- A sequencer data word (R132). -/
abbrev SWord := BitVec 40
/-- A Walkan flit of 256 bytes (R165). -/
abbrev Flit := BitVec 2048
/-- The tag block of a row, slot 14 (R60). -/
abbrev TagBlock := BitVec 1024

/-- A command packet taken by the management controller (R414) with what the outside world answers to it:
`qp` the queue pair it came from (bit 4: taken before the control path was last reset, whose pairs are gone, R404), `readOk`/`writeOk` whether its host DMA reads and writes succeed (R413),
`ok` the outcome of the test or device step its rule waits on inside the command (R312, R320),
`data` the host bytes its parameters point at, in address order. -/
structure Packet where
  qp : BitVec 5
  flags : Byte
  cid : BitVec 16
  target : BitVec 32
  params : BitVec 448
  readOk : Bool
  writeOk : Bool
  ok : Bool
  data : List Byte
deriving DecidableEq, Repr

/-- Registers of the configuration space that a PCI Express function of R399 has (log 121): Device Control and Control 2, Link Control, MSI-X Message
Control, the statuses, masks and severities of AER, and the two halves of its header log. -/
inductive CfgReg where
  | devCtl | devCtl2 | linkCtl | msixCtl | uncStatus | uncMask | uncSev | corStatus | corMask | log0 | log1
deriving DecidableEq, Repr
/-- Where a request of the host lands (R399-R401): an offset of BAR0 or of BAR2, an aligned word of the configuration header, or a register of its
capabilities. -/
inductive HostOff where
  | bar0 (off : BitVec 20)
  | bar2 (off : BitVec 14)
  | header (word : BitVec 4)
  | cfg (r : CfgReg)
deriving DecidableEq, Repr
/-- A read of the host (R426, R427): where, and its length in bytes, 9 and more for a request longer than 8. -/
structure BarRead where
  off : HostOff
  size : BitVec 4
deriving DecidableEq, Repr

/-- An entry of the MSI-X table as the host unmasks it (R401, R405): vector, message address and message data. -/
structure MsixEntry where
  vec : BitVec 5
  addr : BitVec 64
  data : BitVec 32
deriving DecidableEq, Repr

/-- How the write of an event entry goes (R413, R418): it succeeds, and the staged event meets a parity error. -/
structure EventWrite where
  ok : Bool
  perr : Bool
deriving DecidableEq, Repr

/-- What a far port's CXL link does (R355, R394): it goes down, it stands up, or its link layer retries. -/
inductive FarLink where
  | down
  | up
  | retry
deriving DecidableEq, Repr

/-- What a far device answers to a read (R46, R368): data, with or without CXL poison, or an error completion. -/
inductive FarOut where
  | data (d : Line) (poison : Bool)
  | error
deriving DecidableEq, Repr

/-- How a seal engine's own far read ends (R366, R368): data, with or without CXL poison, an error completion, or a timeout. -/
inductive FarEnd where
  | data (d : Line) (poison : Bool)
  | error
  | timeout
deriving DecidableEq, Repr

/-- What a hashing read meets in far memory, where it goes there: the bitmap line's read (R52) and the line's. -/
structure HashFar where
  map : FarEnd
  line : FarEnd
deriving DecidableEq, Repr

/-- A far device's GPF DVSEC (R330): its Phase 2 Duration and Phase 2 Power. -/
structure GpfPhase2 where
  duration : BitVec 32
  power : BitVec 32
deriving DecidableEq, Repr

/-- What the enumeration of a far device reads (R342, R455 step 7): its capacity in lines, whether it has a GPF DVSEC and that, its Dirty Shutdown
Count. -/
structure FarSeen where
  cap : BitVec 40
  gpf : Bool
  phase2 : GpfPhase2
  dirty : BitVec 32
deriving DecidableEq, Repr

/-- A far device that reports no Memory_Active in its time: its port, and what its enumeration read where it answered (R455 step 7). -/
structure FarSilent where
  fp : BitVec 2
  seen : Option FarSeen
deriving DecidableEq, Repr

/-- Symbols in error in a DRAM read: symbol index and the value XORed into it (R66). -/
abbrev ErrPat := List (Nat × BitVec 16)

/-- Parity errors that stand in a directory set (R373): entries with their failing bytes, and a failing XOR word. -/
structure DirFault where
  bad : List (BitVec 4 × Byte)
  xorBad : Bool
deriving DecidableEq, Repr

/-- A message whose meaning reads a directory set (R362, R373): its header, and what that read meets. -/
structure DirMsg where
  hd : Slot
  fault : DirFault
deriving DecidableEq, Repr

/-- What a walk's visit of a line meets (R364, R373): in the way's read and in the directory set's. -/
structure WalkRead where
  way : ErrPat
  dir : DirFault
deriving DecidableEq, Repr

/-- A slice, and what its read of a directory set meets (R373). -/
structure DirSlice where
  sl : BitVec 3
  fault : DirFault
deriving DecidableEq, Repr

/-- Faults on-chip stores show at a slice lookup: the directory set's, and the code of another failing store of R375 (0: none). -/
structure LookFault where
  dir : DirFault
  store : BitVec 4
deriving DecidableEq, Repr

/-- The head of a line's queue that resumes (R213): its line, and what its read of the directory set meets. -/
structure Queued where
  line : LineNo
  fault : LookFault
deriving DecidableEq, Repr

/-- What a measurement cycle samples (R505, R506): the replica slacks of T0 to T23 in ps, at the start and after each 5 mV step or bin change, and
per port (0-11 AP, 12-15 FP) the least timing in 1/1,000 UI and voltage in mV over its lanes. -/
structure Measure where
  slack : List (Vector Int 24)
  margins : List (Nat × Nat × Nat)
deriving DecidableEq, Repr

/-- A corruption of triplicated copies met by a vote (R363): the field in the order of R363, the copy at fault or all three. -/
inductive Upset where
  | none
  | one (field : Nat) (copy : Nat) (value : BitVec 64)
  | all (field : Nat) (index : Nat)
deriving DecidableEq, Repr

end Sys2Proof
end

