-- ==== Sys2Proof/Syntax.lean ====
section
/-! DEFINITION. The commands of the block: one constructor per row of spec/opcode_table.json, in the table's order. -/
namespace Sys2Proof

/-- A command. The docstring of each constructor gives its mnemonic and the rule that defines it. -/
inductive Instr where
  /-- IDENTIFY (R421). -/
  | identify (p : Packet)
  /-- QUEUE_CREATE (R422). -/
  | queueCreate (p : Packet)
  /-- QUEUE_DELETE (R423). -/
  | queueDelete (p : Packet)
  /-- EVENT_QUEUE_SET (R424). -/
  | eventQueueSet (p : Packet)
  /-- MODE_SET (R454). -/
  | modeSet (p : Packet)
  /-- DRAIN (R344). -/
  | drain (p : Packet)
  /-- RESUME (R339). -/
  | resume (p : Packet)
  /-- DRAIN_QUERY (R341). -/
  | drainQuery (p : Packet)
  /-- WARM_RESET (R261). -/
  | warmReset (p : Packet)
  /-- RESET_RECORD_QUERY (R475). -/
  | resetRecordQuery (p : Packet)
  /-- REGION_SET (R30). -/
  | regionSet (p : Packet)
  /-- REGION_CLEAR (R40). -/
  | regionClear (p : Packet)
  /-- REGION_PERM (R38). -/
  | regionPerm (p : Packet)
  /-- REGION_QUERY (R38). -/
  | regionQuery (p : Packet)
  /-- REGION_LOOKUP (R38). -/
  | regionLookup (p : Packet)
  /-- REGION_LOCK (R43). -/
  | regionLock (p : Packet)
  /-- INVALIDATE_ALL (R91). -/
  | invalidateAll (p : Packet)
  /-- CACHE_ENABLE (R93). -/
  | cacheEnable (p : Packet)
  /-- CACHE_DISABLE (R94). -/
  | cacheDisable (p : Packet)
  /-- WAY_ENABLE (R95). -/
  | wayEnable (p : Packet)
  /-- CLEAN (R98). -/
  | clean (p : Packet)
  /-- INVALIDATE (R98). -/
  | invalidate (p : Packet)
  /-- CLEAN_INVALIDATE (R98). -/
  | cleanInvalidate (p : Packet)
  /-- CACHE_QUERY (R104). -/
  | cacheQuery (p : Packet)
  /-- CACHE_READ_SET (R105). -/
  | cacheReadSet (p : Packet)
  /-- PART_MAP_SET (R127). -/
  | partMapSet (p : Packet)
  /-- PART_MASK_SET (R128). -/
  | partMaskSet (p : Packet)
  /-- PART_QUERY (R129). -/
  | partQuery (p : Packet)
  /-- PREFETCH_SET (R130). -/
  | prefetchSet (p : Packet)
  /-- PREFETCH_QUERY (R131). -/
  | prefetchQuery (p : Packet)
  /-- POLICY_LOAD (R158). -/
  | policyLoad (p : Packet)
  /-- POLICY_QUERY (R160). -/
  | policyQuery (p : Packet)
  /-- POLICY_DEFAULT (R159). -/
  | policyDefault (p : Packet)
  /-- POLICY_DATA_READ (R161). -/
  | policyDataRead (p : Packet)
  /-- POLICY_DATA_WRITE (R161). -/
  | policyDataWrite (p : Packet)
  /-- STREAM_OPEN (R286). -/
  | streamOpen (p : Packet)
  /-- STREAM_CLOSE (R288). -/
  | streamClose (p : Packet)
  /-- STREAM_QUERY (R294). -/
  | streamQuery (p : Packet)
  /-- STREAM_WRITERS (R290). -/
  | streamWriters (p : Packet)
  /-- STREAM_ACK_GAP (R280). -/
  | streamAckGap (p : Packet)
  /-- STREAM_NOTIFY (R284). -/
  | streamNotify (p : Packet)
  /-- STREAM_NOTIFY_QUERY (R294). -/
  | streamNotifyQuery (p : Packet)
  /-- STREAM_GLOBAL_SET (R293). -/
  | streamGlobalSet (p : Packet)
  /-- STREAM_GLOBAL_QUERY (R295). -/
  | streamGlobalQuery (p : Packet)
  /-- SEAL (R321). -/
  | seal (p : Packet)
  /-- TIME_ANCHOR (R309). -/
  | timeAnchor (p : Packet)
  /-- SEAL_LOG_SET (R305). -/
  | sealLogSet (p : Packet)
  /-- SEAL_LOG_ACK (R306). -/
  | sealLogAck (p : Packet)
  /-- SEAL_LOG_QUERY (R322). -/
  | sealLogQuery (p : Packet)
  /-- KEY_GEN_IDENTITY (R312). -/
  | keyGenIdentity (p : Packet)
  /-- KEY_GEN_SEAL (R313). -/
  | keyGenSeal (p : Packet)
  /-- KEY_QUERY (R314). -/
  | keyQuery (p : Packet)
  /-- KEY_ZEROISE (R317). -/
  | keyZeroise (p : Packet)
  /-- AUTH_CHALLENGE (R319). -/
  | authChallenge (p : Packet)
  /-- AUTH_RESPONSE (R319). -/
  | authResponse (p : Packet)
  /-- AUTH_USER_SET (R319). -/
  | authUserSet (p : Packet)
  /-- APPROVED_MODE (R318). -/
  | approvedMode (p : Packet)
  /-- SELF_TEST (R320). -/
  | selfTest (p : Packet)
  /-- REG_GUAR_SET (R352). -/
  | regGuarSet (p : Packet)
  /-- REG_CAP_SET (R349). -/
  | regCapSet (p : Packet)
  /-- REG_FAR_PLAN (R353). -/
  | regFarPlan (p : Packet)
  /-- REG_PARAM_SET (R360). -/
  | regParamSet (p : Packet)
  /-- REG_QUERY (R361). -/
  | regQuery (p : Packet)
  /-- REG_CAPACITY_QUERY (R361). -/
  | regCapacityQuery (p : Packet)
  /-- ERR_LOG_READ (R392). -/
  | errLogRead (p : Packet)
  /-- ERR_LOG_ACK (R392). -/
  | errLogAck (p : Packet)
  /-- ERR_MIRROR_SET (R395). -/
  | errMirrorSet (p : Packet)
  /-- ERR_QUERY (R397). -/
  | errQuery (p : Packet)
  /-- RETIRE_SET (R382). -/
  | retireSet (p : Packet)
  /-- RETIRE_BANK (R382). -/
  | retireBank (p : Packet)
  /-- RETIRE_CLEAR (R384). -/
  | retireClear (p : Packet)
  /-- RETIRE_QUERY (R396). -/
  | retireQuery (p : Packet)
  /-- SCRUB_SET (R377). -/
  | scrubSet (p : Packet)
  /-- FAR_RECOVER (R370). -/
  | farRecover (p : Packet)
  /-- FREEZE_QUERY (R387). -/
  | freezeQuery (p : Packet)
  /-- ERR_INJECT (R398). -/
  | errInject (p : Packet)
  /-- MON_PORT_SET (R478). -/
  | monPortSet (p : Packet)
  /-- MON_SYS_SET (R480). -/
  | monSysSet (p : Packet)
  /-- MON_QUERY (R497). -/
  | monQuery (p : Packet)
  /-- REC_CONFIG (R485). -/
  | recConfig (p : Packet)
  /-- REC_START (R489). -/
  | recStart (p : Packet)
  /-- REC_STOP (R491). -/
  | recStop (p : Packet)
  /-- REC_QUERY (R498). -/
  | recQuery (p : Packet)
  /-- REPLAY_START (R492). -/
  | replayStart (p : Packet)
  /-- REPLAY_STOP (R496). -/
  | replayStop (p : Packet)
  /-- REPLAY_QUERY (R498). -/
  | replayQuery (p : Packet)
  /-- AGEING_MEASURE (R506). -/
  | ageingMeasure (p : Packet)
  /-- AGEING_QUERY (R515). -/
  | ageingQuery (p : Packet)
  /-- THERMAL_QUERY (R515). -/
  | thermalQuery (p : Packet)
  /-- FW_DOWNLOAD (R466). -/
  | fwDownload (p : Packet)
  /-- FW_COMMIT (R466). -/
  | fwCommit (p : Packet)
  /-- FW_ACTIVATE (R467). -/
  | fwActivate (p : Packet)
  /-- FW_QUERY (R470). -/
  | fwQuery (p : Packet)
  /-- CUSTOMER_KEY_SET (R468). -/
  | customerKeySet (p : Packet)
  /-- CONFIG_WRITE (R469). -/
  | configWrite (p : Packet)
  /-- CONFIG_QUERY (R465). -/
  | configQuery (p : Packet)
  /-- PORT_CONFIG (R205). -/
  | portConfig (p : Packet)
  /-- PORT_RESET (R206). -/
  | portReset (p : Packet)
  /-- PORT_QUERY (R207). -/
  | portQuery (p : Packet)
  /-- NOP (R138). -/
  | nop (sl : BitVec 3) (gd : BitVec 4)
  /-- ADD (R138). -/
  | add (sl : BitVec 3) (gd : BitVec 4) (rd ra rb : BitVec 4)
  /-- ADDI (R138). -/
  | addi (sl : BitVec 3) (gd : BitVec 4) (rd ra : BitVec 4) (imm : BitVec 40)
  /-- SUB (R138). -/
  | sub (sl : BitVec 3) (gd : BitVec 4) (rd ra rb : BitVec 4)
  /-- AND (R138). -/
  | and (sl : BitVec 3) (gd : BitVec 4) (rd ra rb : BitVec 4)
  /-- ANDI (R138). -/
  | andi (sl : BitVec 3) (gd : BitVec 4) (rd ra : BitVec 4) (imm : BitVec 40)
  /-- OR (R138). -/
  | or (sl : BitVec 3) (gd : BitVec 4) (rd ra rb : BitVec 4)
  /-- ORI (R138). -/
  | ori (sl : BitVec 3) (gd : BitVec 4) (rd ra : BitVec 4) (imm : BitVec 40)
  /-- XOR (R138). -/
  | xor (sl : BitVec 3) (gd : BitVec 4) (rd ra rb : BitVec 4)
  /-- XORI (R138). -/
  | xori (sl : BitVec 3) (gd : BitVec 4) (rd ra : BitVec 4) (imm : BitVec 40)
  /-- ANDN (R138). -/
  | andn (sl : BitVec 3) (gd : BitVec 4) (rd ra rb : BitVec 4)
  /-- SHL (R138). -/
  | shl (sl : BitVec 3) (gd : BitVec 4) (rd ra : BitVec 4) (imm : BitVec 40)
  /-- SHR (R138). -/
  | shr (sl : BitVec 3) (gd : BitVec 4) (rd ra : BitVec 4) (imm : BitVec 40)
  /-- SHLV (R138). -/
  | shlv (sl : BitVec 3) (gd : BitVec 4) (rd ra rb : BitVec 4)
  /-- SHRV (R138). -/
  | shrv (sl : BitVec 3) (gd : BitVec 4) (rd ra rb : BitVec 4)
  /-- MOVI (R138). -/
  | movi (sl : BitVec 3) (gd : BitVec 4) (rd : BitVec 4) (imm : BitVec 40)
  /-- SEL (R138). -/
  | sel (sl : BitVec 3) (gd : BitVec 4) (rd ra rb : BitVec 4) (imm : BitVec 40)
  /-- FNZ (R138). -/
  | fnz (sl : BitVec 3) (gd : BitVec 4) (rd ra rb : BitVec 4)
  /-- LSB (R138). -/
  | lsb (sl : BitVec 3) (gd : BitVec 4) (rd ra : BitVec 4)
  /-- FFS (R138). -/
  | ffs (sl : BitVec 3) (gd : BitVec 4) (rd ra : BitVec 4)
  /-- POPC (R138). -/
  | popc (sl : BitVec 3) (gd : BitVec 4) (rd ra : BitVec 4)
  /-- MUL (R138). -/
  | mul (sl : BitVec 3) (gd : BitVec 4) (rd ra rb : BitVec 4)
  /-- CMPEQ (R138). -/
  | cmpeq (sl : BitVec 3) (gd : BitVec 4) (rd ra rb : BitVec 4)
  /-- CMPLTU (R138). -/
  | cmpltu (sl : BitVec 3) (gd : BitVec 4) (rd ra rb : BitVec 4)
  /-- CMPEQI (R138). -/
  | cmpeqi (sl : BitVec 3) (gd : BitVec 4) (rd ra : BitVec 4) (imm : BitVec 40)
  /-- CMPLTUI (R138). -/
  | cmpltui (sl : BitVec 3) (gd : BitVec 4) (rd ra : BitVec 4) (imm : BitVec 40)
  /-- TSTZ (R138). -/
  | tstz (sl : BitVec 3) (gd : BitVec 4) (rd ra rb : BitVec 4)
  /-- LD (R138). -/
  | ld (sl : BitVec 3) (gd : BitVec 4) (rd ra : BitVec 4) (imm : BitVec 40) (perr : Bool)
  /-- ST (R138). -/
  | st (sl : BitVec 3) (gd : BitVec 4) (ra rb : BitVec 4) (imm : BitVec 40)
  /-- STI (R142). -/
  | sti (sl : BitVec 3) (gd : BitVec 4) (rd ra rb : BitVec 4) (imm : BitVec 40)
  /-- IFLUSH (R142). -/
  | iflush (sl : BitVec 3) (gd : BitVec 4)
  /-- BR (R139). -/
  | br (sl : BitVec 3) (gd : BitVec 4) (imm : BitVec 40)
  /-- JR (R139). -/
  | jr (sl : BitVec 3) (gd : BitVec 4) (ra : BitVec 4)
  /-- JAL (R139). -/
  | jal (sl : BitVec 3) (gd : BitVec 4) (rd : BitVec 4) (imm : BitVec 40)
  /-- DONE (R148). -/
  | done (sl : BitVec 3) (gd : BitVec 4) (ra rb : BitVec 4) (imm : BitVec 40)
  /-- EMIT (R143). -/
  | emit (sl : BitVec 3) (gd : BitVec 4) (ra : BitVec 4)
  /-- SEQ_EVENT_START (R146). -/
  | seqEventStart (sl : BitVec 3) (perr : BitVec 4)
  /-- SEQ_WATCHDOG (R140). -/
  | seqWatchdog (sl : BitVec 3)
  /-- VICTIM_DEADLINE (R150). -/
  | victimDeadline (sl : BitVec 3)
  /-- READ_SHARED (R194). -/
  | readShared (port : BitVec 4) (h : Slot)
  /-- READ_OWN (R194). -/
  | readOwn (port : BitVec 4) (h : Slot)
  /-- READ_ONCE (R194). -/
  | readOnce (port : BitVec 4) (h : Slot)
  /-- UPGRADE (R194). -/
  | upgrade (port : BitVec 4) (h : Slot)
  /-- WRITE_INV_FULL (R194). -/
  | writeInvFull (port : BitVec 4) (h : Slot)
  /-- WRITE_INV_PARTIAL (R194). -/
  | writeInvPartial (port : BitVec 4) (h : Slot)
  /-- WRITE_STASH (R198). -/
  | writeStash (port : BitVec 4) (h : Slot)
  /-- READ_DEV (R199). -/
  | readDev (port : BitVec 4) (h : Slot)
  /-- WRITE_DEV (R199). -/
  | writeDev (port : BitVec 4) (h : Slot)
  /-- FENCE (R251). -/
  | fence (port : BitVec 4) (h : Slot)
  /-- COMP_ACK (R191). -/
  | compAck (port : BitVec 4) (h : Slot)
  /-- RSP_I (R190). -/
  | rspI (port : BitVec 4) (h : Slot)
  /-- RSP_S (R190). -/
  | rspS (port : BitVec 4) (h : Slot)
  /-- RSP_FWD (R190). -/
  | rspFwd (port : BitVec 4) (h : Slot)
  /-- EVICT_NOTE (R195). -/
  | evictNote (port : BitVec 4) (h : DirMsg)
  /-- STASH_DECLINE (R198). -/
  | stashDecline (port : BitVec 4) (h : Slot)
  /-- STASH_ACCEPT (R198). -/
  | stashAccept (port : BitVec 4) (h : Slot)
  /-- SNP_DATA (R194). -/
  | snpData (port : BitVec 4) (h : Slot) (d : Line)
  /-- WB_DATA (R195). -/
  | wbData (port : BitVec 4) (h : DirMsg) (d : Line)
  /-- EVICT_OFFER (R88). -/
  | evictOffer (port : BitVec 4) (h : DirMsg) (d : Line)
  /-- WR_DATA (R197). -/
  | wrData (port : BitVec 4) (h : Slot) (d : Line)
  /-- WR_DATA_PTL (R197). -/
  | wrDataPtl (port : BitVec 4) (h : Slot) (mask : Slot) (d : Line)
  /-- L_INIT_PARAM (R177). -/
  | lInitParam (port : BitVec 4) (h : Slot)
  /-- L_INIT_ACK (R176). -/
  | lInitAck (port : BitVec 4) (h : Slot)
  /-- L_RETRY_REQ (R172). -/
  | lRetryReq (port : BitVec 4) (h : Slot)
  /-- SNP_SHARED (R235). -/
  | snpShared (port : BitVec 4) (h : DirMsg)
  /-- SNP_INV (R235). -/
  | snpInv (port : BitVec 4) (h : DirMsg)
  /-- SNP_FWD_SHARED (R235). -/
  | snpFwdShared (port : BitVec 4) (h : DirMsg)
  /-- SNP_FWD_OWN (R235). -/
  | snpFwdOwn (port : BitVec 4) (h : DirMsg)
  /-- STASH_OFFER (R235). -/
  | stashOffer (port : BitVec 4) (h : Slot)
  /-- DATA_S (R234). -/
  | dataS (port : BitVec 4) (h : Slot) (d : Line)
  /-- DATA_F (R234). -/
  | dataF (port : BitVec 4) (h : Slot) (d : Line)
  /-- DATA_E (R234). -/
  | dataE (port : BitVec 4) (h : Slot) (d : Line)
  /-- DATA_M (R234). -/
  | dataM (port : BitVec 4) (h : Slot) (d : Line)
  /-- DATA_NC (R234). -/
  | dataNc (port : BitVec 4) (h : Slot) (d : Line)
  /-- COMP (R234). -/
  | comp (port : BitVec 4) (h : Slot)
  /-- FENCE_DONE (R237). -/
  | fenceDone (port : BitVec 4) (h : Slot)
  /-- WR_PULL (R234). -/
  | wrPull (port : BitVec 4) (h : Slot)
  /-- FROZEN_ABORT (R200). -/
  | frozenAbort (port : BitVec 4) (h : Slot)
  /-- FLIT_RECEIVED (R170). -/
  | flitReceived (port : BitVec 4) (f : Flit)
  /-- LRETRY_REQ_REPEAT (R170). -/
  | lretryReqRepeat (port : BitVec 4)
  /-- ACK_TIMEOUT (R172). -/
  | ackTimeout (port : BitVec 4)
  /-- PHY_RECOVERY_END (R173). -/
  | phyRecoveryEnd (port : BitVec 4) (up : Bool)
  /-- PORT_L0_REACHED (R174). -/
  | portL0Reached (port : BitVec 4) (rate : BitVec 2) (width : Byte)
  /-- L_INIT_PARAM_RESEND (R174). -/
  | lInitParamResend (port : BitVec 4)
  /-- INIT_TIMEOUT (R174). -/
  | initTimeout (port : BitVec 4)
  /-- INIT_RETRY (R174). -/
  | initRetry (port : BitVec 4)
  /-- SLICE_LOOKUP (R74). -/
  | sliceLookup (sl : BitVec 3) (f : LookFault)
  /-- LINE_QUEUE_RESUME (R213). -/
  | lineQueueResume (sl : BitVec 3) (q : Queued)
  /-- SET_QUEUE_RESUME (R216). -/
  | setQueueResume (sl : BitVec 3)
  /-- MC_DATA_RETURN (R71). -/
  | mcDataReturn (id : Nat) (e : ErrPat)
  /-- MC_WRITE_ACCEPT (R72). -/
  | mcWriteAccept (id : Nat)
  /-- FAR_READ_COMPLETION (R81). -/
  | farReadCompletion (id : Nat) (r : FarOut)
  /-- FAR_WRITE_COMPLETION (R241). -/
  | farWriteCompletion (id : Nat) (ok : Bool)
  /-- SNP_TIMEOUT_EXPIRY (R208). -/
  | snpTimeoutExpiry (port : BitVec 4) (line : LineNo)
  /-- FAR_TIMEOUT_EXPIRY (R210). -/
  | farTimeoutExpiry (id : Nat)
  /-- STASH_OFFER_EXPIRY (R198). -/
  | stashOfferExpiry (line : LineNo)
  /-- COMBINE_WINDOW_EXPIRY (R248). -/
  | combineWindowExpiry (line : LineNo)
  /-- SIDE_BUFFER_AGE_TICK (R124). -/
  | sideBufferAgeTick
  /-- NEXT_LINE_CANDIDATE (R116). -/
  | nextLineCandidate (sl : BitVec 3)
  /-- STREAM_CANDIDATE_ISSUE (R120). -/
  | streamCandidateIssue (port : BitVec 4)
  /-- MAINTENANCE_WALK_LINE (R101). -/
  | maintenanceWalkLine (sl : BitVec 3) (e : WalkRead)
  /-- DIRECTORY_WALK_SET (R224). -/
  | directoryWalkSet (sl : DirSlice)
  /-- PATROL_VISIT (R377). -/
  | patrolVisit (set : BitVec 26) (te : ErrPat) (le : List (Nat × ErrPat))
  /-- DIR_RECALL_CANDIDATE (R374). -/
  | dirRecallCandidate (sl : DirSlice)
  /-- SET_LOST_SCAN_END (R371). -/
  | setLostScanEnd (set : BitVec 26) (e : ErrPat)
  /-- HASH_LINE (R275). -/
  | hashLine (stream : BitVec 18) (far : HashFar) (e : ErrPat)
  /-- HOLE_TIMEOUT (R274). -/
  | holeTimeout (stream : BitVec 18)
  /-- SEAL_RECORD_FORM (R299). -/
  | sealRecordForm (stream : BitVec 18)
  /-- SEAL_SIGNATURE_DONE (R296). -/
  | sealSignatureDone
  /-- SEAL_SLOT_WRITE_DONE (R306). -/
  | sealSlotWriteDone (idx : Nat) (ok : Bool)
  /-- CREDIT_RETURN (R282). -/
  | creditReturn (port : BitVec 4) (k : Nat)
  /-- GUAR_SAMPLE (R356). -/
  | guarSample
  /-- GUAR_WINDOW_END (R357). -/
  | guarWindowEnd
  /-- PFW_N_FALL (R324). -/
  | pfwNFall
  /-- PFW_N_RISE (R340). -/
  | pfwNRise
  /-- DRAIN_QUIESCE_END (R328). -/
  | drainQuiesceEnd
  /-- DRAIN_RECORDS_FORM (R331). -/
  | drainRecordsForm
  /-- DRAIN_MANIFEST (R310). -/
  | drainManifest
  /-- DRAIN_EXTRA_CLEAN (R328). -/
  | drainExtraClean (e : ErrPat)
  /-- GPF_PHASE1_REQUEST (R330). -/
  | gpfPhase1Request
  /-- GPF_PHASE1_TIMEOUT (R330). -/
  | gpfPhase1Timeout
  /-- GPF_PHASE1_RESPONSE (R330). -/
  | gpfPhase1Response (fp : BitVec 2) (ok : Bool)
  /-- GPF_PHASE2_REQUEST (R330). -/
  | gpfPhase2Request
  /-- GPF_PHASE2_RESPONSE (R330). -/
  | gpfPhase2Response (fp : BitVec 2) (ok : Bool)
  /-- GPF_PHASE2_TIMEOUT (R330). -/
  | gpfPhase2Timeout (fp : BitVec 2)
  /-- DRAIN_DONE (R327). -/
  | drainDone
  /-- THERMAL_SAMPLE (R511). -/
  | thermalSample (temps : List Byte)
  /-- THERMAL_LEVEL_FALL (R512). -/
  | thermalLevelFall
  /-- CRITICAL_LIMIT (R511). -/
  | criticalLimit
  /-- OPERATING_HOURS_MARK (R506). -/
  | operatingHoursMark
  /-- HOURS_WRITE (R506). -/
  | hoursWrite
  /-- MEASUREMENT_CYCLE_END (R507). -/
  | measurementCycleEnd (m : Measure)
  /-- CORE_BIN_SWITCH (R502). -/
  | coreBinSwitch
  /-- VID_STEP (R504). -/
  | vidStep
  /-- CHANNEL_RETRAIN (R508). -/
  | channelRetrain (ch : BitVec 5) (eye : BitVec 16)
  /-- AO_VOTE (R363). -/
  | aoVote (u : Upset)
  /-- RESET_MIRROR (R262). -/
  | resetMirror
  /-- MANAGEMENT_WATCHDOG (R474). -/
  | managementWatchdog
  /-- RESET_N_ASSERT (R472). -/
  | resetNAssert
  /-- RESET_N_DEASSERT (R455). -/
  | resetNDeassert
  /-- VDD_AO_POWER_UP (R472). -/
  | vddAoPowerUp
  /-- VDD_AO_LOSS (R450). -/
  | vddAoLoss
  /-- FIRMWARE_START (R455). -/
  | firmwareStart (romOk identOk sealOk : Bool) (kat : BitVec 8)
  /-- CHANNEL_TRAINING_END (R55). -/
  | channelTrainingEnd (trained : BitVec 32) (dense : BitVec 32) (rate : BitVec 2)
  /-- MEMORY_ACTIVE (R455). -/
  | memoryActive (fp : BitVec 2) (cap : BitVec 40) (gpf : Bool) (dur : GpfPhase2) (dirty : BitVec 32)
  /-- MEMORY_ACTIVE_TIMEOUT (R455). -/
  | memoryActiveTimeout (fp : FarSilent)
  /-- BOOT_EXIT (R453). -/
  | bootExit
  /-- WARM_RESET_REBOOT (R473). -/
  | warmResetReboot
  /-- FLASH_OPERATION_DONE (R457). -/
  | flashOperationDone (ok : Bool)
  /-- PERST_N (R404). -/
  | perstN
  /-- FLR (R404). -/
  | flr
  /-- BUS_MASTER_ENABLE (R403). -/
  | busMasterEnable (on : Bool)
  /-- D3HOT_ENTRY (R403). -/
  | d3hotEntry
  /-- D3HOT_EXIT (R403). -/
  | d3hotExit
  /-- MSIX_UNMASK (R405). -/
  | msixUnmask (e : MsixEntry)
  /-- SQ_TAIL_DOORBELL (R409). -/
  | sqTailDoorbell (n : BitVec 4) (v : BitVec 64)
  /-- CQ_HEAD_DOORBELL (R406). -/
  | cqHeadDoorbell (n : BitVec 4) (v : BitVec 64)
  /-- EVENT_QUEUE_HEAD_DOORBELL (R406). -/
  | eventQueueHeadDoorbell (v : BitVec 64)
  /-- SQ_ENTRY_FETCH (R413). -/
  | sqEntryFetch (n : BitVec 4) (e : BitVec 512) (ok : Bool)
  /-- COMPLETION_WRITE (R412). -/
  | completionWrite (n : BitVec 4) (ok : Bool)
  /-- EVENT_QUEUE_WRITE (R419). -/
  | eventQueueWrite (w : EventWrite)
  /-- QP0_CREATE (R407). -/
  | qp0Create
  /-- QP0_DELETE (R407). -/
  | qp0Delete
  /-- GUARDED_PRIMARY_WRITE (R431). -/
  | guardedPrimaryWrite (off : BitVec 20) (v : BitVec 64) (size : BitVec 4)
  /-- GUARDED_PARTNER_WRITE (R431). -/
  | guardedPartnerWrite (off : BitVec 20) (v : BitVec 64) (size : BitVec 4)
  /-- GUARD_TIMEOUT (R432). -/
  | guardTimeout
  /-- ZEROISE_ARM_EXPIRY (R317). -/
  | zeroiseArmExpiry
  /-- ALIAS_SET_WRITE (R430). -/
  | aliasSetWrite (off : BitVec 20) (v : BitVec 64) (size : BitVec 4)
  /-- ALIAS_CLEAR_WRITE (R430). -/
  | aliasClearWrite (off : BitVec 20) (v : BitVec 64) (size : BitVec 4)
  /-- ALIAS_TOGGLE_WRITE (R430). -/
  | aliasToggleWrite (off : BitVec 20) (v : BitVec 64) (size : BitVec 4)
  /-- REGISTER_WRITE (R429). -/
  | registerWrite (off : HostOff) (v : BitVec 64) (size : BitVec 4)
  /-- DEV_STATUS_READ (R436). -/
  | devStatusRead (viaAlias : Bool)
  /-- GUAR_MISS_READ (R358). -/
  | guarMissRead (viaAlias : Bool)
  /-- HMF_STATUS_READ (R447). -/
  | hmfStatusRead (viaAlias : Bool)
  /-- EVF_STATUS_READ (R447). -/
  | evfStatusRead (viaAlias : Bool)
  /-- THERM_STATUS_READ (R514). -/
  | thermStatusRead (viaAlias : Bool)
  /-- COUNTER_WRITE (R439). -/
  | counterWrite (off : BitVec 20) (v : BitVec 64) (size : BitVec 4)
  /-- COUNTER_LOW_READ (R442). -/
  | counterLowRead (r : BarRead)
  /-- COUNTER_HIGH_READ (R442). -/
  | counterHighRead (off : BitVec 20)
  /-- HMF_WRITE (R444). -/
  | hmfWrite (v : BitVec 64)
  /-- HMF_WORD_TAKE (R444). -/
  | hmfWordTake (perr : Bool)
  /-- EVF_READ (R445). -/
  | evfRead (perr : Bool)
  /-- BMC_BLOCK_READ (R522). -/
  | bmcBlockRead (code : Byte)
  /-- TAP_INSTRUCTION (R523). -/
  | tapInstruction (ins : BitVec 3)
  /-- REC_T0_REACHED (R489). -/
  | recT0Reached
  /-- REC_QUIESCE_TIMEOUT (R489). -/
  | recQuiesceTimeout
  /-- REC_SPILL_WRITE (R491). -/
  | recSpillWrite (ok : Bool) (perr : Bool)
  /-- REPLAY_CYCLE (R493). -/
  | replayCycle (rec : List Byte) (ok : Bool)
  /-- FAR_LINK_STATE_CHANGE (R355). -/
  | farLinkStateChange (fp : BitVec 2) (link : FarLink) (rate : BitVec 2) (width : Byte)
  /-- WIDTH_FAILED (R163). -/
  | widthFailed (port : BitVec 4)
  /-- REFRESH_RATE_CHANGE (R353). -/
  | refreshRateChange (ch : BitVec 5) (mult : BitVec 3)
  /-- CONTINUOUS_HEALTH_TEST_FAIL (R320). -/
  | continuousHealthTestFail (test : Byte)
deriving DecidableEq, Repr

end Sys2Proof
end

