-- ==== Sys2Proof/WellFormed.lean ====
section
/-! DEFINITION. Which commands are well formed: operands that name something the hub or its pins have. -/
namespace Sys2Proof

/-- A port operand names one of AP0 to AP11 (R17). -/
def portOk (p : BitVec 4) : Bool := p.toNat < 12
/-- A register access has a length; 9 and more stand for a request longer than 8 bytes (R427). -/
def sizeOk (n : BitVec 4) : Bool := n ≠ 0
/-- A thermal sample carries the 16 sensors of R511. -/
def tempsOk (t : List Byte) : Bool := t.length = 16
/-- A rate code other than the reserved code 3 (R205, R514). -/
def rateOk (r : BitVec 2) : Bool := r ≠ 3
/-- A trained width of x4 or x8 (R162). -/
def widthOk (w : Byte) : Bool := w = 4 || w = 8
/-- A refresh multiple of 1, 2 or 4 (R353). -/
def multOk (m : BitVec 3) : Bool := m = 1 || m = 2 || m = 4
/-- Host data read by pointer is at most 2^32 bytes long (R414). -/
def packetOk (p : Packet) : Bool := p.data.length < 4294967296
/-- A test access port command of the list of R523: 0 BYPASS, 1 IDCODE, 2 SAMPLE/PRELOAD, 3 EXTEST, 4 EXTEST_PULSE, 5 EXTEST_TRAIN. -/
def insOk (i : BitVec 3) : Bool := i.toNat < 6

/-- Well-formed commands. -/
def Instr.wf (i : Instr) : Bool :=
  match i with
  | .identify p => packetOk p
  | .queueCreate p => packetOk p
  | .queueDelete p => packetOk p
  | .eventQueueSet p => packetOk p
  | .modeSet p => packetOk p
  | .drain p => packetOk p
  | .resume p => packetOk p
  | .drainQuery p => packetOk p
  | .warmReset p => packetOk p
  | .resetRecordQuery p => packetOk p
  | .regionSet p => packetOk p
  | .regionClear p => packetOk p
  | .regionPerm p => packetOk p
  | .regionQuery p => packetOk p
  | .regionLookup p => packetOk p
  | .regionLock p => packetOk p
  | .invalidateAll p => packetOk p
  | .cacheEnable p => packetOk p
  | .cacheDisable p => packetOk p
  | .wayEnable p => packetOk p
  | .clean p => packetOk p
  | .invalidate p => packetOk p
  | .cleanInvalidate p => packetOk p
  | .cacheQuery p => packetOk p
  | .cacheReadSet p => packetOk p
  | .partMapSet p => packetOk p
  | .partMaskSet p => packetOk p
  | .partQuery p => packetOk p
  | .prefetchSet p => packetOk p
  | .prefetchQuery p => packetOk p
  | .policyLoad p => packetOk p
  | .policyQuery p => packetOk p
  | .policyDefault p => packetOk p
  | .policyDataRead p => packetOk p
  | .policyDataWrite p => packetOk p
  | .streamOpen p => packetOk p
  | .streamClose p => packetOk p
  | .streamQuery p => packetOk p
  | .streamWriters p => packetOk p
  | .streamAckGap p => packetOk p
  | .streamNotify p => packetOk p
  | .streamNotifyQuery p => packetOk p
  | .streamGlobalSet p => packetOk p
  | .streamGlobalQuery p => packetOk p
  | .seal p => packetOk p
  | .timeAnchor p => packetOk p
  | .sealLogSet p => packetOk p
  | .sealLogAck p => packetOk p
  | .sealLogQuery p => packetOk p
  | .keyGenIdentity p => packetOk p
  | .keyGenSeal p => packetOk p
  | .keyQuery p => packetOk p
  | .keyZeroise p => packetOk p
  | .authChallenge p => packetOk p
  | .authResponse p => packetOk p
  | .authUserSet p => packetOk p
  | .approvedMode p => packetOk p
  | .selfTest p => packetOk p
  | .regGuarSet p => packetOk p
  | .regCapSet p => packetOk p
  | .regFarPlan p => packetOk p
  | .regParamSet p => packetOk p
  | .regQuery p => packetOk p
  | .regCapacityQuery p => packetOk p
  | .errLogRead p => packetOk p
  | .errLogAck p => packetOk p
  | .errMirrorSet p => packetOk p
  | .errQuery p => packetOk p
  | .retireSet p => packetOk p
  | .retireBank p => packetOk p
  | .retireClear p => packetOk p
  | .retireQuery p => packetOk p
  | .scrubSet p => packetOk p
  | .farRecover p => packetOk p
  | .freezeQuery p => packetOk p
  | .errInject p => packetOk p
  | .monPortSet p => packetOk p
  | .monSysSet p => packetOk p
  | .monQuery p => packetOk p
  | .recConfig p => packetOk p
  | .recStart p => packetOk p
  | .recStop p => packetOk p
  | .recQuery p => packetOk p
  | .replayStart p => packetOk p
  | .replayStop p => packetOk p
  | .replayQuery p => packetOk p
  | .ageingMeasure p => packetOk p
  | .ageingQuery p => packetOk p
  | .thermalQuery p => packetOk p
  | .fwDownload p => packetOk p
  | .fwCommit p => packetOk p
  | .fwActivate p => packetOk p
  | .fwQuery p => packetOk p
  | .customerKeySet p => packetOk p
  | .configWrite p => packetOk p
  | .configQuery p => packetOk p
  | .portConfig p => packetOk p
  | .portReset p => packetOk p
  | .portQuery p => packetOk p
  | .nop _ _ => true
  | .add _ _ _ _ _ => true
  | .addi _ _ _ _ _ => true
  | .sub _ _ _ _ _ => true
  | .and _ _ _ _ _ => true
  | .andi _ _ _ _ _ => true
  | .or _ _ _ _ _ => true
  | .ori _ _ _ _ _ => true
  | .xor _ _ _ _ _ => true
  | .xori _ _ _ _ _ => true
  | .andn _ _ _ _ _ => true
  | .shl _ _ _ _ _ => true
  | .shr _ _ _ _ _ => true
  | .shlv _ _ _ _ _ => true
  | .shrv _ _ _ _ _ => true
  | .movi _ _ _ _ => true
  | .sel _ _ _ _ _ _ => true
  | .fnz _ _ _ _ _ => true
  | .lsb _ _ _ _ => true
  | .ffs _ _ _ _ => true
  | .popc _ _ _ _ => true
  | .mul _ _ _ _ _ => true
  | .cmpeq _ _ _ _ _ => true
  | .cmpltu _ _ _ _ _ => true
  | .cmpeqi _ _ _ _ _ => true
  | .cmpltui _ _ _ _ _ => true
  | .tstz _ _ _ _ _ => true
  | .ld _ _ _ _ _ _ => true
  | .st _ _ _ _ _ => true
  | .sti _ _ _ _ _ _ => true
  | .iflush _ _ => true
  | .br _ _ _ => true
  | .jr _ _ _ => true
  | .jal _ _ _ _ => true
  | .done _ _ _ _ _ => true
  | .emit _ _ _ => true
  | .seqEventStart _ _ => true
  | .seqWatchdog _ => true
  | .victimDeadline _ => true
  | .readShared port _ => portOk port
  | .readOwn port _ => portOk port
  | .readOnce port _ => portOk port
  | .upgrade port _ => portOk port
  | .writeInvFull port _ => portOk port
  | .writeInvPartial port _ => portOk port
  | .writeStash port _ => portOk port
  | .readDev port _ => portOk port
  | .writeDev port _ => portOk port
  | .fence port _ => portOk port
  | .compAck port _ => portOk port
  | .rspI port _ => portOk port
  | .rspS port _ => portOk port
  | .rspFwd port _ => portOk port
  | .evictNote port _ => portOk port
  | .stashDecline port _ => portOk port
  | .stashAccept port _ => portOk port
  | .snpData port _ _ => portOk port
  | .wbData port _ _ => portOk port
  | .evictOffer port _ _ => portOk port
  | .wrData port _ _ => portOk port
  | .wrDataPtl port _ _ _ => portOk port
  | .lInitParam port _ => portOk port
  | .lInitAck port _ => portOk port
  | .lRetryReq port _ => portOk port
  | .snpShared port _ => portOk port
  | .snpInv port _ => portOk port
  | .snpFwdShared port _ => portOk port
  | .snpFwdOwn port _ => portOk port
  | .stashOffer port _ => portOk port
  | .dataS port _ _ => portOk port
  | .dataF port _ _ => portOk port
  | .dataE port _ _ => portOk port
  | .dataM port _ _ => portOk port
  | .dataNc port _ _ => portOk port
  | .comp port _ => portOk port
  | .fenceDone port _ => portOk port
  | .wrPull port _ => portOk port
  | .frozenAbort port _ => portOk port
  | .flitReceived port _ => portOk port
  | .lretryReqRepeat port => portOk port
  | .ackTimeout port => portOk port
  | .phyRecoveryEnd port _ => portOk port
  | .portL0Reached port rate width => portOk port && rateOk rate && widthOk width
  | .lInitParamResend port => portOk port
  | .initTimeout port => portOk port
  | .initRetry port => portOk port
  | .sliceLookup _ _ => true
  | .lineQueueResume _ _ => true
  | .setQueueResume _ => true
  | .mcDataReturn _ _ => true
  | .mcWriteAccept _ => true
  | .farReadCompletion _ _ => true
  | .farWriteCompletion _ _ => true
  | .snpTimeoutExpiry port _ => portOk port
  | .farTimeoutExpiry _ => true
  | .stashOfferExpiry _ => true
  | .combineWindowExpiry _ => true
  | .sideBufferAgeTick => true
  | .nextLineCandidate _ => true
  | .streamCandidateIssue port => portOk port
  | .maintenanceWalkLine _ _ => true
  | .directoryWalkSet _ => true
  | .patrolVisit _ _ _ => true
  | .dirRecallCandidate _ => true
  | .setLostScanEnd _ _ => true
  | .hashLine _ _ _ => true
  | .holeTimeout _ => true
  | .sealRecordForm _ => true
  | .sealSignatureDone => true
  | .sealSlotWriteDone _ _ => true
  | .creditReturn port _ => portOk port
  | .guarSample => true
  | .guarWindowEnd => true
  | .pfwNFall => true
  | .pfwNRise => true
  | .drainQuiesceEnd => true
  | .drainRecordsForm => true
  | .drainManifest => true
  | .drainExtraClean _ => true
  | .gpfPhase1Request => true
  | .gpfPhase1Timeout => true
  | .gpfPhase1Response _ _ => true
  | .gpfPhase2Request => true
  | .gpfPhase2Response _ _ => true
  | .gpfPhase2Timeout _ => true
  | .drainDone => true
  | .thermalSample temps => tempsOk temps
  | .thermalLevelFall => true
  | .criticalLimit => true
  | .operatingHoursMark => true
  | .hoursWrite => true
  | .measurementCycleEnd _ => true
  | .coreBinSwitch => true
  | .vidStep => true
  | .channelRetrain _ _ => true
  | .aoVote _ => true
  | .resetMirror => true
  | .managementWatchdog => true
  | .resetNAssert => true
  | .resetNDeassert => true
  | .vddAoPowerUp => true
  | .vddAoLoss => true
  | .firmwareStart _ _ _ _ => true
  | .channelTrainingEnd _ _ rate => rateOk rate
  | .memoryActive _ _ _ _ _ => true
  | .memoryActiveTimeout _ => true
  | .bootExit => true
  | .warmResetReboot => true
  | .flashOperationDone _ => true
  | .perstN => true
  | .flr => true
  | .busMasterEnable _ => true
  | .d3hotEntry => true
  | .d3hotExit => true
  | .msixUnmask _ => true
  | .sqTailDoorbell _ _ => true
  | .cqHeadDoorbell _ _ => true
  | .eventQueueHeadDoorbell _ => true
  | .sqEntryFetch _ _ _ => true
  | .completionWrite _ _ => true
  | .eventQueueWrite _ => true
  | .qp0Create => true
  | .qp0Delete => true
  | .guardedPrimaryWrite _ _ size => sizeOk size
  | .guardedPartnerWrite _ _ size => sizeOk size
  | .guardTimeout => true
  | .zeroiseArmExpiry => true
  | .aliasSetWrite _ _ size => sizeOk size
  | .aliasClearWrite _ _ size => sizeOk size
  | .aliasToggleWrite _ _ size => sizeOk size
  | .registerWrite _ _ size => sizeOk size
  | .devStatusRead _ => true
  | .guarMissRead _ => true
  | .hmfStatusRead _ => true
  | .evfStatusRead _ => true
  | .thermStatusRead _ => true
  | .counterWrite _ _ size => sizeOk size
  | .counterLowRead r => sizeOk r.size
  | .counterHighRead _ => true
  | .hmfWrite _ => true
  | .hmfWordTake _ => true
  | .evfRead _ => true
  | .bmcBlockRead _ => true
  | .tapInstruction ins => insOk ins
  | .recT0Reached => true
  | .recQuiesceTimeout => true
  | .recSpillWrite _ _ => true
  | .replayCycle _ _ => true
  | .farLinkStateChange _ _ rate width => rateOk rate && widthOk width
  | .widthFailed port => portOk port
  | .refreshRateChange _ mult => multOk mult
  | .continuousHealthTestFail _ => true

end Sys2Proof
end

