-- ==== Sys2Proof/Machine/Codes.lean ====
section
/-! DEFINITION. Bits and bytes, the CRC-64 of R166, SHA-384 of FIPS 180-4 (R7, R265), the Reed-Solomon codes of R65 and R69,
and the hashes of R22 and R57. -/
namespace Sys2Proof.Machine

/-- Bits [hi:lo] of a word (R6). -/
def bits {n : Nat} (x : BitVec n) (hi lo : Nat) : BitVec (hi - lo + 1) := x.extractLsb' lo (hi - lo + 1)
/-- Bits [hi:lo] as a number. -/
def nbits {n : Nat} (x : BitVec n) (hi lo : Nat) : Nat := (x.toNat >>> lo) % 2 ^ (hi - lo + 1)
/-- Bit i of a word. -/
def bit {n : Nat} (x : BitVec n) (i : Nat) : Bool := x.getLsbD i
/-- The word with bits [lo+w-1:lo] replaced by `v`. -/
def putBits {n : Nat} (x : BitVec n) (lo w : Nat) (v : Nat) : BitVec n :=
  (x &&& ~~~(BitVec.ofNat n ((2 ^ w - 1) <<< lo))) ||| BitVec.ofNat n ((v % 2 ^ w) <<< lo)
/-- A Boolean as a number. -/
def b2n (b : Bool) : Nat := if b then 1 else 0

/-- `k` bytes of a number, byte 0 first (R6). -/
def leBytes : Nat → Nat → List Byte
  | 0, _ => []
  | k + 1, v => BitVec.ofNat 8 v :: leBytes k (v / 256)
/-- The number whose little-endian bytes are given (R6). -/
def leNat (l : List Byte) : Nat := l.foldr (fun b a => b.toNat + 256 * a) 0
/-- The number whose big-endian bytes are given (R7). -/
def beNat (l : List Byte) : Nat := l.foldl (fun a b => 256 * a + b.toNat) 0
/-- `k` bytes of a number, most significant first (R7). -/
def beBytes (k v : Nat) : List Byte := (leBytes k v).reverse
/-- Bytes [a, a+n) of a byte list, zeros beyond its end. -/
def slice0 (l : List Byte) (a n : Nat) : List Byte := ((l.drop a).take n) ++ List.replicate (n - ((l.drop a).take n).length) 0
/-- `n` bytes at `a` as a little-endian number. -/
def leAt (l : List Byte) (a n : Nat) : Nat := leNat ((l.drop a).take n)
/-- The byte list with `v` written over it from byte `a`. -/
def overwrite (l : List Byte) (a : Nat) (v : List Byte) : List Byte := l.take a ++ v ++ l.drop (a + v.length)

/-- One byte through the CRC register, most significant bit first (R166). -/
def crcByte (r : BitVec 64) (b : Byte) : BitVec 64 :=
  (List.range 8).foldl (fun r _ => if r.getLsbD 63 then (r <<< 1) ^^^ 0x42F0E1EBA9EA3693 else r <<< 1)
    (r ^^^ ((b.setWidth 64) <<< 56))
/-- The CRC-64 of R166 over bytes in ascending order. -/
def crc64 (l : List Byte) : BitVec 64 := ~~~(l.foldl crcByte (BitVec.allOnes 64))

/-- The round constants of SHA-384 (FIPS 180-4). -/
def shaK : List (BitVec 64) :=
  [0x428A2F98D728AE22, 0x7137449123EF65CD, 0xB5C0FBCFEC4D3B2F, 0xE9B5DBA58189DBBC, 0x3956C25BF348B538, 0x59F111F1B605D019, 0x923F82A4AF194F9B, 0xAB1C5ED5DA6D8118, 0xD807AA98A3030242, 0x12835B0145706FBE] ++
  [0x243185BE4EE4B28C, 0x550C7DC3D5FFB4E2, 0x72BE5D74F27B896F, 0x80DEB1FE3B1696B1, 0x9BDC06A725C71235, 0xC19BF174CF692694, 0xE49B69C19EF14AD2, 0xEFBE4786384F25E3, 0x0FC19DC68B8CD5B5, 0x240CA1CC77AC9C65] ++
  [0x2DE92C6F592B0275, 0x4A7484AA6EA6E483, 0x5CB0A9DCBD41FBD4, 0x76F988DA831153B5, 0x983E5152EE66DFAB, 0xA831C66D2DB43210, 0xB00327C898FB213F, 0xBF597FC7BEEF0EE4, 0xC6E00BF33DA88FC2, 0xD5A79147930AA725] ++
  [0x06CA6351E003826F, 0x142929670A0E6E70, 0x27B70A8546D22FFC, 0x2E1B21385C26C926, 0x4D2C6DFC5AC42AED, 0x53380D139D95B3DF, 0x650A73548BAF63DE, 0x766A0ABB3C77B2A8, 0x81C2C92E47EDAEE6, 0x92722C851482353B] ++
  [0xA2BFE8A14CF10364, 0xA81A664BBC423001, 0xC24B8B70D0F89791, 0xC76C51A30654BE30, 0xD192E819D6EF5218, 0xD69906245565A910, 0xF40E35855771202A, 0x106AA07032BBD1B8, 0x19A4C116B8D2D0C8, 0x1E376C085141AB53] ++
  [0x2748774CDF8EEB99, 0x34B0BCB5E19B48A8, 0x391C0CB3C5C95A63, 0x4ED8AA4AE3418ACB, 0x5B9CCA4F7763E373, 0x682E6FF3D6B2B8A3, 0x748F82EE5DEFB2FC, 0x78A5636F43172F60, 0x84C87814A1F0AB72, 0x8CC702081A6439EC] ++
  [0x90BEFFFA23631E28, 0xA4506CEBDE82BDE9, 0xBEF9A3F7B2C67915, 0xC67178F2E372532B, 0xCA273ECEEA26619C, 0xD186B8C721C0C207, 0xEADA7DD6CDE0EB1E, 0xF57D4F7FEE6ED178, 0x06F067AA72176FBA, 0x0A637DC5A2C898A6] ++
  [0x113F9804BEF90DAE, 0x1B710B35131C471B, 0x28DB77F523047D84, 0x32CAAB7B40C72493, 0x3C9EBE0A15C9BEBC, 0x431D67C49C100D4C, 0x4CC5D4BECB3E42B6, 0x597F299CFC657E2A, 0x5FCB6FAB3AD6FAEC, 0x6C44198C4A475817]
/-- The initial hash value of SHA-384 (FIPS 180-4). -/
def shaIV : List (BitVec 64) := [0xCBBB9D5DC1059ED8, 0x629A292A367CD507, 0x9159015A3070DD17, 0x152FECD8F70E5939, 0x67332667FFC00B31, 0x8EB44A8768581511, 0xDB0C2E0D64F98FA7, 0x47B5481DBEFA4FA4]
/-- The message schedule: 16 words extended to 80, newest first. -/
def shaSched : Nat → List (BitVec 64) → List (BitVec 64)
  | 0, w => w
  | k + 1, w =>
    let a := w.getD 1 0
    let b := w.getD 14 0
    shaSched k (((a.rotateRight 19 ^^^ a.rotateRight 61 ^^^ (a >>> 6)) + w.getD 6 0 +
      (b.rotateRight 1 ^^^ b.rotateRight 8 ^^^ (b >>> 7)) + w.getD 15 0) :: w)
/-- One round on the eight working variables. -/
def shaRound (v : List (BitVec 64)) (kw : BitVec 64 × BitVec 64) : List (BitVec 64) :=
  match v with
  | [a, b, c, d, e, f, g, h] =>
    let t1 := h + (e.rotateRight 14 ^^^ e.rotateRight 18 ^^^ e.rotateRight 41) + ((e &&& f) ^^^ (~~~e &&& g)) + kw.1 + kw.2
    let t2 := (a.rotateRight 28 ^^^ a.rotateRight 34 ^^^ a.rotateRight 39) + ((a &&& b) ^^^ (a &&& c) ^^^ (b &&& c))
    [t1 + t2, a, b, c, d + t1, e, f, g]
  | _ => v
/-- Cut bytes into big-endian 64-bit words. -/
def beWords : Nat → List Byte → List (BitVec 64)
  | 0, _ => []
  | k + 1, l => BitVec.ofNat 64 (beNat (l.take 8)) :: beWords k (l.drop 8)
/-- The compression function on one 128-byte block (R265). -/
def shaBlock (h : List (BitVec 64)) (block : List Byte) : List (BitVec 64) :=
  let w := (shaSched 64 (beWords 16 block).reverse).reverse
  (h.zip ((shaK.zip w).foldl shaRound h)).map (fun p => p.1 + p.2)
/-- Compress consecutive blocks. -/
def shaBlocks : Nat → List (BitVec 64) → List Byte → List (BitVec 64)
  | 0, h, _ => h
  | k + 1, h, l => shaBlocks k (shaBlock h (l.take 128)) (l.drop 128)
/-- The digest a running state stands for: its first six words, big-endian (R7). -/
def shaOut (h : List (BitVec 64)) : List Byte := ((h.take 6).map (fun w => beBytes 8 w.toNat)).flatten
/-- Finish a running state that has absorbed `m` whole blocks with one padding block (R302). -/
def shaFinish (h : List (BitVec 64)) (m : Nat) : List Byte :=
  shaOut (shaBlock h (0x80 :: List.replicate 111 0 ++ beBytes 16 (m * 1024)))
/-- SHA-384 of a byte string (FIPS 180-4). -/
def sha384 (l : List Byte) : List Byte :=
  let z := (239 - l.length % 128) % 128
  let p := l ++ 0x80 :: List.replicate z 0 ++ beBytes 16 (l.length * 8)
  shaOut (shaBlocks (p.length / 128) shaIV p)
/-- SHA-384 as a word, byte 0 in bits [7:0]. -/
def sha384w (l : List Byte) : BitVec 384 := BitVec.ofNat 384 (leNat (sha384 l))

/-- A symbol of GF(2^16). -/
abbrev Gf := BitVec 16
/-- Multiplication by α modulo x^16 + x^12 + x^3 + x + 1 (R65). -/
def gfX (a : Gf) : Gf := if a.getLsbD 15 then (a <<< 1) ^^^ 0x100B else a <<< 1
/-- Multiplication in GF(2^16) (R65). -/
def gfMul (a b : Gf) : Gf :=
  ((List.range 16).foldl (fun (p : Gf × Gf) i => (if b.getLsbD i then p.1 ^^^ p.2 else p.1, gfX p.2)) (0, a)).1
/-- Powers in GF(2^16). -/
def gfPow (a : Gf) : Nat → Gf
  | 0 => 1
  | k + 1 => gfMul a (gfPow a k)
/-- The inverse in GF(2^16), as the power 2^16 − 2 by 15 squarings. -/
def gfInv (a : Gf) : Gf :=
  ((List.range 15).foldl (fun (p : Gf × Gf) _ => let s := gfMul p.2 p.2; (gfMul p.1 s, s)) (1, a)).1
/-- α^k (R65). -/
def alpha (k : Nat) : Gf := gfPow 2 k
/-- Value of a polynomial, lowest coefficient first. -/
def gfEval (p : List Gf) (x : Gf) : Gf := p.foldr (fun c a => c ^^^ gfMul x a) 0
/-- Value of a polynomial, highest coefficient first: a codeword at a root. -/
def gfHorner (p : List Gf) (x : Gf) : Gf := p.foldl (fun a c => gfMul a x ^^^ c) 0
/-- The generator (x + 1)(x + α)…(x + α^(k−1)), highest coefficient first, without the leading 1 (R65, R69). -/
def rsGen (k : Nat) : List Gf :=
  ((List.range k).foldl (fun (g : List Gf) i =>
    List.zipWith (fun (a b : Gf) => a ^^^ gfMul b (alpha i)) (g ++ [0]) (0 :: g)) [1]).drop 1
/-- Remainder of message · x^k by the generator: the check symbols, highest first (R65, R69). -/
def rsCheck (k : Nat) (m : List Gf) : List Gf :=
  m.foldl (fun (r : List Gf) d => let q := d ^^^ r.headD 0
    List.zipWith (fun (a b : Gf) => a ^^^ gfMul q b) (r.drop 1 ++ [0]) (rsGen k)) (List.replicate k 0)
/-- Syndromes of a received word: its values at α^0 … α^(k−1). -/
def rsSyn (k : Nat) (c : List Gf) : List Gf := (List.range k).map (fun i => gfHorner c (alpha i))
/-- One step of the Berlekamp-Massey iteration on (locator, previous locator, length, shift, last discrepancy). -/
def bmStep (syn : List Gf) (s : List Gf × List Gf × Nat × Nat × Gf) (n : Nat) : List Gf × List Gf × Nat × Nat × Gf :=
  let (c, b, l, m, bb) := s
  let d := (List.range (l + 1)).foldl (fun a i => a ^^^ gfMul (c.getD i 0) (syn.getD (n - i) 0)) 0
  if d = 0 then (c, b, l, m + 1, bb)
  else
    let q := gfMul d (gfInv bb)
    let sh := List.replicate m 0 ++ b.map (gfMul q)
    let c' := (List.range (max c.length sh.length)).map (fun i => c.getD i 0 ^^^ sh.getD i 0)
    if 2 * l ≤ n then (c', c, n + 1 - l, 1, d) else (c', b, l, m + 1, bb)
/-- Bounded-distance decoding: the word corrected and the number of symbols corrected, or none if the pattern lies beyond the code (R67, R69). -/
def rsDecode (k : Nat) (c : List Gf) : Option (List Gf × Nat) :=
  let syn := rsSyn k c
  if syn.all (· = 0) then some (c, 0)
  else
    let (lam, _, l, _, _) := (List.range k).foldl (bmStep syn) ([1], [1], 0, 1, 1)
    let n := c.length
    let pos := (List.range n).filter (fun p => gfEval lam (gfInv (alpha p)) = 0)
    if l > k / 2 || pos.length ≠ l then none
    else
      let om := (List.range k).map (fun i => (List.range (i + 1)).foldl (fun a j => a ^^^ gfMul (lam.getD j 0) (syn.getD (i - j) 0)) 0)
      let fix := pos.map (fun p =>
        let x := alpha p
        let xi := gfInv x
        let dl := (List.range (lam.length)).foldl (fun a j => if j % 2 = 1 then a ^^^ gfMul (lam.getD j 0) (gfPow xi (j - 1)) else a) 0
        (n - 1 - p, gfMul x (gfMul (gfEval om xi) (gfInv dl))))
      let c' := fix.foldl (fun w e => w.set e.1 (w.getD e.1 0 ^^^ e.2)) c
      if (rsSyn k c').all (· = 0) then some (c', l) else none

/-- The symbols of a word, symbol i from bits [16i+15:16i] (R65, R69). -/
def symbols {n : Nat} (k : Nat) (x : BitVec n) : List Gf := (List.range k).map (fun i => BitVec.ofNat 16 (x.toNat >>> (16 * i)))
/-- The word whose symbols are given. -/
def ofSymbols (n : Nat) (l : List Gf) : BitVec n := BitVec.ofNat n (l.foldr (fun s a => s.toNat + 65536 * a) 0)
/-- Symbols with an error pattern XORed in. -/
def hurt (e : ErrPat) (l : List Gf) : List Gf := e.foldl (fun w p => w.set p.1 (w.getD p.1 0 ^^^ p.2)) l

/-- The check entry of a line with its tag entry: c0 to c3 (R65). -/
def lineCheck (d : Line) (te : BitVec 32) : BitVec 64 := ofSymbols 64 (rsCheck 4 (symbols 64 d ++ symbols 2 te))
/-- Decode a line read with its tag entry and check entry under an error pattern over the 70 symbols (R67):
the line and the number of symbols corrected. -/
def lineDecode (d : Line) (te : BitVec 32) (ck : BitVec 64) (e : ErrPat) : Option (Line × Nat) :=
  match rsDecode 4 (hurt e (symbols 64 d ++ symbols 2 te ++ symbols 4 ck)) with
  | some (c, n) => some (ofSymbols 1024 (c.take 64), n)
  | none => none
/-- A tag block with correct TB_CHECK over its first 112 bytes (R69). -/
def tbSeal (b : TagBlock) : TagBlock :=
  let inf := symbols 56 b
  ofSymbols 1024 (inf ++ rsCheck 8 inf)
/-- Decode a tag block under an error pattern over its 64 symbols (R69). -/
def tbDecode (b : TagBlock) (e : ErrPat) : Option (TagBlock × Nat) :=
  match rsDecode 8 (hurt e (symbols 64 b)) with
  | some (c, n) => some (ofSymbols 1024 c, n)
  | none => none

/-- XOR of the bits of `x` at `i`, `i+3`, … (R22). -/
def xor3 (x : LineNo) (i : Nat) : Bool := ((List.range 14).map (fun k => x.getLsbD (i + 3 * k))).foldl xor false
/-- The home slice of a line (R22). -/
def homeSlice (l : LineNo) : Nat := 4 * b2n (xor3 l 2) + 2 * b2n (xor3 l 1) + b2n (xor3 l 0)
/-- The set number of a line in a population of set-number width `k` (R57). -/
def setNo (k : Nat) (l : LineNo) : Nat :=
  homeSlice l + 8 * (((l.toNat / 8) % 2 ^ (k - 3)) ^^^ (l.toNat / 2 ^ k))
/-- The tag of a line (R57). -/
def tagOf (l : LineNo) : BitVec 18 := bits l 39 22
/-- The line a set and a tag stand for in a population of width `k` (R57). -/
def lineOf (k set : Nat) (tag : BitVec 18) : LineNo :=
  let up := (tag.toNat * 2 ^ 22) / 2 ^ k
  let mid := (set / 8) ^^^ (up % 2 ^ (k - 3))
  let base := BitVec.ofNat 40 (up * 2 ^ k + mid * 8)
  base ||| BitVec.ofNat 40 (homeSlice base ^^^ (set % 8))

end Sys2Proof.Machine
end

