-- ==== Sys2Proof/Config.lean ====
section
/-! DEFINITION. What an implementation fixes and what the spec leaves open. Every constant here is opaque:
nothing in Lean can evaluate it, so a theorem holds for every value of it. -/
namespace Sys2Proof.Config

/-- The bytes of a drawn DRBG value (R319 challenge). Applied to the free counter. DESIGN CHOICE (log 4): the spec gives no value. -/
opaque drbg : Nat → BitVec 384
/-- A generated private key, wrapped (R312). Applied to the free counter (log 4). -/
opaque genWrapped : Nat → BitVec 512
/-- The number that a wrapped private key stands for, under the device secret in OTP (R312) (log 4). -/
opaque privateKey : BitVec 512 → Nat
/-- The nonce that a signature draws from the DRBG (R303). Applied to the free counter (log 4). -/
opaque nonce : Nat → BitVec 384
/-- The contents of a DRAM slot before the first INVALIDATE_ALL has written it (R91) (log 5). -/
opaque dramPowerOn : Nat → BitVec 1024
/-- The check entry of a DRAM way that nothing has written (R62) (log 5). -/
opaque dramCheck : Nat → BitVec 64
/-- The bytes of a line whose data is lost, which goes on as poison: no rule gives them. Applied to the number of the transaction or request,
each drawn from the counter `nextId` (log 71). -/
opaque lostLine : Nat → BitVec 1024
/-- An instruction word of the boot ROM's default policy image; R156 gives its properties only (log 6). -/
opaque defaultPolicyCode : Nat → BitVec 64
/-- The entry addresses of the default image for INIT, HIT, FILL and VICTIM (R156) (log 6). -/
opaque defaultPolicyEntry : Nat → BitVec 16
/-- The data words of the default image (R156) (log 6). -/
opaque defaultPolicyData : Nat → BitVec 40
/-- The number of code words of the default image, at most 2,048 (R156) (log 6). -/
opaque defaultPolicyLen : Nat → Nat
/-- How long the default image's walk takes for a result (R156): its remainder by 7 is what it needs beyond its shortest path (log 6). -/
opaque defaultPolicyClocks : Nat → Nat
/-- The firmware version and ROM version a device holds (R421) (log 7). -/
opaque bootRomVersion : BitVec 32
/-- The vendor public key that management firmware is verified under (R461) (log 7). -/
opaque vendorKey : BitVec 768
/-- A value the spec leaves open where a rule of log 9 names it. -/
opaque freeWord : Nat → BitVec 64

/-- The write queue of a channel is more than 75 % full when an EvictOffer reaches it (R88). Applied to the channel and the free counter
(DESIGN CHOICE, log 93). -/
opaque writeQueueFull : Nat → Nat → Bool
/-- The TT index of the n-th open transaction of a slice, as trace descriptors carry it (R487) (log 38). -/
opaque ttIndex : Nat → BitVec 12
/-- The AUX sub-code of a CTRL descriptor for the opcode of what causes it (R487) (log 38). -/
opaque ctrlSub : BitVec 8 → BitVec 8
/-- The descriptor of a TOUCH record, its LINE field aside: record kind, ON_CHIP (R486) (log 38). -/
opaque touchDesc : Nat → Bool → BitVec 128

/-- The crossbar holds an output of a slice for a clock (R484): whether it does is a matter of the traffic on it. Applied to the slice, the output's
descriptor and the core cycle since the start point (DESIGN CHOICE, log 26). -/
opaque crossbarHolds : Nat → BitVec 128 → Nat → Bool

end Sys2Proof.Config
end

