-- ==== Sys2Proof/Machine/NMap.lean ====
section
/-! DEFINITION. Canonical sparse maps over natural keys: the form in which every addressed store of the hub is held.
Keys rise strictly and no entry equals what an unlisted key reads as, so equal stores are equal data. -/
namespace Sys2Proof.Machine

/-- A total map from Nat held as its entries that differ from a default. -/
abbrev NMap (β : Type) := List (Nat × β)

/-- What key `k` reads as: its entry, or the default `d`. -/
def NMap.get {β : Type} (d : β) : List (Nat × β) → Nat → β
  | [], _ => d
  | (j, v) :: m, k => if j = k then v else NMap.get d m k

/-- The map without an entry for `k`. -/
def NMap.erase {β : Type} (m : List (Nat × β)) (k : Nat) : List (Nat × β) :=
  m.filter (fun e => e.1 != k)

/-- Insert an entry before the first larger key. -/
def NMap.ins {β : Type} (k : Nat) (v : β) : List (Nat × β) → List (Nat × β)
  | [] => [(k, v)]
  | (j, w) :: m => if k < j then (k, v) :: (j, w) :: m else (j, w) :: NMap.ins k v m

/-- Write `v` at `k`; writing the default removes the entry. -/
def NMap.set {β : Type} [DecidableEq β] (d : β) (m : List (Nat × β)) (k : Nat) (v : β) : List (Nat × β) :=
  if v = d then NMap.erase m k else NMap.ins k v (NMap.erase m k)

/-- Change the value at `k` by `f`. -/
def NMap.upd {β : Type} [DecidableEq β] (d : β) (m : List (Nat × β)) (k : Nat) (f : β → β) : List (Nat × β) :=
  NMap.set d m k (f (NMap.get d m k))

/-- The canonical form: keys strictly rising, no default listed. -/
def NMap.wf {β : Type} [DecidableEq β] (d : β) : List (Nat × β) → Bool
  | [] => true
  | (j, v) :: m => decide (v ≠ d) && m.all (fun e => decide (j < e.1)) && NMap.wf d m

end Sys2Proof.Machine
end

