-- ==== Sys2Proof/Machine/State.lean ====
section
/-! DEFINITION. The state of the hub as plain data. Every field's docstring says what it is, its width, the rule and file
that name it, and its value after reset. Rules are those of spec/; a number in brackets is a row of the assumption log. -/
namespace Sys2Proof.Machine

/-- Faults: no command of this block faults. -/
inductive Fault where
  /-- Raised by no command; it stands so that the type is inhabited. Safe. -/
  | none
deriving DecidableEq, Repr

/-- Refusals: no command of this block is refused once it has its meaning. -/
inductive Refusal where
  /-- An arm of the dispatch that has no meaning yet. Safe: the model stops. -/
  | notModelled (mnemonic : String)
deriving DecidableEq, Repr

/-- A field stored in triplicate (R363, R433). -/
structure Trip (n : Nat) where
  a : BitVec n
  b : BitVec n
  c : BitVec n
deriving DecidableEq, Repr

/-- A message standing in a receive buffer (R168, R187); `ovr`: it came without enough credits (R180). -/
structure Msg where
  h : Slot
  mask : Slot
  data : Line
  ovr : Bool
deriving DecidableEq, Repr

/-- A port configuration (R205). -/
structure PortCfg where
  enable : Bool
  maxRate : BitVec 2
  peerId : BitVec 18
  peerSize : BitVec 18
  peerHub : BitVec 2
deriving DecidableEq, Repr

/-- An open fence (R251): its tag and kind, the covered writes still short of their point, the covered writes lost and the
region of the first of them, and the upward fences it waits on, by port and TAG (R237). -/
structure Fence where
  tag : BitVec 12
  kind : BitVec 2
  ids : List Nat
  lost : Nat
  firstReg : Nat
  ups : List (Nat × BitVec 12)
  /-- ports towards home hubs it is still to be sent to, once its own part is complete -/
  toSend : List Nat
  upLost : Bool
  /-- writes with an identifier below it were taken before the fence -/
  before_ : Nat
  /-- WbData with an identifier below it was placed ahead of the fence's header in the message stream -/
  beforeWb : Nat
deriving DecidableEq, Repr

/-- A lower half of a split pair whose upper half has not been taken (R183, R259): SPLIT_ID, line, class and stream, and the offset where the
stream tracks it. -/
structure Half where
  id : BitVec 6
  line : LineNo
  tc : BitVec 3
  stream : Option (BitVec 18)
  off : Option (BitVec 18 × Nat)
deriving DecidableEq, Repr

/-- A stride detector (R119). -/
structure Det where
  valid : Bool
  last : LineNo
  stride : Int
  conf : BitVec 2
  front : LineNo
  used : Nat
deriving DecidableEq, Repr

/-- An eviction of a line towards its home hub that has not been sent (R189, R236). -/
structure UpEvict where
  /-- UP of a directory entry that has been removed; 0 while the directory still holds it -/
  up : Nat
  line : LineNo
  /-- dirty data and its poison -/
  dat : Option (Line × Bool)
deriving DecidableEq, Repr

/-- One agent port. -/
structure Port where
  /-- LINK_STATE 0-6; R207, 06; reset 0 -/
  link : BitVec 3
  /-- HOLD_REASON 0-6; R207, 06; reset 0 -/
  hold : BitVec 3
  /-- RATE; 2 bits; R207, 06; reset 0 (DESIGN CHOICE 3) -/
  rate : BitVec 2
  /-- WIDTH; 8 bits; R207, 06; reset 0 (DESIGN CHOICE 3) -/
  width : Byte
  /-- REVISION; 8 bits; R207, 06; reset 0 -/
  rev : Byte
  /-- configuration in use; R205, 06; reset disabled until the boot reads the flash record -/
  cfg : PortCfg
  /-- configuration stored by PORT_CONFIG for the next initialisation; R205, 06; reset as cfg -/
  cfgNext : PortCfg
  /-- NODE_ID received; 18 bits; R207, 06; reset 0 -/
  peerId : BitVec 18
  /-- NODE_SIZE received; 18 bits; R207, 06; reset 0 -/
  peerSize : BitVec 18
  /-- LInitParam received and accepted; 1 bit; R174, 06; reset 0 -/
  gotParam : Bool
  /-- REVISION of the peer's LInitAck; R174, R176, 06; reset none -/
  gotAck : Option Byte
  /-- next sequence number to send; 16 bits; R167, 06; reset 0 -/
  txSeq : BitVec 16
  /-- replay buffer, oldest first, at most 512 flits with their SEQ; R169, 06; reset empty -/
  replay : List (BitVec 16 × Flit)
  /-- SEQ a running replay started from, while it runs; R172, 06; reset none -/
  replayFrom : Option (BitVec 16)
  /-- replays of one flit without ACK progress; R173, 06; reset 0 -/
  noProg : Nat
  /-- expected sequence number E; 16 bits; R170, 06; reset 0 -/
  rxE : BitVec 16
  /-- receiver in retry; 1 bit; R170, 06; reset 0 -/
  inRetry : Bool
  /-- slots of a message not yet complete; R168, 06; reset empty -/
  asm : List Slot
  /-- DEVICE_TIME of the Recovery entries of the last second; R173, 06; reset empty -/
  recs : List Nat
  /-- PHY in Recovery; 1 bit; R173, 06; reset 0 -/
  inRec : Bool
  /-- CRC_ERRORS; 64 bits; R207, 06; reset 0 -/
  crcErrors : BitVec 64
  /-- REPLAYS; 64 bits; R207, 06; reset 0 -/
  replays : BitVec 64
  /-- RECOVERIES; 64 bits; R207, 06; reset 0 -/
  recoveries : BitVec 64
  /-- ACK_TIMEOUTS; 64 bits; R207, 06; reset 0 -/
  ackTimeouts : BitVec 64
  /-- credits held towards the peer per class REQ, SNP, RSP, DAT; slots; R178, 06; reset 0 -/
  txCr : NMap Nat
  /-- last cumulative credit-return count seen per class; 8 bits each; R178, 06; reset 0 -/
  crIn : NMap Nat
  /-- credits the peer holds towards the hub per class; slots; R178, R180, 06; reset 0 -/
  rxCr : NMap Nat
  /-- cumulative credit-return count sent per class; 8 bits each; R178, 06; reset 0 -/
  crOut : NMap Nat
  /-- slots returned that no flit has carried yet per class; R178, 06; reset 0 -/
  crOwe : NMap Nat
  /-- slots freed and not yet returned per class; R178, R282, 06, 09; reset 0 -/
  freed : NMap Nat
  /-- REQ receive buffer; R187, 06; reset empty -/
  rxReq : List Msg
  /-- DAT messages held back for want of a reserved line; R181, 06; reset empty -/
  rxDat : List Msg
  /-- messages waiting for the peer's credits, oldest first; R178, 06; reset empty -/
  txQ : List Msg
  /-- freeze record: offending header, kind, DEVICE_TIME, later violations; 32 bytes; R387, 13; reset 0 -/
  frzHdr : Slot
  /-- freeze record byte 16; R387, 13; reset 0 -/
  frzKind : Byte
  /-- freeze record DEVICE_TIME[55:0]; R387, 13; reset 0 -/
  frzTime : BitVec 56
  /-- freeze record count of later violations; 8 bits; R387, 13; reset 0 -/
  frzLater : Byte
  /-- open counts O[p][c] per class; R345, 12; reset 0 -/
  opn : NMap Nat
  /-- open fences, at most 64; R252, 08; reset empty -/
  fences : List Fence
  /-- writes of the port lost since its last initialisation: all, durable, device; R251, R254, 08; reset 0 -/
  lostAll : Nat
  /-- durable-class writes lost since initialisation; R254, 08; reset 0 -/
  lostDur : Nat
  /-- device writes lost since initialisation; R254, 08; reset 0 -/
  lostDev : Nat
  /-- region of the first lost write of each kind ORDER, DURABLE, DEVICE; R254, 08; reset 0 -/
  lostReg : NMap Nat
  /-- per port towards a home hub, fence kinds with a remote write since the last fence of the kind sent there; 3 bits; R237, 07; reset 0 -/
  remoteWr : NMap (BitVec 3)
  /-- open lower halves of split pairs: SPLIT_ID, line, stream and offset where tracked; R183, R259, 06, 08; reset empty -/
  splits : List Half
  /-- for each Fence in the REQ receive buffer, the first record identifier that stands behind it in the message stream; R251, 08; reset empty -/
  fenceAt : List Nat
  /-- durable WbData lost while it stood behind a Fence that still waits in the REQ receive buffer: record identifier and region; R251, R254, 08;
  reset empty -/
  lateWb : List (Nat × Nat)
  /-- 16 stride detectors; R119, 04; reset all invalid -/
  dets : NMap Det
  /-- use stamp of the detectors' LRU order; R119, 04; reset 0 -/
  detClk : Nat
  /-- queued stream candidates with the covering region, at most 32; R120, 04; reset empty -/
  cand : List (LineNo × Nat)
  /-- transmit tags in use on an uplink: next TAG; 12 bits; R234, 07; reset 0 -/
  upTag : BitVec 12
  /-- evictions sent towards a home hub whose Comp has not come: TAG and line; R189, R203, 06; reset empty -/
  upEv : List (BitVec 12 × LineNo)
  /-- evictions towards a home hub that have not been sent, in order; R189, R236, 06, 07; reset empty -/
  upQ : List UpEvict
  /-- link time since the last flit, in eighths of a nanosecond; R164, R167, 06; reset 0 -/
  flitT : Nat
  /-- TAGs of the Fences that are open towards a home hub; R203, R237, 06, 07; reset empty -/
  upFn : List (BitVec 12)
  /-- lines poisoned by the loss of the agent; R224, 07; reset 0 -/
  lostLines : Nat
  /-- loss declaration deferred by a drain; 1 bit; R333, 11; reset 0 -/
  lossDue : Bool
  /-- the purge walk of a loss is running; 1 bit; R224, 07; reset 0 -/
  purge : Bool
  /-- MARGIN_LOW; 1 bit; R507, 18; kept in the health page; reset 0 -/
  marginLow : Bool
  /-- TAGs of evictions answered at once are free; TAGs of open transactions; R183, R201, 06; reset empty -/
  tags : List (BitVec 12)
  /-- a refused lower half whose upper half is answered with FrozenAbort: SPLIT_ID and line; R259, 08; reset none -/
  lowGone : Option (BitVec 6 × LineNo)
  /-- TAGs of writes ended under R329 whose data may still arrive, with their classes; R202, R329, R359, 06, 11, 12; reset empty -/
  endedTags : List (BitVec 12 × BitVec 3)
  /-- rate code the next training may not exceed, 3: no bound; R507, 18; kept in the health page; reset 3 -/
  rateCap : BitVec 2
deriving DecidableEq, Repr

/-- A write accepted and not yet finished (R241): the points it has reached. -/
structure Wr where
  id : Nat
  port : Nat
  tag : BitVec 12
  line : LineNo
  region : Nat
  tc : BitVec 3
  op : Byte
  dur : Bool
  dev : Bool
  /-- to a line of a remote region: its points are those its home hub reports (R241) -/
  remote : Bool
  /-- point at which Comp is sent: 0 data received, 1 visible, 2 complete, 3 persisted (R246) -/
  ack : Nat
  /-- last point reached: 0 accepted, 1 visible, 2 complete, 3 persisted (R241) -/
  pt : Nat
  lost : Bool
  /-- of an agent before the port's last initialisation: no fence covers it (R251) -/
  old : Bool
  compSent : Bool
  /-- no Comp is due: WbData, SnpData, or the requester is lost (R225) -/
  silent : Bool
  stream : Option (BitVec 18)
  off : Nat
  tracked : Bool
  split : BitVec 2
  splitId : BitVec 6
  /-- upper half of a split pair: the offset of its lower half, where that is tracked (R272) -/
  low : Option Nat
  bytes : Nat
  take : BitVec 64
deriving DecidableEq, Repr

/-- A write-buffer line (R247). -/
structure WbLine where
  id : Nat
  line : LineNo
  data : Line
  mask : Slot
  psn : Bool
  /-- 0 REQ write, 1 WriteDev, 2 WbData, 3 SnpData to the hub, 4 EvictOffer -/
  kind : Nat
  port : Nat
  tc : BitVec 3
  region : Nat
  dur : Bool
  hasData : Bool
  visible : Bool
  /-- its data has gone on to the system cache or far memory (R249) -/
  gone : Bool
  /-- the system cache holds it; it stays until persisted (R247) -/
  cached : Bool
  /-- a later write that the system cache has taken holds its bytes (R243) -/
  under : Bool
  /-- a combining line not yet closed (R248) -/
  combining : Bool
  writes : List Nat
  txn : Option Nat
  /-- released to let a waiting write in: it takes no place in the buffer, and its writes wait for its far write (R247) -/
  released : Bool
deriving DecidableEq, Repr

/-- A victim-buffer line (R82). -/
structure VbLine where
  line : LineNo
  data : Line
  psn : Bool
  region : Nat
  /-- its data has come from the memory controller (R82) -/
  ready : Bool
deriving DecidableEq, Repr

/-- A side-buffer entry (R121-R124). -/
structure SbLine where
  line : LineNo
  data : Line
  age : Nat
  pinned : Bool
  order : Nat
deriving DecidableEq, Repr

/-- What a transaction is for (R74, R101, R212, R214). -/
inductive TK where
  | req
  | evict
  | dirEvict (forTxn : Nat)
  | recl
  | walk
  | nextLine
  | stream
deriving DecidableEq, Repr

/-- What an open transaction waits for. -/
inductive Ph where
  | start
  | setPark
  | dirWay
  | tagBlock
  /-- the tag block of a line that the side buffer has served (R122) -/
  | promote
  | snoops
  | lineRead
  | farRead
  | bitmap
  | ztFill
  | victim
  | vbBusy
  /-- the read of its dirty victim (R82) -/
  | vict
  | vbFull
  | noWay
  | wbLine
  | pull
  | mcWrite
  | farWrite
  | ack
  | stash
  | up
  | upPull
  | upHalf
  | device
  | ztWait
  | shut
deriving DecidableEq, Repr

/-- A transaction-table entry (R74, R348) or the handling of an eviction (R214). -/
structure Txn where
  id : Nat
  line : LineNo
  kind : TK
  port : Nat
  h : Slot
  ph : Ph
  region : Nat
  snoops : List (Nat × Byte)
  /-- grant awaiting CompAck: the port it went to -/
  grant : Option Nat
  pull : Bool
  wr : Option Nat
  wb : Option Nat
  dat : Option (Line × Bool)
  way : Option Nat
  ev : Option Nat
  /-- 0 demand, 1 prefetch, 2 offer, 3 promotion (R147) -/
  fillKind : Nat
  fwd : Bool
  noFill : Bool
  accepts : Nat
  reads : Nat
  reserved : Bool
  stashTo : Option Nat
  /-- its stash offer is open (R198) -/
  offer : Bool
  upTag : Option (BitVec 12)
  /-- SPLIT_ID of the pair it belongs to on the link towards the home hub (R234) -/
  upSplit : Option (BitVec 6)
  upState : BitVec 3
  queued : Bool
  /-- directory way reserved for the line, plus 1; 0: none -/
  step : Nat
  take : BitVec 64
  /-- a read that is counted in O of its pair (R345) -/
  counted : Bool
  /-- opcode of the grant the flow ends in (R194) -/
  gop : Nat
  /-- a far read of the line is outstanding -/
  far : Bool
  /-- the walk whose visit it is (R101) -/
  walk : Option Nat
  /-- PART and CLS of the allocation, as its way was reserved (R109, R112) -/
  part : Option (Nat × Nat)
  /-- zero lines of a granule still to be written (R51) -/
  left : Nat
  /-- the TT entry it holds, by its pool (R348): 0 none, 1 internal, 2 shared, 3 + 5p + c reserved for a pair -/
  ent : Nat
  /-- RD_MASK of the region when its request was accepted (R36) -/
  rdm : BitVec 12
  /-- its line goes in with D set: the read beneath its write failed (R368), or its fill holds bytes of buffered writes (R64) -/
  forceD : Bool
  /-- its transaction-table entry failed before it had its answers: what it grants is poison (R375) -/
  dead : Bool
deriving DecidableEq, Repr

/-- A queued or running sequencer event (R143). -/
structure SeqEv where
  id : Nat
  kind : BitVec 3
  port : BitVec 4
  part : BitVec 4
  write : Bool
  fillKind : BitVec 2
  cls : BitVec 2
  way : BitVec 4
  line : LineNo
  set : Nat
  /-- the partition's mask when the event was dispatched (R112) -/
  pmask : BitVec 14
  d : Nat
  txn : Option Nat
  late : Bool
deriving DecidableEq, Repr

/-- A register or predicate write that has not landed yet (R135, R136). -/
structure PendW where
  pred : Bool
  idx : BitVec 4
  val : SWord
  due : Nat
deriving DecidableEq, Repr

/-- One policy sequencer (R132, R133). -/
structure Seq where
  /-- g0-g15; 40 bits each; R132, 05; reset 0 (DESIGN CHOICE 3) -/
  g : NMap SWord
  /-- p0-p3; 1 bit each; R132, 05; reset 0 (DESIGN CHOICE 3) -/
  p : NMap Bool
  /-- instruction memory 2,048 x 64 bits; R132, 05; reset 0 until an image is loaded (DESIGN CHOICE 3) -/
  imem : NMap (BitVec 64)
  /-- data memory 8,192 x 40 bits; R132, 05; reset 0 until an image is loaded (DESIGN CHOICE 3) -/
  dmem : NMap SWord
  /-- program counter; 11 bits; R132, 05; reset 0 (DESIGN CHOICE 3) -/
  pc : BitVec 11
  /-- fetch buffer: the group held and its four words; R141, 05; reset empty -/
  fbuf : Option (BitVec 9 × List (BitVec 64))
  /-- branch target to take after the delay slot now issuing; R139, 05; reset none -/
  target : Option (BitVec 11)
  /-- the next instruction stands in a delay slot; 1 bit; R139, R140, 05; reset 0 -/
  slot : Bool
  /-- writes not yet landed; R135, R136, 05; reset empty -/
  pend : List PendW
  /-- issue clock of the next instruction; core clocks; R135, R146, 05; reset 0 -/
  clk : Nat
  /-- issue clock P of the last event's end; R146, 05; reset 0 -/
  lastEnd : Nat
  /-- issue clock of the instruction issued last; R146, 05; reset 0 -/
  lastIssue : Nat
  /-- the group of the program counter has been fetched and none of it issued since; 1 bit; R141, R152, 05; reset 0 -/
  fresh : Bool
  /-- instructions issued in the running event; R140, 05; reset 0 -/
  issued : Nat
  /-- the running event; R143, 05; reset none -/
  run : Option SeqEv
  /-- victim queue, at most 4; R144, 05; reset empty -/
  vq : List SeqEv
  /-- update queue, at most 32; R144, 05; reset empty -/
  uq : List SeqEv
  /-- fallback rotation pointer; 4 bits; R151, 05; reset 0 -/
  rot : BitVec 4
  /-- EMIT instructions of the running event; R143, 05; reset 0 -/
  emits : Nat
deriving DecidableEq, Repr

/-- An entry of a tag-block cache (R71, R72). -/
structure TbcEnt where
  valid : Bool
  block : TagBlock
  replDirty : Bool
  used : Nat
deriving DecidableEq, Repr

/-- A request that has been accepted at ingress and waits for its slice (R74, R75). -/
structure SliceIn where
  port : Nat
  h : Slot
  region : Nat
  stream : Option (BitVec 18)
  off : Nat
  tracked : Bool
  take : BitVec 64
  /-- write record made at acceptance (R241) -/
  wr : Option Nat
  /-- waits for a TT entry (R348) -/
  needTT : Bool
  /-- the TT entry that has passed to it, by its pool (R213, R348): 0 none, 1 internal, 2 shared, 3 + 5p + c reserved for a pair -/
  ent : Nat
  /-- a walk's line: the walk's command and the place it visits (R101, R213) -/
  walk : Option (Nat × Nat)
  /-- RD_MASK of the region when it was accepted (R36) -/
  rdm : BitVec 12
deriving DecidableEq, Repr

/-- What the hub itself does to a line that a transaction has open, in its place behind that transaction (R377, R389): the copies of a failed far
write, or the patrol's read of a way, which comes after the requests that were queued for the line before it. -/
inductive Job where
  | farFail (port : Nat) (fline line : LineNo)
  | patrol (set way : Nat) (line : LineNo) (e : ErrPat) (ahead : List SliceIn)
deriving DecidableEq, Repr

/-- A directory entry held unresolved while its candidates are recalled (R374). -/
structure DirBad where
  dset : Nat
  way : Nat
  left : List LineNo
  bits : Nat
  returned : Nat
deriving DecidableEq, Repr

/-- One home slice. -/
structure Slice where
  /-- accepted REQ messages waiting for arbitration; R75, 03; reset empty -/
  inq : List SliceIn
  /-- port after the one served last, for the round-robin; R75, 03; reset 0 -/
  rr : Nat
  /-- line-conflict queue, at most 2,048, in order; R213, 07; reset empty -/
  lineQ : List SliceIn
  /-- set-conflict queue: transactions parked, in order; R216, 07; reset empty -/
  setQ : List Nat
  /-- open transactions; R74, R348, 03, 12; reset empty -/
  tt : List Txn
  /-- directory rotation pointer; 4 bits; R212, 07; reset 0 -/
  dirPtr : BitVec 4
  /-- directory: 49,152 sets x 16 ways x 64 bits, key set x 16 + way; R211, 07; reset 0 -/
  dir : NMap (BitVec 64)
  /-- unresolved directory entries under recall; R374, 13; reset empty -/
  dirBad : List DirBad
  /-- parity errors that stand in directory sets and that no read has met yet; R362, R373, 13; reset empty -/
  dirErr : NMap DirFault
  /-- tag-block cache by set number: 4,096 sets x 16 ways; R71, 03; reset empty -/
  tbc : NMap TbcEnt
  /-- use stamp of the tag-block cache's LRU order; R71, 03; reset 0 -/
  tbcClk : Nat
  /-- sets whose tag block is held as lost; R371, 13; reset empty -/
  lostSets : List Nat
  /-- DEVICE_TIME at which each of them was found lost; 64 bits; R371, 13; reset empty -/
  lostAt : NMap (BitVec 64)
  /-- accesses of the hub's own that wait for the transaction on their line, in order; R377, R389, 13; reset empty -/
  jobs : List Job
  /-- write buffer, at most 4,096 lines; R247, 08; reset empty -/
  wb : List WbLine
  /-- writes waiting for a shared line, in order; R247, 08; reset empty -/
  wbWait : List Nat
  /-- victim buffer, at most 512 lines; R82, 03; reset empty -/
  vb : List VbLine
  /-- allocations waiting for a victim-buffer entry, in order; R84, 03; reset empty -/
  vbWait : List Nat
  /-- prefetch side buffer, at most 2,048 lines; R121, 04; reset empty -/
  sb : List SbLine
  /-- next-line candidates on their way: line, region, port, class; R116, 04; reset empty -/
  nl : List (LineNo × Nat × Nat × BitVec 3)
  /-- core clocks since a walk's line entered the slice, no more than 8; R75, 03; reset 8 -/
  walkClk : Nat
  /-- purge and back-invalidation walk: next directory set; R224, 07; reset none -/
  dirWalk : Option Nat
  /-- sequencer; R132, 05 -/
  seq : Seq
deriving DecidableEq, Repr

/-- What a memory-controller request is for. -/
inductive McK where
  | tag
  | line (way : Nat)
  /-- a dirty victim on its way to the victim buffer (R82) -/
  | vict (line : LineNo) (way : Nat)
  | accept
deriving DecidableEq, Repr

/-- A request at a memory controller (R76, R77): of a read, the slot as it stood when it was issued, and of a line read its tag entry and check entry. -/
structure McReq where
  id : Nat
  sl : Nat
  kind : McK
  set : Nat
  txn : Nat
  raw : Line
  te : BitVec 32
  chk : BitVec 64
deriving DecidableEq, Repr

/-- What a far request is for, and so what its completion does. -/
inductive FP where
  | fill (txn : Nat)
  | merge (wb : Nat)
  | bitmapRead (txn : Nat)
  | ztZero (txn : Nat)
  | ztBit (txn : Nat)
  | ztInit
  | wbWrite (wb : Nat)
  | clean (set way : Nat)
  | victim (sl : Nat)
  | poison
  | devRead (txn : Nat)
  | devWrite (txn : Nat)
  | headTable
  | mirror (index : Nat)
  /-- one of the two lines of a seal-log slot write (R306) -/
  | slot (index : Nat)
  /-- a seal engine's read (R366) -/
  | hash
deriving DecidableEq, Repr

/-- A CXL.mem request (R21, R32, R210, R220). The data, mask and poison of a read are those of writes of its line that have been done while it
is outstanding (R243). -/
structure FarReq where
  id : Nat
  port : Nat
  fline : LineNo
  line : LineNo
  write : Bool
  data : Line
  mask : Slot
  psn : Bool
  purp : FP
  /-- its port was DEAD when it was issued, so it fails at issue (R255, R368) -/
  atIssue : Bool
  /-- core clock of its issue (R479) -/
  cyc : Nat
deriving DecidableEq, Repr

/-- One far port. -/
structure FarPort where
  /-- enabled in the configuration record; 1 bit; R469, 16; reset 0 until the record is read -/
  enable : Bool
  /-- link up; 1 bit; R353, 12; reset 0 -/
  up : Bool
  /-- trained rate code; R353, 12; reset 0 (DESIGN CHOICE 3) -/
  rate : BitVec 2
  /-- trained width; R353, 12; reset 0 (DESIGN CHOICE 3) -/
  width : Byte
  /-- device enumerated and Memory_Active; 1 bit; R455, 16; reset 0 -/
  active : Bool
  /-- DEAD; 1 bit; R255, 08; reset 0 -/
  dead : Bool
  /-- capacity in lines reported at enumeration; 40 bits; R31, 02; reset 0 -/
  cap : BitVec 40
  /-- device has a GPF DVSEC; 1 bit; R330, 11; reset 0 -/
  gpf : Bool
  /-- GPF Phase 2 Duration; 32 bits; R330, 11; reset 0 -/
  gpfDur : BitVec 32
  /-- GPF Phase 2 Power; 32 bits; R330, 11; reset 0 -/
  gpfPower : BitVec 32
  /-- READ_PLAN in MB/s; R353, 12; reset 26,000 -/
  readPlan : BitVec 32
  /-- WRITE_PLAN in MB/s; R353, 12; reset 26,000 -/
  writePlan : BitVec 32
  /-- rate code the next training may not exceed, 3: no bound; R507, 18; kept in the health page; reset 3 -/
  rateCap : BitVec 2
deriving DecidableEq, Repr

/-- Line status of a tracked offset (R269-R273); `got`: it has received an accepted write; `open`: accepted writes not yet persisted;
`hurt`: a write to it was lost. -/
structure OffSt where
  done : Bool
  pers : Bool
  split : Bool
  bad : Bool
  cause : BitVec 4
  got : Bool
  opn : Nat
  hurt : Bool
deriving DecidableEq, Repr

/-- A record, certificate or manifest on its way into the log (R299, R306). -/
structure LogItem where
  idx : Nat
  /-- stream, or 0xFFFF_FFFE certificate, 0xFFFF_FFFF manifest -/
  stream : BitVec 32
  bytes : BitVec 2048
  wantSig : Bool
  placed : Bool
  /-- its slot write failed at issue or timed out: it goes out again once the far port is no longer DEAD -/
  waitDead : Bool
  /-- its slot write has had an error completion -/
  lost : Bool
  /-- earlier indices whose slot write was lost (R306) -/
  old : List Nat
  /-- it belongs to its stream's present chain -/
  own : Bool
  /-- the wrapped seal key its record was formed under, which signs it (R313) -/
  key : BitVec 512
deriving DecidableEq, Repr

/-- A stream context (R264) with the seal state of its chain (R297-R304). -/
structure Ctx where
  /-- STATE; 2 bits; R264, 09; reset 0 CLOSED -/
  state : BitVec 2
  /-- STREAM_ID as held in the context; 18 bits; R264, 09; reset 0 -/
  sid : BitVec 18
  /-- REGION; 10 bits; R264, 09; reset 0 -/
  region : BitVec 10
  /-- WR_MASK; 12 bits; R264, 09; reset 0 -/
  wrMask : BitVec 12
  /-- GAP_PEND; 1 bit; R264, 09; reset 0 -/
  gapPend : Bool
  /-- SEAL_N; 5 bits; R264, 09; reset 0 -/
  sealN : BitVec 5
  /-- SIGN_K; 4 bits; R264, 09; reset 0 -/
  signK : BitVec 4
  /-- RING_BASE in units of 32 lines; 35 bits; R264, 09; reset 0 -/
  ringBase : BitVec 35
  /-- RING_LEN in units of 32 lines; 29 bits; R264, 09; reset 0 -/
  ringLen : BitVec 29
  /-- SEAL_SEQ; 32 bits; R264, 09; reset 0 -/
  sealSeq : BitVec 32
  /-- WATERMARK; 48 bits; R264, 09; reset 0 -/
  wm : Nat
  /-- HASHED; 48 bits; R264, 09; reset 0 -/
  hashed : Nat
  /-- SHA_H0-SHA_H7; 8 x 64 bits; R264, 09; reset 0 -/
  sha : List (BitVec 64)
  /-- line status of tracked offsets; R269, 09; reset empty -/
  st : NMap OffSt
  /-- status blocks held, by block number; R269, 09; reset empty -/
  blocks : List Nat
  /-- the hole whose timer runs; R274, 09; reset none -/
  hole : Option Nat
  /-- STREAM_NEAR_FULL posted; 1 bit; R267, 09; reset 0 -/
  nearFull : Bool
  /-- CTX_FAILED; 1 bit; R376, 13; reset 0 -/
  failed : Bool
  /-- pending seal points by FLAGS bit; 16 bits; R299, 10; reset 0 -/
  pendF : BitVec 16
  /-- next record's SEQ; 32 bits; R299, 10; reset 0 -/
  nextSeq : BitVec 32
  /-- previous record's LAST_OFFSET + 1; R301, 10; reset 0 -/
  nextFirst : Nat
  /-- digest of the previous record; 384 bits; R303, 10; reset 0 -/
  prev : BitVec 384
  /-- a record is in flight; 1 bit; R299, 10; reset 0 -/
  inFlight : Bool
  /-- gap being acknowledged: COUNT, cause, HASHED at step 2; R280, R304, 09, 10; reset none -/
  gap : Option (Nat × BitVec 4 × Nat)
  /-- BAD_CAUSE as the close left it, read while CLOSED; 4 bits; R264, R288, 09; reset 0 -/
  shutCause : BitVec 4
  /-- SPLIT_OPEN as the close left it, read while CLOSED; 1 bit; R264, R288, 09; reset 0 -/
  shutSplit : Bool
deriving DecidableEq, Repr

/-- A watermark notice slot (R284, R285). -/
structure Notice where
  armed : Bool
  stream : BitVec 18
  mark : Nat
  step : Nat
  crossings : BitVec 32
  fired : Bool
deriving DecidableEq, Repr

/-- A command in progress (R410, R411): the packet, its opcode, the stage of its rule it has reached, and its counts;
`mode` is the mode it was accepted in, 7 once the control path has been reset under it (R404). -/
structure Prog where
  id : Nat
  p : Packet
  op : Byte
  stage : Nat
  n : Nat
  m : Nat
  /-- entries taken before it that had not started when it did (R411) -/
  after : List (BitVec 5 × BitVec 512)
deriving DecidableEq, Repr

/-- What software sets and reads in the function's capabilities (R399), as the PCI Express base specification lays the registers out (PRESUMED,
log 121). -/
structure PcieCfg where
  /-- Device Control: Max_Payload_Size [7:5], Max_Read_Request_Size [14:12], error reporting [3:0], 8-bit tags [8]; reset 0x2000, 128 and 512 bytes -/
  devCtl : BitVec 16
  /-- Device Control 2: completion-timeout value [3:0], disable [4]; reset 0 -/
  devCtl2 : BitVec 16
  /-- Link Control: ASPM [1:0], common clock [6], extended synch [7]; reset 0 -/
  linkCtl : BitVec 16
  /-- MSI-X Enable; reset 0 -/
  msixOn : Bool
  /-- MSI-X Function Mask; reset 0 -/
  msixMask : Bool
  /-- AER uncorrectable error status; reset 0 -/
  uncStatus : BitVec 32
  /-- AER uncorrectable error mask; reset 0x0040_0000 -/
  uncMask : BitVec 32
  /-- AER uncorrectable error severity; reset 0x0046_2030 -/
  uncSev : BitVec 32
  /-- AER correctable error status; reset 0 -/
  corStatus : BitVec 32
  /-- AER correctable error mask; reset 0x0000_E000 -/
  corMask : BitVec 32
  /-- AER header log, 128 bits; reset 0 -/
  log : BitVec 128
deriving DecidableEq, Repr
/-- The capabilities after a reset of the control path (R404; log 121). -/
def PcieCfg.init : PcieCfg := ⟨0x2000, 0, 0, false, false, 0, 0x00400000, 0x00462030, 0, 0x0000E000, 0⟩

/-- A queue pair (R407-R412). -/
structure QP where
  /-- pair exists; 1 bit; R407, 14; reset 0 -/
  on : Bool
  /-- SQ base; 64 bits; R408, 14; reset 0 -/
  sqBase : BitVec 64
  /-- CQ base; 64 bits; R408, 14; reset 0 -/
  cqBase : BitVec 64
  /-- SQ size in entries; R408, 14; reset 0 -/
  sqN : Nat
  /-- CQ size in entries; R408, 14; reset 0 -/
  cqN : Nat
  /-- SQ head; 16 bits; R409, 14; reset 0 -/
  sqHead : Nat
  /-- SQ tail; 16 bits; R409, 14; reset 0 -/
  sqTail : Nat
  /-- CQ head; 16 bits; R409, 14; reset 0 -/
  cqHead : Nat
  /-- CQ tail; 16 bits; R409, 14; reset 0 -/
  cqTail : Nat
  /-- PHASE; 1 bit; R412, 14; reset 0 -/
  phase : Bool
  /-- ARMED; 1 bit; R406, 14; reset 0 -/
  armed : Bool
  /-- stopped after a DMA failure; 1 bit; R413, 14; reset 0 -/
  stopped : Bool
  /-- QUEUE_DELETE in progress; 1 bit; R423, 14; reset 0 -/
  deleting : Bool
  /-- completions waiting to be written: RESULT, CID, STATUS; R412, 14; reset empty -/
  waiting : List (BitVec 64 × BitVec 16 × BitVec 16)
deriving DecidableEq, Repr

/-- A staged event (R418, R419). -/
structure Ev where
  code : BitVec 16
  seq : BitVec 32
  time : BitVec 64
  payload : BitVec 128
deriving DecidableEq, Repr

/-- What the hub gives to the world outside it, in order: the model's own outbox. -/
inductive Out where
  /-- a message placed in the stream, and the sequenced flit that carries it (R167, R168) -/
  | msg (port : Nat) (m : Msg) (f : Flit)
  /-- a control flit: a LINK message, or IDLE slots with news of credits or of the ACK (R167) -/
  | ctrl (port : Nat) (f : Flit)
  /-- a sequenced flit of the replay buffer, sent again (R172) -/
  | replayed (port : Nat) (f : Flit)
  /-- a CXL.mem request at a far port: read or write, byte address, byte mask, data, poison (R21) -/
  | cxl (port : Nat) (write : Bool) (addr : Nat) (mask : Slot) (data : Line) (psn : Bool)
  | host (addr : BitVec 64) (bytes : List Byte)
  | msix (vec : Nat) (addr : BitVec 64) (data : BitVec 32)
  | read (v : BitVec 64)
  | bmc (v : Option (BitVec 64))
  | gpf (fp : Nat) (phase : Nat)
  /-- a spilled line of the trace, at its line number (R491) -/
  | trace (line : LineNo) (bytes : List Byte) (poison : Bool)
deriving DecidableEq, Repr

/-- The drain report (R341, 11), held in the AO domain. -/
structure Report where
  /-- CAUSE; 8 bits; R341, 11; reset 0xFF at AO power-up -/
  cause : Byte
  /-- STEP; 8 bits; R341, 11; reset 0 -/
  step : Byte
  /-- FLAGS; 8 bits; R341, 11; reset 0 -/
  flags : Byte
  /-- GPF_FAILED per far port; 4 bits; R341, 11; reset 0 -/
  gpfFailed : BitVec 4
  /-- DEAD per far port at DRAIN_DONE; 4 bits; R341, 11; reset 0 -/
  dead : BitVec 4
  /-- BOOT_COUNT at entry; 32 bits; R341, 11; reset 0 -/
  boot : BitVec 32
  /-- ENTRY_TIME; 64 bits; R341, 11; reset 0 -/
  entry : BitVec 64
  /-- DONE_TIME; 64 bits; R341, 11; reset 0 -/
  doneT : BitVec 64
  /-- FLUSHED in bytes; 64 bits; R341, 11; reset 0 -/
  flushed : BitVec 64
  /-- LOST; 64 bits; R341, 11; reset 0 -/
  lost : BitVec 64
  /-- MANIFEST_INDEX; 64 bits; R341, 11; reset 0 at AO power-up -/
  manifest : BitVec 64
  /-- LEAF_COUNT; 32 bits; R341, 11; reset 0 -/
  leaves : BitVec 32
  /-- NO_DATA; 32 bits; R341, 11; reset 0 -/
  noData : BitVec 32
deriving DecidableEq, Repr

/-- The AO domain (R262, R308, R324, R327, R475, R511-R514). -/
structure Ao where
  /-- VDD_AO in specification; 1 bit; R450, 16; reset 1 -/
  up : Bool
  /-- RESET_N asserted; 1 bit; R472, 16; reset 0 -/
  inReset : Bool
  /-- DEVICE_TIME; 64 bits; R308, 10; reset 0 at AO power-up -/
  time : BitVec 64
  /-- BOOT_COUNT as the boot ROM left it; 32 bits; R475, 16; reset 1 (the first power-up has incremented it, DESIGN CHOICE 7) -/
  bootCount : BitVec 32
  /-- first boot after AO power-up not yet made; 1 bit; R455, 16; reset 0 -/
  firstBoot : Bool
  /-- mirror of LOST_WB; 16 bits; R262, 08; reset 0 -/
  mirWb : BitVec 16
  /-- mirror of LOST_DIRTY; 40 bits; R262, 08; reset 0 -/
  mirDirty : BitVec 40
  /-- mirror of LOST_DURABLE; 40 bits; R262, 08; reset 0 -/
  mirDur : BitVec 40
  /-- reset record KIND; 2 bits; R475, 16; reset 0 -/
  kind : BitVec 2
  /-- MODE_AT_EDGE; 3 bits; R475, 16; reset 0 -/
  modeAtEdge : BitVec 3
  /-- DRAIN_DONE_AT_EDGE; 1 bit; R475, 16; reset 0 -/
  ddAtEdge : Bool
  /-- RESET_TIME; 64 bits; R475, 16; reset 0 -/
  resetTime : BitVec 64
  /-- LOST0; 64 bits; R262, 08; reset 0 -/
  lost0 : BitVec 64
  /-- LOST1; 64 bits; R262, 08; reset 0 -/
  lost1 : BitVec 64
  /-- single-copy mode mirror; 3 bits; R363, 13; reset 1 BOOT -/
  modeMirror : BitVec 3
  /-- mode before RESET, for the event posted at the next boot; 3 bits; R450, 16; reset 0 -/
  modeBefore : BitVec 3
  /-- filtered PFW_N level, true high; R324, 11; reset 1 -/
  pfwHigh : Bool
  /-- DRAIN_DONE output; 1 bit; R327, 11; reset 0 -/
  drainDone : Bool
  /-- THERMTRIP_N asserted; 1 bit; R513, 18; reset 0 -/
  thermtrip : Bool
  /-- every clock except AO's stopped; 1 bit; R340, 11; reset 0 -/
  stopped : Bool
  /-- drain report; 64 bytes; R341, 11 -/
  rep : Report
  /-- 16 sensor samples, coded + 64; 8 bits each; R511, R515, 18; reset 0 -/
  sensors : List Byte
  /-- TJ, coded + 64; 8 bits; R514, 18; reset 0 -/
  tj : Byte
  /-- PEAK, coded + 64; 8 bits; R514, 18; reset 0 -/
  peak : Byte
  /-- TRIPPED; 1 bit; R514, 18; reset 0 -/
  tripped : Bool
  /-- LEVEL; 2 bits; R514, 18; reset 0 -/
  level : BitVec 2
  /-- trips since AO power-up; 32 bits; R515, 18; reset 0 -/
  trips : BitVec 32
  /-- ANCHOR_OFFSET; 64 bits; R309, 10; reset 0x8000_0000_0000_0000 -/
  anchor : BitVec 64
  /-- operating hours; 32 bits; R506, 18; kept in the health page; reset 0 (DESIGN CHOICE 7) -/
  hours : BitVec 32
  /-- AO clocks of the current operating hour; R506, 18; reset 0 -/
  hourT : Nat
  /-- test access port instruction in force: 0 BYPASS, 1 IDCODE, 2 SAMPLE/PRELOAD, 3 EXTEST, 4 EXTEST_PULSE, 5 EXTEST_TRAIN, 6 an internal one; R523, 18;
  reset 1 (PRESUMED 41) -/
  tap : BitVec 3
deriving DecidableEq, Repr

/-- The triplicated register fields (R363, R433). -/
structure Trips where
  /-- MODE; 3 bits x 3; R436, 15; reset BOOT (1) -/
  mode : Trip 3
  /-- REGION_LOCK; 1 bit x 3; R43, 02; reset 0 -/
  lock : Trip 1
  /-- FREEZE_MASK; 5 bits x 3; R385, R436, 13, 15; reset 0x1F -/
  freeze : Trip 5
  /-- DURABLE_BUDGET in MiB; 13 bits x 3; R283, 09; reset 256 -/
  budget : Trip 13
  /-- PFW_CONFIG; 64 bits x 3; R325, 11; reset 0x0000_000A_0000_0104 -/
  pfw : Trip 64
  /-- KEY_STATE; STATE in [1:0], APPROVED in [2]; 3 bits x 3; R315, 10; reset 0 (boot flash holds EMPTY, DESIGN CHOICE 7) -/
  key : Trip 3
deriving DecidableEq, Repr

/-- A FIFO of the register space (R443-R448). -/
structure Fifo where
  /-- words held, oldest first; 64 bits each; R444, R445, 15; reset empty -/
  words : List (BitVec 64)
  /-- words accepted or generated since reset, modulo 2^15; R444, R445, 15; reset 0 -/
  seq : BitVec 15
  /-- CROSSINGS; 16 bits; R447, 15; reset 0 -/
  crossings : BitVec 16
  /-- OVERRUNS; 16 bits; R447, 15; reset 0 -/
  overruns : BitVec 16
  /-- OVERRUN; 1 bit; R447, 15; reset 0 -/
  overrun : Bool
  /-- CROSSED; 1 bit; R447, 15; reset 0 -/
  crossed : Bool
  /-- ABOVE; 1 bit; R447, 15; reset 0 -/
  above : Bool
deriving DecidableEq, Repr

/-- The register space of BAR0 outside the command queues (R426-R448, R476-R482). -/
structure Regs where
  /-- LOCK_VIOLATION; 1 bit; R436, 15; reset 0 -/
  lockViol : Bool
  /-- GUARD_FAIL; 1 bit; R436, 15; reset 0 -/
  guardFail : Bool
  /-- ACCESS_ERR; 1 bit; R436, 15; reset 0 -/
  accessErr : Bool
  /-- LOCK_VIOLATIONS; 64 bits; R438, 15; reset 0 -/
  lockViols : BitVec 64
  /-- GUARD_FAILS; 64 bits; R438, 15; reset 0 -/
  guardFails : BitVec 64
  /-- ACCESS_ERRORS; 64 bits; R438, 15; reset 0 -/
  accessErrs : BitVec 64
  /-- EVENTS_DROPPED; 64 bits; R438, 15; reset 0 -/
  evDropped : BitVec 64
  /-- COMBINE_WINDOW; 8 bits; R436, 15; reset 16 -/
  combine : Byte
  /-- GUAR_MISS; 60 bits; R358, 12; reset 0 -/
  guarMiss : BitVec 60
  /-- QP0_SQ_BASE; 64 bits; R436, 15; reset 0 -/
  qp0Sq : BitVec 64
  /-- QP0_CQ_BASE; 64 bits; R436, 15; reset 0 -/
  qp0Cq : BitVec 64
  /-- QP0_SIZE; 32 bits; R436, 15; reset 0 -/
  qp0Size : BitVec 32
  /-- QP0_ENABLE; 1 bit; R436, 15; reset 0 -/
  qp0En : Bool
  /-- FIFO_CTRL; 32 bits; R446, 15; reset marks 768 and 192 -/
  fifoCtrl : BitVec 32
  /-- Host Message FIFO, 256 words; R444, 15 -/
  hmf : Fifo
  /-- Event FIFO, 1,024 words; R445, 15 -/
  evf : Fifo
  /-- ZEROISE_ARM; armed; 1 bit; R436, 15; reset 0 -/
  zArm : Bool
  /-- SNP_TIMEOUT in us; 14 bits; R208, 15; reset 100 -/
  snpTo : BitVec 14
  /-- FAR_TIMEOUT in us; 20 bits; R210, 15; reset 1,000 -/
  farTo : BitVec 20
  /-- pending guarded value: primary offset, value and DEVICE_TIME of its write; R431, 15; reset none -/
  guardP : Option (BitVec 20 × BitVec 64 × BitVec 64)
  /-- high-half latch; 32 bits; R441, 15; reset 0 (DESIGN CHOICE 3) -/
  latch : BitVec 32
  /-- offset of the low-half read that was the previous access to the counter window; R442, 15; reset none -/
  latchOff : Option (BitVec 20)
  /-- MON_CTRL; 13 bits; R477, 17; reset 0x1FFF -/
  monCtrl : BitVec 13
  /-- MON_OVF_IE_PORT; 60 bits; R477, 17; reset 0 -/
  monIeP : BitVec 60
  /-- MON_OVF_IE_SYS; 9 bits; R477, 17; reset 0 -/
  monIeS : BitVec 9
  /-- port monitor words: key 5p + i, OVF in bit 63; 12 x 5 x 64 bits; R476, R478, 17; reset 0 -/
  monP : NMap (BitVec 64)
  /-- system monitor words, cycle counter first; 9 x 64 bits; R476, R479, 17; reset 0 -/
  monS : NMap (BitVec 64)
  /-- events of the port monitors' counters: key 4p + i; 8 bits each; R478, 17; reset 0 NONE -/
  monPE : NMap Byte
  /-- MON_SYS_SET parameter bytes 0-33 per counter; 272 bits each; R480, 17; reset 0 -/
  monSE : NMap (BitVec 272)
  /-- COMPAT_RD_BYTES[0..4]; 5 x 64 bits; R359, 12; reset 0 -/
  compRd : NMap (BitVec 64)
  /-- COMPAT_WR_BYTES[0..4]; 5 x 64 bits; R359, 12; reset 0 -/
  compWr : NMap (BitVec 64)
  /-- THERM_CTRL; 40 bits; R514, 18; reset TRIP_C 145, L3_C 140, L2_C 138, L1_C 136, THROTTLE_EN 1 -/
  thermCtrl : BitVec 40
deriving DecidableEq, Repr

/-- The control port (R399-R424). -/
structure Cp where
  /-- Bus Master Enable; 1 bit; R403, 14; reset 0 -/
  bme : Bool
  /-- function in D3hot; 1 bit; R403, 14; reset 0 -/
  d3 : Bool
  /-- queue pairs 0-15; R407, 14; reset none exists -/
  qps : NMap QP
  /-- next SQ the round-robin serves; 4 bits; R410, 14; reset 0 -/
  rr : BitVec 4
  /-- entries taken whose command has not run yet; R410, 14; reset empty -/
  taken : List (BitVec 5 × BitVec 512)
  /-- entries taken before the command that started last and not started then; R411, 14; reset empty -/
  ahead : List (BitVec 5 × BitVec 512)
  /-- commands in progress, in the order of their starts; at most 64 with those taken; R410, 14; reset empty -/
  prog : List Prog
  /-- event queue bound; 1 bit; R424, 14; reset 0 -/
  eqOn : Bool
  /-- event queue base; 64 bits; R424, 14; reset 0 -/
  eqBase : BitVec 64
  /-- event queue entries; R424, 14; reset 0 -/
  eqN : Nat
  /-- event queue head; R409, 14; reset 0 -/
  eqHead : Nat
  /-- event queue tail; R409, 14; reset 0 -/
  eqTail : Nat
  /-- event queue PHASE; R418, 14; reset 0 -/
  eqPhase : Bool
  /-- event queue ARMED; R406, 14; reset 0 -/
  eqArmed : Bool
  /-- GROUP_EN; 8 bits; R424, 14; reset 0xFF -/
  groups : Byte
  /-- staged events, at most 256; R419, 14; reset empty -/
  staged : List Ev
  /-- events dropped since the previous entry; R418, 14; reset 0 -/
  evLost : Bool
  /-- SEQ of the next event; 32 bits; R418, 14; reset 0 -/
  evSeq : BitVec 32
  /-- MSI-X vectors masked; 32 bits; R405, 14; reset all masked, as PCI Express resets a table entry (PRESUMED 10) -/
  masked : BitVec 32
  /-- MSI-X pending bits; 32 bits; R405, 14; reset 0 -/
  pend : BitVec 32
  /-- MSI-X messages held while Bus Master Enable is clear; R403, 14; reset 0 -/
  held : BitVec 32
  /-- results for host memory held while Bus Master Enable is clear, in order; R402, R403, 14; reset empty -/
  heldDma : List (BitVec 64 × List Byte)
  /-- message address and data of the MSI-X table's entries; 64 and 32 bits; R401, 14; reset 0 (PRESUMED 10) -/
  table : NMap (BitVec 64 × BitVec 32)
  /-- capabilities of the PCI Express function; R399, 14; reset `PcieCfg.init` (PRESUMED 121) -/
  pcie : PcieCfg
  /-- queue pair 0 as latched by a QP0_ENABLE set while the pair was still being deleted; R407, R429, 14; reset none -/
  qp0Next : Option QP
deriving DecidableEq, Repr

/-- A walk of R102: its kind (opcode), the command it belongs to, its first set or line and their count, the ways, the form, RECALL, the next
line of each slice (keys of slices; set x 16 + way, or lines past the first), and its counts. -/
structure Walk where
  cmd : Nat
  op : Byte
  first : Nat
  count : Nat
  mask : BitVec 14
  byset : Bool
  recl : Bool
  pos : NMap Nat
  cleaned : Nat
  skipped : Nat
  /-- far writes of the walk not yet ended: far request identifiers and the line's set and way -/
  outs : List Nat
  /-- lines whose first clean failed and are to be cleaned once more (R525) -/
  again : List (Nat × Nat)
  paused : Bool
  /-- recalls of the walk: their data sent on to far memory counts in CLEANED (R97) -/
  recs : List Nat
  /-- of REGION_CLEAR's step 4: the walking commands taken before its step 3 ended, which go first (R102) -/
  behind : List (BitVec 5 × BitVec 512)
  /-- stopped by DRAIN entry: its lines in progress end, then its command (R103) -/
  stop : Bool
  /-- places whose second clean is under way (R525) -/
  retried : List (Nat × Nat)
deriving DecidableEq, Repr

/-- The system cache outside the slices: DRAM rows, enable state, ways, walks, prefetch, partitions (R54-R131). -/
structure Cache where
  /-- trained population CHANNELS code; 2 bits; R55, R104, 03; reset 3 -/
  chans : BitVec 2
  /-- trained DENSITY code; 1 bit; R104, 03; reset 0 -/
  dense : Bool
  /-- channel training has ended; 1 bit; R421, R453, 14, 16; reset 0 -/
  trained : Bool
  /-- DRAM_RATE code; 2 bits; R514, 18; reset 0 (DESIGN CHOICE 3) -/
  rate : BitVec 2
  /-- ENABLED; 1 bit; R93, 03; reset 0 -/
  enabled : Bool
  /-- INV_DONE; 1 bit; R92, 03; reset 0 -/
  invDone : Bool
  /-- DISABLING; 1 bit; R104, 03; reset 0 -/
  disabling : Bool
  /-- way-enable mask; 14 bits; R95, 03; reset 0x3FFF -/
  ways : BitVec 14
  /-- an INVALIDATE_ALL has written the rows that are not listed; R91, 03; reset 0 -/
  formatted : Bool
  /-- REPL that INVALIDATE_ALL wrote into them; 256 bits; R91, 03; reset 0 -/
  fmtRepl : BitVec 256
  /-- later INVALIDATE_ALLs that passed retired sets over, latest first: REPL, and the sets, banks and channels then retired; R91, 03; reset empty -/
  fmtLog : List (BitVec 256 × List Nat × List Nat × List Nat)
  /-- DRAM slot 14 by set: tag block with TB_CHECK; R60, 03 -/
  tb : NMap TagBlock
  /-- the block as the hub wrote it, of a set whose row an injection has put 5 symbols wrong in; R129, R398, 04, 13; reset empty -/
  tbSent : NMap TagBlock
  /-- DRAM slots 0-13: key set x 16 + way; R59, 03 -/
  data : NMap Line
  /-- DRAM slot 15: check entry of set x 16 + way; R62, 03 -/
  check : NMap (BitVec 64)
  /-- lines with D set; 40 bits; R104, 03; reset 0 -/
  dirty : Nat
  /-- lines with D set and DUR clear, for LOST_DIRTY; R262, 08; reset 0 -/
  dirtyPlain : Nat
  /-- OCCUPANCY[0..15]; 40 bits each; R129, 04; reset 0 -/
  occ : NMap Nat
  /-- sets retired on chip; R89, R382, 03, 13; reset empty -/
  retSets : List Nat
  /-- banks retired on chip: channel + 32 x bank; R89, R382, 03, 13; reset empty -/
  retBanks : List Nat
  /-- quarantined channels; R381, 13; reset empty -/
  quar : List Nat
  /-- walks waiting and running, in order; R102, 03; reset empty -/
  walks : List Walk
  /-- memory-controller requests outstanding; R76, 03; reset empty -/
  mc : List McReq
  /-- partition map: key 4p + class; 4 bits each; R108, 04; reset 0 -/
  map : NMap (BitVec 4)
  /-- PMASK[0..15]; 14 bits each; R108, 04; reset 0x3FFF -/
  pmask : NMap (BitVec 14)
  /-- NL_PORTS; 12 bits; R130, 04; reset 0xFFF -/
  nlPorts : BitVec 12
  /-- SP_PORTS; 12 bits; R130, 04; reset 0xFFF -/
  spPorts : BitVec 12
  /-- NL_MAX; R130, 04; reset 32 -/
  nlMax : Nat
  /-- SP_MAX; R130, 04; reset 128 -/
  spMax : Nat
  /-- SP_DEPTH; R130, 04; reset 8 -/
  spDepth : Nat
  /-- SB_AGE_TICKS; R130, 04; reset 16 -/
  sbAge : Nat
  /-- order stamp of side-buffer fills, for the oldest entry; R124, 04; reset 0 -/
  sbClk : Nat
  /-- prefetch counters 0-11 in the order of R131; 64 bits each; 04; reset 0 -/
  pfCnt : NMap (BitVec 64)
  /-- bitmap cache: bitmap lines on chip, most recent first, at most 2,048; R52, 02; reset empty -/
  bitmap : List (LineNo × Line)
  /-- patrol position: next set; R377, 13; reset 0 (DESIGN CHOICE 3) -/
  patrol : Nat
  /-- refresh multiple of each channel: 1, 2 or 4; R353, 12; reset 1 -/
  refresh : NMap Nat
deriving DecidableEq, Repr

/-- The loaded policy image and the sequencer counters (R153-R160). -/
structure Pol where
  /-- code words as loaded; R152, 05; reset empty (no image loaded before boot) -/
  code : List (BitVec 64)
  /-- data words as loaded from word 0x0010; R152, 05; reset empty -/
  data : List SWord
  /-- ENTRY[0..4]; 16 bits each; R153, 05; reset 0xFFFF -/
  entry : NMap (BitVec 16)
  /-- REPL_INIT; 256 bits; R153, 05; reset 0 -/
  replInit : BitVec 256
  /-- POLICY_ID; 64 bits; R160, 05; reset 0 -/
  pid : BitVec 64
  /-- POLICY_VERSION; 32 bits; R160, 05; reset 0 -/
  version : BitVec 32
  /-- STATE 0-3; R160, 05; reset 0 -/
  st : Byte
  /-- an image is loaded (R453); 1 bit; 16; reset 0 -/
  loaded : Bool
  /-- dispatch stopped during a load; 1 bit; R158, 05; reset 0 -/
  stopped : Bool
  /-- slices whose INIT has not ended; 8 bits; R158, 05; reset 0 -/
  initLeft : Byte
  /-- the load that INIT belongs to falls back to the default image; R158, 05; reset 0 -/
  fallback : Bool
  /-- first fault since the load has been posted; R140, 05; reset 0 -/
  faultSeen : Bool
  /-- counters 0-12 of R160 from EVENTS[0] to EMIT_LIMIT; 64 bits each; 05; reset 0 -/
  cnt : NMap (BitVec 64)
deriving DecidableEq, Repr

/-- Agent ports, hub identity and far ports (06, 07). -/
structure Links where
  /-- HUB_BASE; 18 bits; R228, 07; reset 0 -/
  base : BitVec 18
  /-- HUB_SIZE; 18 bits; R228, 07; reset 0x3_D090 -/
  size : BitVec 18
  /-- HUB_DEPTH 1-6; R228, 07; reset 1 -/
  depth : Byte
  /-- agent ports AP0-AP11; 06 -/
  ports : NMap Port
  /-- far ports FP0-FP3; 08, 11, 12 -/
  far : NMap FarPort
  /-- CXL.mem requests sent; R210, 07; reset empty -/
  reqs : List FarReq
  /-- far writes waiting for an earlier write of their line; R220, 07; reset empty -/
  waitq : List FarReq
  /-- far requests that timed out, whose completion may still arrive; R210, 07; reset empty -/
  late : List Nat
  /-- writes accepted and not finished; R241, 08; reset empty -/
  writes : List Wr
  /-- STASH_CONFLICT count; R222, 07; reset 0 (no register shows it) -/
  stashConflicts : Nat
deriving DecidableEq, Repr

/-- Streams, notices, the seal log and keys (09, 10). -/
structure Str where
  /-- stream contexts 0-0x3_FFFF; R263, 09; reset all CLOSED -/
  ctx : NMap Ctx
  /-- HOLE_TIMEOUT in us; 20 bits; R293, 09; reset 1,000 -/
  holeTo : Nat
  /-- status blocks in use, 0-8,192; R269, 09; reset 0 -/
  blocks : Nat
  /-- OVERRUNS; 64 bits; R295, 09; reset 0 -/
  overruns : BitVec 64
  /-- GAPS; 64 bits; R295, 09; reset 0 -/
  gaps : BitVec 64
  /-- notice slots 0-4,095; R284, 09; reset disarmed and zero -/
  notices : NMap Notice
  /-- a seal log is bound: region index; R305, 10; reset none -/
  log : Option Nat
  /-- LOG_WRITE; R306, 10; reset 0 -/
  logWrite : Nat
  /-- LOG_READ; R306, 10; reset 0 -/
  logRead : Nat
  /-- log indices whose slot write has not persisted; R306, 10; reset empty -/
  unpersisted : List Nat
  /-- records, certificates and manifests on their way into the log, in order of formation; R299, R306, 10; reset empty -/
  items : List LogItem
  /-- SEAL_LOG_LOW posted since the log last had room; R307, 10; reset 0 -/
  lowPosted : Bool
deriving DecidableEq, Repr

/-- Keys, roles and the cryptographic module (10). -/
structure Keys where
  /-- identity public key x y; 768 bits; R312, 10; kept in the key area; reset 0 -/
  identPub : BitVec 768
  /-- wrapped identity private key; R312, 10; key area; reset 0 -/
  identPriv : BitVec 512
  /-- seal public key; 768 bits; R313, 10; key area; reset 0 -/
  sealPub : BitVec 768
  /-- wrapped seal private key; R313, 10; key area; reset 0 -/
  sealPriv : BitVec 512
  /-- KEY_SERIAL; 16 bits; R313, 10; key area; reset 0 -/
  serial : BitVec 16
  /-- current certificate; 256 bytes; R313, 10; key area; reset 0 -/
  cert : BitVec 2048
  /-- stored STATE in the key area; 2 bits; R316, 10; reset 0 EMPTY -/
  stored : BitVec 2
  /-- both private keys have been overwritten on chip (step 2 of KEY_ZEROISE) since they were last unwrapped; 1 bit; R317, 10; reset 0 -/
  wiped : Bool
  /-- cryptographic error state; 1 bit; R320, 10; reset 0 -/
  errState : Bool
  /-- every self-test has passed; 1 bit; R318, 10; reset 0 until the boot tests -/
  testsOk : Bool
  /-- outstanding challenge per role; 384 bits; R319, 10; reset none -/
  chal : NMap (BitVec 384)
  /-- a challenge stands for the role; 2 bits; R319, 10; reset 0 -/
  chalOn : BitVec 2
  /-- authenticated roles: [0] officer, [1] user; R319, 10; reset 0 -/
  roles : BitVec 2
  /-- consecutive failures per role; R319, 10; reset 0 -/
  fails : NMap Nat
  /-- user public key; 768 bits; R319, 10; reset 0 -/
  userPub : BitVec 768
  /-- a user key is loaded; R319, 10; reset 0 -/
  userOn : Bool
  /-- TAP_OPEN fuse intact; OTP; R523, 18; reset 0, a production part (log 7) -/
  tapOpen : Bool
  /-- customer key slot written; OTP; R468, 16; reset 0 -/
  custOn : Bool
  /-- customer key slot; 48 bytes; OTP; R468, 16; reset 0 -/
  cust : BitVec 384
deriving DecidableEq, Repr

/-- The drain in progress (11). -/
structure Drain where
  /-- step of R328 now running, 1-8; 0: none; 9: hold state; R328, R338, 11; reset 0 -/
  step : Nat
  /-- mode DRAIN was entered from; 3 bits; R339, 11; reset 0 -/
  from_ : BitVec 3
  /-- PFW_CONFIG latched at entry; 64 bits; R325, 11; reset 0 -/
  pfw : BitVec 64
  /-- step 3 has ended; R328, 11; reset 0 -/
  hashEnd : Bool
  /-- streams OPEN or CLOSING at entry that get a drain record; R310, 11; reset empty -/
  streams : List Nat
  /-- leaves of the manifest by stream; R311, 10; reset empty -/
  leaves : NMap (BitVec 384)
  /-- log index of the first drain record; R310, 10; reset none -/
  firstIdx : Option Nat
  /-- writes whose data the flush waits for: write identifiers; R328, 11; reset empty -/
  flush : List Nat
  /-- DAT messages held per port at the end of step 2, which the flush waits for; R181, R328, 11; reset 0 -/
  flushDat : NMap Nat
  /-- lines of the extra clean still allowed; R328, 11; reset 0 -/
  extra : Nat
  /-- far writes of the extra clean outstanding; R328, 11; reset empty -/
  extraOut : List Nat
  /-- far ports whose GPF phase answer is awaited; 4 bits; R330, 11; reset 0 -/
  gpfWait : BitVec 4
  /-- a thermal trip is this drain's cause or a later cause; R339, R340, 11; reset 0 -/
  thermal : Bool
  /-- a warm reset is in progress: the step of R261 reached; 0: none; 08; reset 0 -/
  warm : Nat
  /-- the manifest has been formed; R310, 10; reset 0 -/
  man : Bool
deriving DecidableEq, Repr

/-- A guaranteed pair (R350-R357). -/
structure Guar where
  rd : Nat
  wr : Nat
  farRd : Nat
  farWr : Nat
  on : Bool
  f : Nat
  rsv : Nat
  changed : Bool
  /-- code of the resource that limits it or, at f = 1, last did; R355 -/
  lim : Nat
deriving DecidableEq, Repr

/-- Regulation (12). Keys are 5p + c. -/
structure Regl where
  /-- CAP_HOST[p][c]; 11 bits; R349, 12; reset 1,024 -/
  cap : NMap Nat
  /-- guarantees; R350, 12; reset none -/
  guar : NMap Guar
  /-- CAP_STALLS; 64 bits; R346, 12; reset 0 -/
  stalls : NMap (BitVec 64)
  /-- MISSES; 64 bits; R357, 12; reset 0 -/
  misses : NMap (BitVec 64)
  /-- ADMIT_PCT; R360, 12; reset 90 -/
  admitPct : Nat
  /-- MARGIN in 1/16; R360, 12; reset 20 -/
  margin : Nat
  /-- WINDOW_MS; R360, 12; reset 10 -/
  window : Nat
  /-- LAT of the last window in ps per pair; R350, 12; reset 560,000 -/
  lat : NMap Nat
  /-- ends and core clocks of latency summed in this window; R350, 12; reset 0 -/
  latSum : NMap (Nat × Nat)
  /-- delivered bytes in this window; R356, 12; reset 0 -/
  deliv : NMap Nat
  /-- delivered bytes in the last window; R361, 12; reset 0 -/
  delivLast : NMap Nat
  /-- samples that counted as demand in this window; R356, 12; reset 0 -/
  demand : NMap Nat
  /-- samples in this window; R356, 12; reset 0 -/
  samples : Nat
deriving DecidableEq, Repr

/-- An armed injection (R398). -/
structure Inj where
  kind : Nat
  opnd : BitVec 64
deriving DecidableEq, Repr

/-- Errors, log, scrubbing, retirement (13). -/
structure Err where
  /-- error records by index modulo 4,096; 32 bytes each; R392, R393, 13; reset 0 -/
  log : NMap (BitVec 256)
  /-- ERR_WRITE; 64 bits; R392, 13; reset 0 -/
  wr : Nat
  /-- ERR_READ; 64 bits; R392, 13; reset 0 -/
  rd : Nat
  /-- the next record carries OVERFLOW; R392, 13; reset 0 -/
  ovf : Bool
  /-- log mirror region; R395, 13; reset none -/
  mirror : Option Nat
  /-- counters 0-15 in the order of R397; 64 bits each; 13; reset 0 -/
  cnt : NMap (BitVec 64)
  /-- SCRUB_HOURS; R377, 13; reset 24 -/
  scrub : Nat
  /-- CE_ROW_LIMIT; R380, 13; reset 8 -/
  ceLimit : Nat
  /-- CH_UE_LIMIT; R381, 13; reset 32 -/
  ueLimit : Nat
  /-- DEVICE_TIME of each channel's uncorrectable decodes of the last 1 ms; R381, 13; reset empty -/
  ue : NMap (List Nat)
  /-- retire list sets (health page); R383, 13; reset empty (DESIGN CHOICE 7) -/
  rlSets : List Nat
  /-- retire list banks (health page); R383, 13; reset empty (DESIGN CHOICE 7) -/
  rlBanks : List Nat
  /-- retire list GENERATION; 32 bits; R383, 13; reset 0 -/
  rlGen : BitVec 32
  /-- retire list POPULATION; 8 bits; R383, 13; reset 0 -/
  rlPop : Byte
  /-- armed injection; R398, 13; reset none -/
  inj : Option Inj
deriving DecidableEq, Repr

/-- A copy of what the health page of the boot flash holds (R342, R383, R458, R509). -/
structure Health where
  rlSets : List Nat
  rlBanks : List Nat
  rlGen : BitVec 32
  rlPop : Byte
  /-- Dirty Shutdown Count per far port -/
  dirty : NMap (BitVec 32)
  /-- Thyme history -/
  history : List (BitVec 2 × Byte × Nat × Int)
  /-- operating hours -/
  hours : BitVec 32
deriving DecidableEq, Repr

/-- A job of program and erase operations on the boot flash (R457): the command it belongs to, operations left, one of them failed, and the copy of
the health page that it makes current once it has ended (R383, R458). -/
structure FlashJob where
  own : Option Nat
  left : Nat
  bad : Bool
  keep : Option Health
deriving DecidableEq, Repr

/-- Boot, firmware and flash (16). -/
structure Boot where
  /-- SG-7420; 1 bit; R1, 00; reset 0, an SG-7440 (DESIGN CHOICE 7) -/
  small : Bool
  /-- Revision ID; 8 bits; R459, 16; reset 0x11 (DESIGN CHOICE 7) -/
  stepping : Byte
  /-- Device Serial Number; 64 bits; R399, 14; reset 0 (DESIGN CHOICE 7) -/
  serial : BitVec 64
  /-- management firmware running; R453, 16; reset 0 -/
  fwRun : Bool
  /-- boot ROM halted (R455 step 2); 16; reset 0 -/
  halted : Bool
  /-- boot ROM recovery; R456, 16; reset 0 -/
  recovery : Bool
  /-- FALLBACK; R470, 16; reset 0 -/
  fallback : Bool
  /-- RUNNING slot; R470, 16; reset 0 -/
  running : Byte
  /-- ACTIVE in the boot record; R458, 16; reset 0 (DESIGN CHOICE 7) -/
  active : Bool
  /-- slot A image bytes; R458, 16; reset empty (DESIGN CHOICE 7) -/
  slotA : List Byte
  /-- slot B image bytes; R458, 16; reset empty (DESIGN CHOICE 7) -/
  slotB : List Byte
  /-- slot A holds an image that passes R462 (bits 0), slot B (bit 1); kept with the flash; R470, 16; reset 1 (DESIGN CHOICE 7) -/
  slotsOk : BitVec 2
  /-- FW_VERSION of slot A; R470, 16; reset 0 (DESIGN CHOICE 7) -/
  verA : BitVec 64
  /-- FW_VERSION of slot B; R470, 16; reset 0 (DESIGN CHOICE 7) -/
  verB : BitVec 64
  /-- TESTED list of the running firmware; R463, 16; reset empty (DESIGN CHOICE 7) -/
  tested : List (BitVec 64 × BitVec 32)
  /-- policy area image bytes; R458, 16; reset empty (DESIGN CHOICE 7) -/
  polArea : List Byte
  /-- policy area marked invalid after a failed commit; R466, R470, 16; reset 0 -/
  polBad : Bool
  /-- policy area image refused at the last reset; R470, 16; reset 0 -/
  polRefused : Bool
  /-- staging area by 4 KiB sector: the bytes programmed into it, erased behind them; R466, 16; reset erased -/
  staging : NMap (List Byte)
  /-- BOOT_COUNT in the key area; 32 bits; R308, R458, 10, 16; reset 1 (DESIGN CHOICE 7) -/
  bootCountKept : BitVec 32
  /-- STAGED_LEN; 32 bits; R470, 16; reset 0 -/
  staged : Nat
  /-- configuration record, current copy; 512 bytes; R469, 16; none: neither copy valid; reset none (DESIGN CHOICE 7) -/
  config : Option (BitVec 4096)
  /-- configuration record in use since the last RESET_N; R469, 16; reset none -/
  configUse : Option (BitVec 4096)
  /-- customer key record public key; R460, 16; reset none -/
  custRec : Option (BitVec 768)
  /-- Dirty Shutdown Count per far port (health page); R342, 11; reset 0 -/
  dirtyCnt : NMap (BitVec 32)
  /-- the health page's copy in force; R383, R458, 13, 16; reset empty (DESIGN CHOICE 7) -/
  health : Health
  /-- the health page's other copy; R383, R458, 13, 16; reset none (DESIGN CHOICE 7) -/
  healthOld : Option Health
  /-- GENERATION of the boot record's current copy; 32 bits; R458, 16; reset 0 (DESIGN CHOICE 7) -/
  bootGen : BitVec 32
  /-- GENERATION and ACTIVE of the boot record's other copy; R458, 16; reset none (DESIGN CHOICE 7) -/
  bootOld : Option (BitVec 32 × Bool)
  /-- configuration record, the other copy; R458, R469, 16; reset none (DESIGN CHOICE 7) -/
  configOld : Option (BitVec 4096)
  /-- flash jobs not yet done, oldest first; at most one operation is outstanding; R457, 16; reset empty -/
  flash : List FlashJob
  /-- a drain cause in BOOT waits for the flash; R326, 11; reset 0 -/
  drainInBoot : Bool
  /-- the training of R455 step 6 has not been started since RESET_N; R455, R467, 16; reset 1 -/
  cold : Bool
  /-- what the next firmware start is: 0 a boot after RESET_N, 1 step 4 of a warm reset, 2 a management restart, 3 a boot restarted at step 4 of R455;
  R455, R456, R467, R473, R474, 16; reset 0 -/
  start : Nat
deriving DecidableEq, Repr

/-- What a replay sets aside at REPLAY_START and puts back when it ends or a drain ends it (R493, R496). -/
structure Saved where
  cache : Cache
  links : Links
  regions : NMap (BitVec 320)
  slices : NMap Slice
  combine : Byte
  snpTo : BitVec 14
  farTo : BitVec 20
deriving DecidableEq, Repr

/-- Recorder and replay (17). -/
structure Rec where
  /-- STATE 0-3; R498, 17; reset 0 -/
  st : Byte
  /-- CONFIG: [0] HEADER [1] REPLAYABLE [2] WRAP [3] STOP_ON_ERROR; R485, 17; reset 0 -/
  cfg : BitVec 4
  /-- configured at least once; R497, 17; reset 0 -/
  configured : Bool
  /-- STOP_REASON; R498, 17; reset 0xFF -/
  reason : Byte
  /-- trace region; R485, 17; reset 0 -/
  region : Nat
  /-- LIMIT in lines; R485, 17; reset 0 -/
  limit : Nat
  /-- START_INDEX; R498, 17; reset 0 -/
  startIdx : Nat
  /-- RECORDS; R498, 17; reset 0 -/
  records : Nat
  /-- units written so far; R485, 17; reset 0 -/
  units : Nat
  /-- LINES_WRITTEN; R498, 17; reset 0 -/
  lines : Nat
  /-- trace staging, oldest first, in bytes; R491, 17; reset empty -/
  staging : List Byte
  /-- STAGING_PEAK; R498, 17; reset 0 -/
  peak : Nat
  /-- T0; R498, 17; reset 0 -/
  t0 : Nat
  /-- POISONED_LINES; R498, 17; reset 0 -/
  poisoned : Nat
  /-- cache sets, directory sets and tag-block cache sets touched since T0; R488, 17; reset empty -/
  touched : List (Nat × Nat × Nat)
  /-- replay STATE 0-2; R498, 17; reset 0 -/
  rSt : Byte
  /-- END_REASON; R498, 17; reset 0 -/
  rReason : Byte
  /-- SLICE of the divergence; R498, 17; reset 0 -/
  rSlice : Byte
  /-- MISMATCH; R498, 17; reset 0 -/
  rMis : Byte
  /-- CYCLE; R498, 17; reset 0 -/
  rCycle : Nat
  /-- RECORDS injected or compared; R498, 17; reset 0 -/
  rRecs : Nat
  /-- records left to replay; R493, 17; reset 0 -/
  rLeft : Nat
  /-- RECORD_INDEX; R498, 17; reset 0 -/
  rIndex : Nat
  /-- EXPECTED descriptor; R498, 17; reset 0 -/
  rExp : BitVec 128
  /-- EXPECTED_DIGEST; R498, 17; reset 0 -/
  rExpD : BitVec 64
  /-- PRODUCED descriptor; R498, 17; reset 0 -/
  rGot : BitVec 128
  /-- PRODUCED_DIGEST; R498, 17; reset 0 -/
  rGotD : BitVec 64
  /-- STALL_CYCLES; R498, 17; reset 0 -/
  rStall : Nat
  /-- outputs the slices produced in the replay cycle, not yet compared; R494, 17; reset empty -/
  rOut : List (Nat × BitVec 128 × BitVec 64)
  /-- the clean-up of a replay ended by DRAIN is due at RESUME; R496, 17; reset 0 -/
  rClean : Bool
  /-- replay cycle count of the slices; R493, 17; reset 0 -/
  rNow : Nat
  /-- T0 count of the recording that runs; R493, 17; reset 0 -/
  rT0 : Nat
  /-- what the running replay has set aside; R493, 17; reset none -/
  saved : Option Saved
deriving DecidableEq, Repr

/-- Ageing (18). -/
structure Age where
  /-- CORE_BIN 0-3 (health page); R502, 18; reset 0 (DESIGN CHOICE 7) -/
  bin : BitVec 2
  /-- bin planned, to be switched to; R502, 18; reset 0 -/
  binPlan : BitVec 2
  /-- VID code 0-20; R504, 18; reset 10 -/
  vid : Nat
  /-- planned VID code (health page); R504, 18; reset 10 (DESIGN CHOICE 7) -/
  vidPlan : Nat
  /-- VID has reached the code stored in the health page since RESET_N; R514, 18; reset 0 -/
  vidOn : Bool
  /-- MEASURING; R514, 18; reset 0 -/
  measuring : Bool
  /-- reason of the cycle in progress or deferred; R509, 18; reset 0 -/
  why : Byte
  /-- a cycle is deferred until BYPASS or CACHED; R506, 18; reset 0 -/
  deferred : Bool
  /-- last reason; R515, 18; reset 0 -/
  reason : Byte
  /-- S in ps at the last cycle; R515, 18; reset 0 -/
  slack : Int
  /-- retraining interval in ms (health page); R508, 18; reset 100 -/
  retrain : Nat
  /-- planned cache-channel rate (health page); R507, 18; reset 0 -/
  ratePlan : BitVec 2
  /-- narrowest eye of each channel at its last retraining, 1/1,000 UI; R506, 18; reset 1,000 (DESIGN CHOICE 3) -/
  eyes : NMap Nat
  /-- narrowest eye at the last cycle; R515, 18; reset 0 -/
  eye : Nat
  /-- re-plans since first boot (health page); R515, 18; reset 0 -/
  replans : BitVec 64
  /-- Thyme history ring of 256 records (health page): bin, reason, VID, slack; R509, 18; reset empty -/
  history : List (BitVec 2 × Byte × Nat × Int)
  /-- hours last written to the health page; R506, 18; reset 0 -/
  hoursSaved : BitVec 32
  /-- MARGIN_LOW of the far ports FP0-FP3 (health page); 4 bits; R507, 18; reset 0 -/
  farLow : BitVec 4
  /-- core clocks spent at level 1 or above since RESET_N; R515, 18; reset 0 -/
  throttled : BitVec 64
deriving DecidableEq, Repr

/-- The whole machine. -/
structure State where
  /-- AO domain; 08, 10, 11, 16, 18 -/
  ao : Ao
  /-- triplicated fields; R363, R433, 13, 15 -/
  trip : Trips
  /-- register space; 15, 17, 18 -/
  regs : Regs
  /-- control port; 14 -/
  cp : Cp
  /-- region table, 1,024 entries of 320 bits; R23, R25, 02; reset all 0 -/
  regions : NMap (BitVec 320)
  /-- system cache, partitions, prefetch; 03, 04 -/
  cache : Cache
  /-- policy image; 05 -/
  pol : Pol
  /-- ports, far ports, writes; 06, 07, 08 -/
  links : Links
  /-- home slices HS0-HS7; 03, 04, 05, 07, 08 -/
  slices : NMap Slice
  /-- streams and seal log; 09, 10 -/
  str : Str
  /-- keys and roles; 10 -/
  keys : Keys
  /-- drain and warm reset; 08, 11 -/
  drain : Drain
  /-- regulation; 12 -/
  regl : Regl
  /-- errors; 13 -/
  err : Err
  /-- boot and flash; 16 -/
  boot : Boot
  /-- recorder and replay; 17 -/
  rec_ : Rec
  /-- ageing; 18 -/
  age : Age
  /-- core-cycle count; R147, R489, 05, 17; reset 0 (DESIGN CHOICE 3) -/
  cycle : Nat
  /-- the model's own: next identifier of a transaction, write, request or command; reset 0 (DESIGN CHOICE 2) -/
  nextId : Nat
  /-- the model's own: counter the free values are drawn at; reset 0 (DESIGN CHOICE 4) -/
  free : Nat
  /-- the model's own: what the hub has given to the outside, oldest first; reset empty (DESIGN CHOICE 2) -/
  out : List Out
  /-- the queue of waiting commands, first in first out; reset empty -/
  pending : List Instr
deriving DecidableEq, Repr

/-- Three equal copies. -/
def Trip.all {n : Nat} (v : BitVec n) : Trip n := ⟨v, v, v⟩

/-- A drain report as AO power-up leaves it (R341). -/
def Report.init : Report where
  cause := 0xFF
  step := 0
  flags := 0
  gpfFailed := 0
  dead := 0
  boot := 0
  entry := 0
  doneT := 0
  flushed := 0
  lost := 0
  manifest := 0
  leaves := 0
  noData := 0

/-- A FIFO after reset (R447). -/
def Fifo.init : Fifo := ⟨[], 0, 0, 0, false, false, false⟩

/-- A port after RESET_N, before the boot reads its configuration (R205, R207). -/
def Port.init : Port where
  link := 0
  hold := 0
  rate := 0
  width := 0
  rev := 0
  cfg := ⟨false, 0, 0, 0, 0⟩
  cfgNext := ⟨false, 0, 0, 0, 0⟩
  peerId := 0
  peerSize := 0
  gotParam := false
  gotAck := none
  txSeq := 0
  replay := []
  replayFrom := none
  noProg := 0
  rxE := 0
  inRetry := false
  asm := []
  recs := []
  inRec := false
  crcErrors := 0
  replays := 0
  recoveries := 0
  ackTimeouts := 0
  txCr := []
  crIn := []
  rxCr := []
  crOut := []
  crOwe := []
  freed := []
  rxReq := []
  rxDat := []
  txQ := []
  frzHdr := 0
  frzKind := 0
  frzTime := 0
  frzLater := 0
  opn := []
  fences := []
  lostAll := 0
  lostDur := 0
  lostDev := 0
  lostReg := []
  remoteWr := []
  splits := []
  fenceAt := []
  lateWb := []
  dets := []
  detClk := 0
  cand := []
  upTag := 0
  upEv := []
  upQ := []
  upFn := []
  flitT := 0
  lostLines := 0
  lossDue := false
  purge := false
  marginLow := false
  tags := []
  lowGone := none
  endedTags := []
  rateCap := 3

/-- A sequencer after reset (R132, R151); its memories are 0 until an image is loaded (DESIGN CHOICE, log 3). -/
def Seq.init : Seq where
  g := []
  p := []
  imem := []
  dmem := []
  pc := 0
  fbuf := none
  target := none
  slot := false
  pend := []
  clk := 0
  lastEnd := 0
  lastIssue := 0
  fresh := false
  issued := 0
  run := none
  vq := []
  uq := []
  rot := 0
  emits := 0

/-- A slice after reset. -/
def Slice.init : Slice where
  inq := []
  rr := 0
  lineQ := []
  setQ := []
  tt := []
  dirPtr := 0
  dir := []
  dirBad := []
  dirErr := []
  tbc := []
  tbcClk := 0
  lostSets := []
  lostAt := []
  jobs := []
  wb := []
  wbWait := []
  vb := []
  vbWait := []
  sb := []
  nl := []
  walkClk := 8
  dirWalk := none
  seq := Seq.init

/-- A far port after RESET_N (R353). -/
def FarPort.init : FarPort where
  enable := false
  up := false
  rate := 0
  width := 0
  active := false
  dead := false
  cap := 0
  gpf := false
  gpfDur := 0
  gpfPower := 0
  readPlan := 26000
  writePlan := 26000
  rateCap := 3

/-- An offset nothing has written (R269). -/
def OffSt.init : OffSt := ⟨false, false, false, false, 0, false, 0, false⟩

/-- A CLOSED context, all zeros (R263). -/
def Ctx.init : Ctx where
  state := 0
  sid := 0
  region := 0
  wrMask := 0
  gapPend := false
  sealN := 0
  signK := 0
  ringBase := 0
  ringLen := 0
  sealSeq := 0
  wm := 0
  hashed := 0
  sha := []
  st := []
  blocks := []
  hole := none
  nearFull := false
  failed := false
  pendF := 0
  nextSeq := 0
  nextFirst := 0
  prev := 0
  inFlight := false
  gap := none
  shutCause := 0
  shutSplit := false

/-- A disarmed notice slot (R285). -/
def Notice.init : Notice := ⟨false, 0, 0, 0, 0, false⟩

/-- A queue pair that does not exist. -/
def QP.init : QP := ⟨false, 0, 0, 0, 0, 0, 0, 0, 0, false, false, false, false, []⟩

/-- A pair without a guarantee (R350). -/
def Guar.init : Guar := ⟨0, 0, 0, 0, false, 1024, 0, false, 0⟩

/-- A tag-block cache entry that holds nothing. -/
def TbcEnt.init : TbcEnt := ⟨false, 0, false, 0⟩

/-- The AO domain at the first AO power-up with RESET_N released (R472, R475, R341). -/
def Ao.init : Ao where
  up := true
  inReset := false
  time := 0
  bootCount := 1
  firstBoot := false
  mirWb := 0
  mirDirty := 0
  mirDur := 0
  kind := 0
  modeAtEdge := 0
  ddAtEdge := false
  resetTime := 0
  lost0 := 0
  lost1 := 0
  modeMirror := 1
  modeBefore := 0
  pfwHigh := true
  drainDone := false
  thermtrip := false
  stopped := false
  rep := Report.init
  sensors := []
  tj := 0
  peak := 0
  tripped := false
  level := 0
  trips := 0
  anchor := 0x8000000000000000
  hours := 0
  hourT := 0
  tap := 1

/-- PFW_CONFIG after reset: GPF_P1_TIMEOUT 10, PFW_EN 1, FILTER 4 (R325). -/
def pfwReset : BitVec 64 := 0x0000000A00000104

/-- The triplicated fields after RESET_N (R436). -/
def Trips.init : Trips where
  mode := Trip.all 1
  lock := Trip.all 0
  freeze := Trip.all 0x1F
  budget := Trip.all 256
  pfw := Trip.all pfwReset
  key := Trip.all 0

/-- The register space after RESET_N (R429, R436, R446, R477, R514). -/
def Regs.init : Regs where
  lockViol := false
  guardFail := false
  accessErr := false
  lockViols := 0
  guardFails := 0
  accessErrs := 0
  evDropped := 0
  combine := 16
  guarMiss := 0
  qp0Sq := 0
  qp0Cq := 0
  qp0Size := 0
  qp0En := false
  fifoCtrl := 0x030000C0
  hmf := Fifo.init
  evf := Fifo.init
  zArm := false
  snpTo := 100
  farTo := 1000
  guardP := none
  latch := 0
  latchOff := none
  monCtrl := 0x1FFF
  monIeP := 0
  monIeS := 0
  monP := []
  monS := []
  monPE := []
  monSE := []
  compRd := []
  compWr := []
  thermCtrl := 0x918C8A8801

/-- The control port after RESET_N (R403, R422, R424). -/
def Cp.init : Cp where
  bme := false
  d3 := false
  qps := []
  rr := 0
  taken := []
  ahead := []
  prog := []
  eqOn := false
  eqBase := 0
  eqN := 0
  eqHead := 0
  eqTail := 0
  eqPhase := false
  eqArmed := false
  groups := 0xFF
  staged := []
  evLost := false
  evSeq := 0
  masked := 0xFFFFFFFF
  pend := 0
  held := 0
  heldDma := []
  table := []
  pcie := PcieCfg.init
  qp0Next := none

/-- The system cache after RESET_N (R92, R95, R108, R130). -/
def Cache.init : Cache where
  chans := 3
  dense := false
  trained := false
  rate := 0
  enabled := false
  invDone := false
  disabling := false
  ways := 0x3FFF
  formatted := false
  fmtRepl := 0
  fmtLog := []
  tb := []
  tbSent := []
  data := []
  check := []
  dirty := 0
  dirtyPlain := 0
  occ := []
  retSets := []
  retBanks := []
  quar := []
  walks := []
  mc := []
  map := []
  pmask := []
  nlPorts := 0xFFF
  spPorts := 0xFFF
  nlMax := 32
  spMax := 128
  spDepth := 8
  sbAge := 16
  sbClk := 0
  pfCnt := []
  bitmap := []
  patrol := 0
  refresh := []

/-- No policy image loaded yet (R455 step 6 loads one). -/
def Pol.init : Pol where
  code := []
  data := []
  entry := []
  replInit := 0
  pid := 0
  version := 0
  st := 0
  loaded := false
  stopped := false
  initLeft := 0
  fallback := false
  faultSeen := false
  cnt := []

/-- Links after RESET_N with the default hub record (R469). -/
def Links.init : Links where
  base := 0
  size := 0x3D090
  depth := 1
  ports := []
  far := []
  reqs := []
  waitq := []
  late := []
  writes := []
  stashConflicts := 0

/-- Streams after RESET_N (R263, R285, R293, R305). -/
def Str.init : Str where
  ctx := []
  holeTo := 1000
  blocks := 0
  overruns := 0
  gaps := 0
  notices := []
  log := none
  logWrite := 0
  logRead := 0
  unpersisted := []
  items := []
  lowPosted := false

/-- Keys of a part with an empty key area (R316). -/
def Keys.init : Keys where
  identPub := 0
  identPriv := 0
  sealPub := 0
  sealPriv := 0
  serial := 0
  cert := 0
  stored := 0
  wiped := false
  errState := false
  testsOk := false
  chal := []
  chalOn := 0
  roles := 0
  fails := []
  userPub := 0
  userOn := false
  tapOpen := false
  custOn := false
  cust := 0

/-- No drain. -/
def Drain.init : Drain where
  step := 0
  from_ := 0
  pfw := 0
  hashEnd := false
  streams := []
  leaves := []
  firstIdx := none
  flush := []
  flushDat := []
  extra := 0
  extraOut := []
  gpfWait := 0
  thermal := false
  warm := 0
  man := false

/-- Regulation after RESET_N (R349, R360). -/
def Regl.init : Regl where
  cap := []
  guar := []
  stalls := []
  misses := []
  admitPct := 90
  margin := 20
  window := 10
  lat := []
  latSum := []
  deliv := []
  delivLast := []
  demand := []
  samples := 0

/-- Errors after RESET_N (R392, R377, R380, R381). -/
def Err.init : Err where
  log := []
  wr := 0
  rd := 0
  ovf := false
  mirror := none
  cnt := []
  scrub := 24
  ceLimit := 8
  ueLimit := 32
  ue := []
  rlSets := []
  rlBanks := []
  rlGen := 0
  rlPop := 0
  inj := none

/-- Boot and flash of the part the model stands for (log 7). -/
def Boot.init : Boot where
  small := false
  stepping := 0x11
  serial := 0
  fwRun := false
  halted := false
  recovery := false
  fallback := false
  running := 0
  active := false
  slotA := []
  slotB := []
  slotsOk := 1
  verA := 0
  verB := 0
  tested := []
  polArea := []
  polBad := false
  polRefused := false
  staging := []
  bootCountKept := 1
  staged := 0
  config := none
  configUse := none
  custRec := none
  dirtyCnt := []
  health := ⟨[], [], 0, 0, [], [], 0⟩
  healthOld := none
  bootGen := 0
  bootOld := none
  configOld := none
  flash := []
  drainInBoot := false
  cold := true
  start := 0

/-- The recorder and replay at rest (R498). -/
def Rec.init : Rec where
  st := 0
  cfg := 0
  configured := false
  reason := 0xFF
  region := 0
  limit := 0
  startIdx := 0
  records := 0
  units := 0
  lines := 0
  staging := []
  peak := 0
  t0 := 0
  poisoned := 0
  touched := []
  rSt := 0
  rReason := 0
  rSlice := 0
  rMis := 0
  rCycle := 0
  rRecs := 0
  rLeft := 0
  rIndex := 0
  rExp := 0
  rExpD := 0
  rGot := 0
  rGotD := 0
  rStall := 0
  rOut := []
  rClean := false
  rNow := 0
  rT0 := 0
  saved := none

/-- Ageing at the start of service (R502, R504, R508). -/
def Age.init : Age where
  bin := 0
  binPlan := 0
  vid := 10
  vidPlan := 10
  vidOn := false
  measuring := false
  why := 0
  deferred := false
  reason := 0
  slack := 0
  retrain := 100
  ratePlan := 0
  eyes := []
  eye := 0
  replans := 0
  history := []
  hoursSaved := 0
  farLow := 0
  throttled := 0

/-- The machine right after RESET_N is released at the first AO power-up: BOOT mode (R450, R472). -/
def State.reset : State where
  ao := Ao.init
  trip := Trips.init
  regs := Regs.init
  cp := Cp.init
  regions := []
  cache := Cache.init
  pol := Pol.init
  links := Links.init
  slices := []
  str := Str.init
  keys := Keys.init
  drain := Drain.init
  regl := Regl.init
  err := Err.init
  boot := Boot.init
  rec_ := Rec.init
  age := Age.init
  cycle := 0
  nextId := 0
  free := 0
  out := []
  pending := []

end Sys2Proof.Machine
end

