-- ==== Sys2Proof/Machine/Flags.lean ====
section
/-! DEFINITION. Modes, votes, status flags, counters, interrupts, events and error records: what the rest of the hub raises. -/
namespace Sys2Proof.Machine

/-- The voted value of a triplicated field; `d` where all three copies differ (R363). -/
def Trip.vote {n : Nat} (d : BitVec n) (t : Trip n) : BitVec n :=
  if t.a = t.b then t.a else if t.a = t.c then t.a else if t.b = t.c then t.b else d
/-- The current mode: 0 RESET, 1 BOOT, 2 BYPASS, 3 CACHED, 4 REPLAY, 5 DRAIN (R449, R363). -/
def State.mode (s : State) : BitVec 3 := s.trip.mode.vote s.ao.modeMirror
/-- REGION_LOCK is set (R43, R363). -/
def State.locked (s : State) : Bool := s.trip.lock.vote 1 = 1
/-- FREEZE_MASK with its fixed bits (R385). -/
def State.freezeMask (s : State) : BitVec 5 := s.trip.freeze.vote 0x1F ||| 0x1C
/-- DURABLE_BUDGET in MiB (R283). -/
def State.budget (s : State) : Nat := (s.trip.budget.vote 1).toNat
/-- PFW_CONFIG (R325). -/
def State.pfwCfg (s : State) : BitVec 64 := s.trip.pfw.vote pfwReset
/-- KEY_STATE: STATE in [1:0], APPROVED in [2] (R315); a three-way disagreement leaves STATE as stored. -/
def State.keyState (s : State) : BitVec 3 := s.trip.key.vote (s.keys.stored.setWidth 3 ||| (s.trip.key.a &&& 4))
/-- APPROVED (R318). -/
def State.approved (s : State) : Bool := bit s.keyState 2

/-- Agent ports of the device (R1, R2). -/
def State.nPorts (s : State) : Nat := if s.boot.small then 8 else 12
/-- Far ports of the device (R1, R2). -/
def State.nFar (s : State) : Nat := if s.boot.small then 2 else 4
/-- Cache channels of the device (R1, R2). -/
def State.nChan (s : State) : Nat := if s.boot.small then 16 else 32

/-- An agent port. -/
def State.port (s : State) (p : Nat) : Port := NMap.get Port.init s.links.ports p
/-- Change an agent port. -/
def State.updPort (s : State) (p : Nat) (f : Port → Port) : State := { s with links.ports := NMap.upd Port.init s.links.ports p f }
/-- A far port. -/
def State.farP (s : State) (p : Nat) : FarPort := NMap.get FarPort.init s.links.far p
/-- Change a far port. -/
def State.updFar (s : State) (p : Nat) (f : FarPort → FarPort) : State := { s with links.far := NMap.upd FarPort.init s.links.far p f }
/-- A home slice. -/
def State.slice (s : State) (n : Nat) : Slice := NMap.get Slice.init s.slices n
/-- Change a home slice. -/
def State.updSlice (s : State) (n : Nat) (f : Slice → Slice) : State := { s with slices := NMap.upd Slice.init s.slices n f }
/-- A stream context. -/
def State.ctx (s : State) (n : Nat) : Ctx := NMap.get Ctx.init s.str.ctx n
/-- Change a stream context. -/
def State.updCtx (s : State) (n : Nat) (f : Ctx → Ctx) : State := { s with str.ctx := NMap.upd Ctx.init s.str.ctx n f }
/-- A queue pair. -/
def State.qp (s : State) (n : Nat) : QP := NMap.get QP.init s.cp.qps n
/-- Change a queue pair. -/
def State.updQp (s : State) (n : Nat) (f : QP → QP) : State := { s with cp.qps := NMap.upd QP.init s.cp.qps n f }
/-- A sequencer. -/
def State.seq (s : State) (n : Nat) : Seq := (s.slice n).seq
/-- Change a sequencer. -/
def State.updSeq (s : State) (n : Nat) (f : Seq → Seq) : State := s.updSlice n (fun h => { h with seq := f h.seq })
/-- A fresh identifier. -/
def State.fresh (s : State) : Nat × State := (s.nextId, { s with nextId := s.nextId + 1 })
/-- Give something to the outside. -/
def State.put (s : State) (o : Out) : State := { s with out := s.out ++ [o] }
/-- A free value: the counter it is drawn at, advanced. -/
def State.draw (s : State) : Nat × State := (s.free, { s with free := s.free + 1 })

/-- Add to a 64-bit counter of a counter group; it wraps (R439). -/
def cntAdd (m : NMap (BitVec 64)) (k n : Nat) : NMap (BitVec 64) := NMap.upd 0 m k (· + BitVec.ofNat 64 n)
/-- Count in the error counters of R397. -/
def cntErr (k n : Nat) (s : State) : State := { s with err.cnt := cntAdd s.err.cnt k n }
/-- Count in the prefetch counters of R131. -/
def cntPf (k n : Nat) (s : State) : State := { s with cache.pfCnt := cntAdd s.cache.pfCnt k n }
/-- Count in the sequencer counters of R160. -/
def cntPol (k n : Nat) (s : State) : State := { s with pol.cnt := cntAdd s.pol.cnt k n }

/-- LOCK_VIOLATION and its counter (R434). -/
def lockViolation (s : State) : State := { s with regs.lockViol := true, regs.lockViols := s.regs.lockViols + 1 }
/-- GUARD_FAIL and its counter, the pending value gone (R432). -/
def guardFailed (s : State) : State := { s with regs.guardFail := true, regs.guardFails := s.regs.guardFails + 1, regs.guardP := none }
/-- ACCESS_ERR and its counter (R427). -/
def badAccess (s : State) : State := { s with regs.accessErr := true, regs.accessErrs := s.regs.accessErrs + 1 }

/-- Host DMA and messages are stopped (R403). -/
def State.dmaOff (s : State) : Bool := !s.cp.bme || s.cp.d3
/-- A vector is masked by its table entry, by Function Mask, or, as the model has it, by MSI-X Enable being clear (R405; log 121). -/
def vecMasked (s : State) (v : Nat) : Bool := bit s.cp.masked v || s.cp.pcie.msixMask || !s.cp.pcie.msixOn
/-- Send the message of an MSI-X vector: pending while masked, held while Bus Master Enable is clear (R403, R405). -/
def sendMsix (v : Nat) (s : State) : State :=
  if vecMasked s v then { s with cp.pend := s.cp.pend ||| BitVec.ofNat 32 (2 ^ v) }
  else if s.dmaOff then { s with cp.held := s.cp.held ||| BitVec.ofNat 32 (2 ^ v) }
  else let e := NMap.get (0, 0) s.cp.table v; s.put (.msix v e.1 e.2)

/-- A count of 16 bits that stops at 0xFFFF (R447). -/
def satInc (c : BitVec 16) : BitVec 16 := if c = 0xFFFF then c else c + 1
/-- The Host Message FIFO (false) or the Event FIFO (true). -/
def State.fifo (s : State) (e : Bool) : Fifo := if e then s.regs.evf else s.regs.hmf
/-- Replace a FIFO. -/
def State.setFifo (s : State) (e : Bool) (f : Fifo) : State := if e then { s with regs.evf := f } else { s with regs.hmf := f }
/-- Depth of a FIFO (R444, R445). -/
def fifoDepth (e : Bool) : Nat := if e then 1024 else 256
/-- The mark in force (R446). -/
def State.fifoMark (s : State) (e : Bool) : Nat :=
  if e then min 1024 (nbits s.regs.fifoCtrl 26 16) else min 256 (nbits s.regs.fifoCtrl 8 0)
/-- Judge ABOVE on the present level and mark (R448). -/
def judgeFifo (e : Bool) (s : State) : State :=
  let f := s.fifo e
  let ab := decide (s.fifoMark e ≤ f.words.length)
  let cr := ab && !f.above && decide (s.fifoMark e ≠ 0)
  let s' := s.setFifo e { f with above := ab, crossed := f.crossed || cr, crossings := if cr then satInc f.crossings else f.crossings }
  if cr && !f.crossed && bit s.regs.fifoCtrl (if e then 30 else 28) then sendMsix 18 s' else s'
/-- A word refused or dropped: OVERRUN and OVERRUNS (R444, R445, R448). -/
def overrunFifo (e : Bool) (s : State) : State :=
  let f := s.fifo e
  let s' := s.setFifo e { f with overrun := true, overruns := satInc f.overruns }
  if !f.overrun && bit s.regs.fifoCtrl (if e then 31 else 29) then sendMsix 18 s' else s'
/-- A FIFO word (R443). -/
def fifoWord (seq : BitVec 15) (typ : Byte) (pay : SWord) : BitVec 64 := (0 : BitVec 1) ++ seq ++ typ ++ pay
/-- Generate an Event FIFO word: its SEQ counts it even when it is dropped (R445). -/
def evfPush (typ : Byte) (pay : SWord) (s : State) : State :=
  let f := s.regs.evf
  if f.words.length < 1024 then
    judgeFifo true { s with regs.evf := { f with words := f.words ++ [fifoWord f.seq typ pay], seq := f.seq + 1 } }
  else overrunFifo true { s with regs.evf := { f with seq := f.seq + 1 } }

/-- A payload or block word with values placed at byte offsets (R420). -/
def pack (n : Nat) (l : List (Nat × Nat)) : BitVec n := BitVec.ofNat n (l.foldl (fun a p => a + p.2 <<< (8 * p.1)) 0)
/-- A block of `n` bytes with (offset, size, value) fields written little-endian into zeros (R6). -/
def block (n : Nat) (l : List (Nat × Nat × Nat)) : List Byte :=
  l.foldl (fun b p => overwrite b p.1 (leBytes p.2.1 p.2.2)) (List.replicate n 0)
/-- The bits of a word as its little-endian bytes. -/
def wordBytes (n : Nat) {w : Nat} (x : BitVec w) : List Byte := leBytes n x.toNat

/-- Event group g is enabled; group 0 always is (R424). -/
def State.groupOn (s : State) (code : BitVec 16) : Bool := nbits code 15 8 = 0 || bit s.cp.groups (nbits code 15 8)
/-- Post an event (R418-R420): staged, or dropped and counted when staging is full; one Event FIFO word for every event staged. -/
def postEvent (code : BitVec 16) (payload : List (Nat × Nat)) (s : State) : State :=
  if !s.groupOn code then s
  else
    let q := s.cp.evSeq
    if s.cp.staged.length < 256 then
      evfPush 0x01 (BitVec.ofNat 40 (code.toNat + nbits q 23 0 * 65536))
        { s with cp.evSeq := q + 1, cp.staged := s.cp.staged ++ [⟨code, q, s.ao.time, pack 128 payload⟩] }
    else { s with cp.evSeq := q + 1, cp.evLost := true, regs.evDropped := s.regs.evDropped + 1 }

/-- A regulation window starts (R357): its sums and samples are empty, and every pair is evaluated at its end. -/
def windowStart (s : State) : State :=
  { s with
    regl.latSum := [], regl.deliv := [], regl.demand := [], regl.samples := 0
    regl.guar := s.regl.guar.map (fun (e : Nat × Guar) => (e.1, { e.2 with changed := false })) }
/-- Write all three copies of MODE and the AO mirror (R363, R433). -/
def writeMode (m : BitVec 3) (s : State) : State := { s with trip.mode := Trip.all m, ao.modeMirror := m }
/-- Change the mode and post MODE_CHANGE (R450); windows restart at BYPASS or CACHED entry (R357), a deferred measurement cycle runs then
(R506), and DRAIN_DONE is deasserted in BOOT, BYPASS, CACHED and REPLAY (R327). -/
def changeMode (m : BitVec 3) (cause : Nat) (s : State) : State :=
  let s := if m = 0 || m = 5 then s else { s with ao.drainDone := false, boot.drainInBoot := false }
  let s := if m = 2 || m = 3 then windowStart s else s
  let s := if (m = 2 || m = 3) && s.age.deferred then { s with age.deferred := false, age.measuring := true } else s
  postEvent 0x0002 [(0, s.mode.toNat), (1, m.toNat), (2, cause)] (writeMode m s)

/-- AO clocks in one second (R308). -/
def secTicks : Nat := 25000000
/-- An error record as 32 bytes (R393), before it is placed. -/
def recWord (s : State) (code sev unit index flags loc det : Nat) : BitVec 256 :=
  pack 256 [(0, code), (2, sev), (3, unit), (4, index), (5, flags), (6, 1), (8, s.err.wr % 2 ^ 32), (12, s.ao.bootCount.toNat),
    (16, s.ao.time.toNat), (24, loc % 2 ^ 40), (29, det % 2 ^ 24)]
/-- A CORRECTED record folds into the newest record (R392). -/
def foldsInto (s : State) (r : BitVec 256) : Bool :=
  let n := NMap.get 0 s.err.log ((s.err.wr - 1) % 4096)
  decide (s.err.rd < s.err.wr) && nbits r 23 16 = 0 && nbits n 15 0 = nbits r 15 0 && nbits n 31 24 = nbits r 31 24 &&
    nbits n 39 32 = nbits r 39 32 && nbits n 231 192 = nbits r 231 192 && decide (s.ao.time.toNat - nbits n 191 128 < secTicks)
/-- Form an error record (R392-R394): folded, dropped and counted, or placed at ERR_WRITE. True when a new record was formed. -/
def errForm (code sev unit index flags loc det : Nat) (s : State) : State × Bool :=
  let r := recWord s code sev unit index (flags + b2n s.err.ovf) loc det
  if foldsInto s r then
    ({ s with err.log := NMap.upd 0 s.err.log ((s.err.wr - 1) % 4096) (fun n => putBits n 48 16 (min 0xFFFF (nbits n 63 48 + 1))) }, false)
  else if s.err.wr - s.err.rd ≥ 4096 then ({ cntErr 14 1 s with err.ovf := true }, false)
  else
    let s' := { s with err.log := NMap.set 0 s.err.log (s.err.wr % 4096) r, err.wr := s.err.wr + 1, err.ovf := false }
    (if sev ≥ 2 then postEvent 0x0001 [(0, s.err.wr % 2 ^ 32), (4, code), (6, sev)] s' else s', true)

end Sys2Proof.Machine
end

