-- ==== Sys2Proof/Machine/Operands.lean ====
section
/-! DEFINITION. Operand forms: the fields of command packets (R414, R417), of region entries (R25), of Walkan headers (R182-R184)
and of port configurations (R205). -/
namespace Sys2Proof

/-- Parameter bytes [off, off+n) of a command as a little-endian number (R414). -/
def Packet.par (p : Packet) (off n : Nat) : Nat := (p.params.toNat >>> (8 * off)) % 2 ^ (8 * n)
/-- Flag bit i of a command. -/
def Packet.flag (p : Packet) (i : Nat) : Bool := Machine.bit p.flags i
/-- The host address in parameter bytes 0-7. -/
def Packet.addr (p : Packet) : BitVec 64 := BitVec.ofNat 64 (p.par 0 8)
/-- Reserved parameter bytes from `used` on, flag bits outside `fl` and (with `none`) a TARGET that must be zero are not all zero (R8, R414, R417). -/
def Packet.rsv (p : Packet) (used fl : Nat) (none : Bool) : Bool :=
  decide (p.params.toNat >>> (8 * used) ≠ 0) || decide (p.flags.toNat % 128 &&& (127 - fl) ≠ 0) || (none && decide (p.target ≠ 0))
/-- The 512-bit submission entry a packet came from (R414). -/
def Packet.entry (op : Byte) (p : Packet) : BitVec 512 := p.params ++ p.target ++ p.cid ++ p.flags ++ op


end Sys2Proof

namespace Sys2Proof.Machine

/-- A host buffer that is misaligned or runs past 2^64 − 1 (R417). -/
def badBuf (addr : BitVec 64) (al len : Nat) : Bool := decide (addr.toNat % al ≠ 0) || decide (2 ^ 64 < addr.toNat + len)
/-- A region entry: five little-endian words (R25). -/
abbrev Region := BitVec 320
namespace Rg
/-- VALID -/
def valid (e : Region) : Bool := bit e 63
/-- BASE_LINE -/
def base (e : Region) : Nat := nbits e 39 0
/-- SIZE_LINES -/
def size (e : Region) : Nat := nbits e 103 64
/-- STREAM_MODE -/
def smode (e : Region) : Nat := nbits e 185 184
/-- STREAM_ID -/
def sid (e : Region) : Nat := nbits e 183 166
/-- WR_MASK bit of a port -/
def wr (e : Region) (p : Nat) : Bool := bit e (154 + p)
/-- RD_MASK bit of a port -/
def rd (e : Region) (p : Nat) : Bool := bit e (142 + p)
/-- both masks -/
def masks (e : Region) : Nat := nbits e 165 142
/-- ZT_INIT -/
def ztInit (e : Region) : Bool := bit e 135
/-- ZERO_TRACK -/
def zt (e : Region) : Bool := bit e 134
/-- COMBINE -/
def comb (e : Region) : Bool := bit e 133
/-- EARLY_ACK -/
def early (e : Region) : Bool := bit e 132
/-- DURABLE -/
def dur (e : Region) : Bool := bit e 131
/-- POLICY: 0 write-back, 1 write-through, 2 uncached, 3 device -/
def pol (e : Region) : Nat := nbits e 129 128
/-- TARGET_KIND 1: remote home hub -/
def remote (e : Region) : Bool := bit e 255
/-- REMOTE_HUB -/
def hub (e : Region) : Nat := nbits e 253 236
/-- INTERLEAVE -/
def il (e : Region) : Nat := nbits e 235 234
/-- interleave ways (R32) -/
def ways (e : Region) : Nat := 2 ^ il e
/-- FAR_PORT -/
def fp (e : Region) : Nat := nbits e 233 232
/-- FAR_OFFSET -/
def off (e : Region) : Nat := nbits e 231 192
/-- ZT_BASE -/
def ztb (e : Region) : Nat := nbits e 295 256
/-- bitmap lines (R47) -/
def ztn (e : Region) : Nat := (size e + 32767) / 32768
/-- The entry covers a line (R23). -/
def covers (e : Region) (l : Nat) : Bool := valid e && decide (base e ≤ l) && decide (l < base e + size e)
/-- far port and far line of a covered line (R32) -/
def far (e : Region) (l : Nat) : Nat × Nat :=
  let rel := l - base e
  let g := rel / 32
  (fp e + g % ways e, off e + g / ways e * 32 + rel % 32)
end Rg

namespace Hd
/-- OPCODE -/
def op (h : Slot) : Nat := nbits h 7 0
/-- SRC -/
def src (h : Slot) : BitVec 18 := bits h 25 8
/-- DST -/
def dst (h : Slot) : BitVec 18 := bits h 43 26
/-- TAG -/
def tag (h : Slot) : BitVec 12 := bits h 55 44
/-- LINE -/
def line (h : Slot) : LineNo := bits h 95 56
/-- TC -/
def tc (h : Slot) : BitVec 3 := bits h 98 96
/-- PRIV -/
def priv (h : Slot) : Bool := bit h 99
/-- AUX -/
def aux (h : Slot) : BitVec 18 := bits h 117 100
/-- SPLIT -/
def split (h : Slot) : BitVec 2 := bits h 119 118
/-- SPLIT_ID -/
def splitId (h : Slot) : BitVec 6 := bits h 125 120
/-- POISON of a DAT message -/
def psn (h : Slot) : Bool := bit h 100
/-- GRANT of SnpData -/
def grant (h : Slot) : Nat := nbits h 103 101
/-- KIND of a Fence -/
def kind (h : Slot) : BitVec 2 := bits h 101 100
/-- STATUS of Comp and FenceDone -/
def status (h : Slot) : Byte := bits h 107 100
/-- The write carries a stream identifier (R184): WriteInvFull or WriteInvPartial with TC STW (2). -/
def isStream (h : Slot) : Bool := decide (op h = 0x14 || op h = 0x15) && decide (tc h = 2)
/-- A header built from its fields. -/
def mk (op : Nat) (src dst : BitVec 18) (tag : BitVec 12) (line : LineNo) (tc : BitVec 3) (aux : BitVec 18) : Slot :=
  BitVec.ofNat 128 (op + src.toNat <<< 8 + dst.toNat <<< 26 + tag.toNat <<< 44 + line.toNat <<< 56 + tc.toNat <<< 96 + aux.toNat <<< 100)
/-- Message class: 0 REQ, 1 SNP, 2 RSP, 3 DAT (R186). -/
def cls (op : Nat) : Nat := if op < 0x20 then 0 else if op < 0x60 then 1 else if op < 0x80 then 2 else 3
/-- Length in slots (R186). -/
def len (op : Nat) : Nat := if op = 0x8C then 10 else if 0x80 ≤ op && op < 0xF0 then 9 else 1
end Hd

/-- A PORT_CONFIG parameter block of 16 bytes (R205): the configuration it stores. -/
def portCfgOf (b : Nat) : PortCfg :=
  ⟨b % 2 = 1, BitVec.ofNat 2 (b / 2), BitVec.ofNat 18 (b >>> 32), BitVec.ofNat 18 (b >>> 64), BitVec.ofNat 2 (b >>> 96)⟩
/-- A PORT_CONFIG block holds a reserved encoding or a nonzero reserved bit (R205, R8). -/
def portCfgBad (b : Nat) : Bool :=
  decide ((b >>> 1) % 4 = 3) || decide ((b >>> 3) % 2 ^ 29 ≠ 0) || decide ((b >>> 50) % 2 ^ 14 ≠ 0) || decide ((b >>> 82) % 2 ^ 14 ≠ 0) ||
    decide (2 ≤ (b >>> 96) % 4) || decide ((b >>> 98) % 2 ^ 30 ≠ 0)

end Sys2Proof.Machine
end

