-- ==== Sys2Proof/Machine/Recorder.lean ====
section
/-! DEFINITION. Rosemary: records, their capture at the slices, and the end of a recording (R484-R491). -/
namespace Sys2Proof.Machine

/-- Bytes of the trace staging (R491). -/
def recFull : Nat := 4194304
/-- A recording is REPLAYABLE (R485). -/
def State.replayable (s : State) : Bool := bit s.rec_.cfg 1
/-- A recording is running. -/
def State.recording (s : State) : Bool := s.rec_.st = 2
/-- REC_START waits for its start point with ingress, prefetchers and walks held (R489). -/
def State.quiescing (s : State) : Bool := s.rec_.st = 1
/-- A record head (R486). -/
def recHead (s : State) (unit sl kind len w1 : Nat) : List Byte :=
  leBytes 8 (kind + 16 * len + 256 * sl + 2048 * unit + 65536 * (s.cycle - s.rec_.t0)) ++ leBytes 8 w1
/-- A record joins the staged ones (R491). -/
def recRaw (unit sl kind w1 : Nat) (body : List Byte) (s : State) : State :=
  let b := s.rec_.staging ++ recHead s unit sl kind (body.length / 16) w1 ++ body
  { s with rec_.staging := b, rec_.records := s.rec_.records + 1, rec_.peak := max s.rec_.peak (min recFull b.length) }
/-- The recording stops (R491): a STOP record where one can still be written, which full staging takes in as it drains; staged records that cannot be
spilled any more are discarded. -/
def recStop (reason : Nat) (s : State) : State :=
  if s.rec_.st ≠ 2 then s
  else
    let dry := reason = 1 || reason = 3 || reason = 5
    let s := if dry then s else recRaw 20 0 10 0 (leBytes 16 reason) s
    postEvent 0x0702 [(0, reason), (8, s.rec_.records)] { s with
      rec_.st := 3, rec_.reason := BitVec.ofNat 8 reason, rec_.staging := if dry then [] else s.rec_.staging }
/-- Capture a record (R484): CYCLE at its end stops the recording, and so does full staging. -/
def recCap (unit sl kind w1 : Nat) (body : List Byte) (s : State) : State :=
  if !s.recording then s
  else if 2 ^ 48 - 1 ≤ s.cycle - s.rec_.t0 then recStop 7 s
  else if recFull < s.rec_.staging.length + 16 + body.length then recStop 2 s
  else recRaw unit sl kind w1 body s
/-- The digest of a payload (R488). -/
def digest (b : List Byte) : Nat := if b.isEmpty then 0 else (crc64 b).toNat
/-- A message enters a slice (R484, R488): in full form with its return status and payload, in header form with its digest. -/
def capIn (unit sl : Nat) (d : Slot) (status : Nat) (payload : List Byte) (s : State) : State :=
  if bit s.rec_.cfg 0 then recCap unit sl 2 (digest payload) (leBytes 16 d.toNat) s
  else recCap unit sl 1 status (leBytes 16 d.toNat ++ payload) s
/-- A slice sends a message (R484): recorded in header form, after a HOLD record where the crossbar holds it for a clock; in REPLAY mode both are kept
to be compared (R494), a hold as an entry of zeros. -/
def capOut (unit sl : Nat) (d : Slot) (payload : List Byte) (s : State) : State :=
  if s.mode = 4 then { s with rec_.rOut := s.rec_.rOut ++ (if Config.crossbarHolds sl d s.rec_.rCycle then [(sl, 0, 0)] else []) ++
    [(sl, d, BitVec.ofNat 64 (digest payload))] }
  else if s.recording then
    recCap unit sl 3 (digest payload) (leBytes 16 d.toNat) (if Config.crossbarHolds sl d (s.cycle - s.rec_.t0) then recCap 22 sl 7 0 [] s else s)
  else s
/-- An internal descriptor (R487). -/
def intDesc (op line tag aux : Nat) : Slot := Hd.mk op 0 0 (BitVec.ofNat 12 tag) (BitVec.ofNat 40 line) 0 (BitVec.ofNat 18 aux)
/-- The TT index a descriptor carries for a line's open transaction (R487; log 38). -/
def ttTag (s : State) (sl : Nat) (l : LineNo) : Nat := (Config.ttIndex ((s.slice sl).tt.findIdx (fun t => t.line = l))).toNat
/-- The payload of a Walkan message as carried: byte-mask slot, then data (R185, R488). -/
def carried (h mask : Slot) (d : Line) : List Byte :=
  if Hd.op h = 0x8C then wordBytes 16 mask ++ wordBytes 128 d else if 1 < Hd.len (Hd.op h) then wordBytes 128 d else []
/-- Walkan opcodes that ports and not slices send and take: Fence, FenceDone and FrozenAbort (R200, R251). -/
def portOp (op : Nat) : Bool := op = 0x19 || op = 0x67 || op = 0x68
/-- A Walkan message enters its line's home slice from a port. -/
def capMsg (p : Nat) (h mask : Slot) (d : Line) (s : State) : State :=
  if portOp (Hd.op h) || !s.recording then s else capIn p (homeSlice (Hd.line h)) h 0 (carried h mask d) s
/-- A slice sends a Walkan message to a port. -/
def capTx (p : Nat) (h mask : Slot) (d : Line) (s : State) : State :=
  if portOp (Hd.op h) then s else capOut p (homeSlice (Hd.line h)) h (carried h mask d) s
/-- A configuration change that reaches every slice (R484, R487). The spec gives a CTRL record no payload layout: it is the command's entry, followed by
zeros to 128 bytes (DESIGN CHOICE, log 26). -/
def capCtrl (e : BitVec 512) (s : State) : State :=
  if !s.recording then s
  else (List.range 8).foldl (fun s sl => capIn 20 sl (intDesc 0xC8 0 0 (Config.ctrlSub (bits e 7 0)).toNat) 0 (leBytes 128 e.toNat) s) s
/-- What a command's walk changes in the slices as it ends, and what a register write changes, as the entry of a CTRL record: opcode, FLAGS bit 6, a number
and a value; a register's has opcode 0xFE, which no command has (log 26). -/
def ctrlEntry (op : Byte) (n v : Nat) : BitVec 512 := BitVec.ofNat 512 (op.toNat + 2 ^ 14 + n % 2 ^ 32 * 2 ^ 32 + v % 2 ^ 64 * 2 ^ 64)
/-- A walk or maintenance line enters its slice (R484, R487): its payload is one slot, opcode, form and place of the visit (log 26). -/
def capWalk (op : Byte) (sl : Nat) (l : LineNo) (form place cmd : Nat) (s : State) : State :=
  if !s.recording then s
  else capIn 20 sl (intDesc 0xC8 l.toNat 0 (Config.ctrlSub op).toNat) 0 (block 16 [(0, 1, op.toNat), (1, 1, form), (2, 6, place), (8, 6, cmd)]) s
/-- Commands that change configuration the slices hold as they start: modes, regions, the cache and its ways, partitions, prefetch settings, policy. -/
def ctrlOps : List Byte := [0x05, 0x10, 0x11, 0x12, 0x21, 0x22, 0x23, 0x30, 0x31, 0x33, 0x35, 0x37, 0x39]

end Sys2Proof.Machine
end

