-- ==== Sys2Proof/Machine/Ops.lean ====
section
/-! DEFINITION. The shared operations: populations, regions and far requests, error records with their mirror, completions, host writes, and
the checks that every command packet passes. -/
namespace Sys2Proof.Machine

namespace St
/-- OK -/
abbrev ok : BitVec 16 := 0x0000
/-- UNTESTED_COMBINATION -/
abbrev untested_combination : BitVec 16 := 0x0001
/-- UNCORRECTABLE -/
abbrev uncorrectable : BitVec 16 := 0x0002
/-- INVALID_OPCODE -/
abbrev invalid_opcode : BitVec 16 := 0x0101
/-- INVALID_PARAM -/
abbrev invalid_param : BitVec 16 := 0x0102
/-- RANGE_EXCEEDS -/
abbrev range_exceeds : BitVec 16 := 0x0103
/-- NO_REGION -/
abbrev no_region : BitVec 16 := 0x0104
/-- REGION_OVERLAP -/
abbrev region_overlap : BitVec 16 := 0x0105
/-- FAR_ALIAS -/
abbrev far_alias : BitVec 16 := 0x0106
/-- TARGET_RANGE -/
abbrev target_range : BitVec 16 := 0x0107
/-- RING_OVERLAP -/
abbrev ring_overlap : BitVec 16 := 0x0108
/-- DURABLE_REFUSED -/
abbrev durable_refused : BitVec 16 := 0x0109
/-- IMAGE_INVALID -/
abbrev image_invalid : BitVec 16 := 0x010A
/-- ABI_MISMATCH -/
abbrev abi_mismatch : BitVec 16 := 0x010B
/-- HOST_READ_FAILED -/
abbrev host_read_failed : BitVec 16 := 0x010C
/-- STEPPING_MISMATCH -/
abbrev stepping_mismatch : BitVec 16 := 0x010D
/-- MODE_REFUSED -/
abbrev mode_refused : BitVec 16 := 0x0201
/-- REGION_BUSY -/
abbrev region_busy : BitVec 16 := 0x0202
/-- REGION_LOCKED -/
abbrev region_locked : BitVec 16 := 0x0203
/-- POPULATION_INVALID -/
abbrev population_invalid : BitVec 16 := 0x0204
/-- NOT_INVALIDATED -/
abbrev not_invalidated : BitVec 16 := 0x0205
/-- SET_RETIRED -/
abbrev set_retired : BitVec 16 := 0x0206
/-- PORT_ACTIVE -/
abbrev port_active : BitVec 16 := 0x0207
/-- STREAM_BUSY -/
abbrev stream_busy : BitVec 16 := 0x0208
/-- STREAM_STATE -/
abbrev stream_state : BitVec 16 := 0x0209
/-- NO_GAP -/
abbrev no_gap : BitVec 16 := 0x020A
/-- LOG_BUSY -/
abbrev log_busy : BitVec 16 := 0x020B
/-- DRAIN_BUSY -/
abbrev drain_busy : BitVec 16 := 0x020C
/-- THERMAL -/
abbrev thermal : BitVec 16 := 0x020D
/-- PFW_LOW -/
abbrev pfw_low : BitVec 16 := 0x020E
/-- NOT_DEAD -/
abbrev not_dead : BitVec 16 := 0x020F
/-- RETIRE_FULL -/
abbrev retire_full : BitVec 16 := 0x0210
/-- INJECT_BUSY -/
abbrev inject_busy : BitVec 16 := 0x0211
/-- OVERCOMMIT -/
abbrev overcommit : BitVec 16 := 0x0212
/-- QUEUE_EXISTS -/
abbrev queue_exists : BitVec 16 := 0x0213
/-- NO_QUEUE -/
abbrev no_queue : BitVec 16 := 0x0214
/-- BOOT_PENDING -/
abbrev boot_pending : BitVec 16 := 0x0215
/-- SLOT_ACTIVE -/
abbrev slot_active : BitVec 16 := 0x0216
/-- AUTH_REQUIRED -/
abbrev auth_required : BitVec 16 := 0x0301
/-- AUTH_FAILED -/
abbrev auth_failed : BitVec 16 := 0x0302
/-- KEY_STATE -/
abbrev key_state : BitVec 16 := 0x0303
/-- NOT_ARMED -/
abbrev not_armed : BitVec 16 := 0x0304
/-- REGION_UNLOCKED -/
abbrev region_unlocked : BitVec 16 := 0x0305
/-- SELF_TEST_FAILED -/
abbrev self_test_failed : BitVec 16 := 0x0306
/-- TAP_OPEN -/
abbrev tap_open : BitVec 16 := 0x0307
/-- INJECT_LOCKED -/
abbrev inject_locked : BitVec 16 := 0x0308
/-- NO_OFFICER_KEY -/
abbrev no_officer_key : BitVec 16 := 0x0309
/-- DURABLE_SKIPPED -/
abbrev durable_skipped : BitVec 16 := 0x0401
/-- STREAM_GAP -/
abbrev stream_gap : BitVec 16 := 0x0402
/-- DRAIN_ABORTED -/
abbrev drain_aborted : BitVec 16 := 0x0403
/-- INIT_FAILED -/
abbrev init_failed : BitVec 16 := 0x0404
/-- FAR_UNRESPONSIVE -/
abbrev far_unresponsive : BitVec 16 := 0x0405
/-- MC_RESTART -/
abbrev mc_restart : BitVec 16 := 0x0406
/-- HOST_WRITE_FAILED -/
abbrev host_write_failed : BitVec 16 := 0x0407
/-- FLASH_FAILED -/
abbrev flash_failed : BitVec 16 := 0x0408
/-- TRACE_INVALID -/
abbrev trace_invalid : BitVec 16 := 0x010E
/-- REC_ACTIVE -/
abbrev rec_active : BitVec 16 := 0x0217
/-- REPLAY_BUSY -/
abbrev replay_busy : BitVec 16 := 0x0218
/-- TRACE_MISMATCH -/
abbrev trace_mismatch : BitVec 16 := 0x0219
/-- QUIESCE_FAILED -/
abbrev quiesce_failed : BitVec 16 := 0x0409
end St

/-- Set-number width k of a trained population (R54); none when no permitted population is trained. -/
def State.popK (s : State) : Option Nat :=
  if !s.cache.trained || s.cache.chans = 3 then none else some (23 + s.cache.chans.toNat + b2n s.cache.dense)
/-- Channel bits c of the population (R54). -/
def State.popC (s : State) : Nat := 3 + s.cache.chans.toNat
/-- Sets of the population (R54), 0 when there is none. -/
def State.nSets (s : State) : Nat := match s.popK with | some k => 2 ^ k | none => 0
/-- The set of a line (R57). -/
def State.setOf (s : State) (l : LineNo) : Nat := match s.popK with | some k => setNo k l | none => homeSlice l
/-- The channel of a set (R58). -/
def State.chanOf (s : State) (set : Nat) : Nat := set % 2 ^ s.popC
/-- The bank of a set: its channel in [4:0] and bank group x 4 + bank in [8:5] (R58, R382). -/
def State.bankOf (s : State) (set : Nat) : Nat :=
  s.chanOf set + 32 * (4 * ((set >>> s.popC) % 4) + (set >>> (s.popC + 2)) % 4)
/-- A set lies among retired sets, banks and channels. -/
def State.retiredIn (s : State) (sets banks chans : List Nat) (set : Nat) : Bool :=
  sets.contains set || banks.contains (s.bankOf set) || chans.contains (s.chanOf set)
/-- A retired set (R89, R381, R382). -/
def State.retired (s : State) (set : Nat) : Bool := s.retiredIn s.cache.retSets s.cache.retBanks s.cache.quar set
/-- The POPULATION byte (R104, R383, R421). -/
def State.popByte (s : State) : Nat := s.cache.chans.toNat * 4 + (if s.cache.chans = 3 then 0 else b2n s.cache.dense)

/-- Sets a walk acts on (R97, R381, R382): a bank's, a channel's or a range of set numbers. -/
def State.walkHas (s : State) (k : Walk) (set : Nat) : Bool :=
  if k.op = 0x75 then decide (s.bankOf set = k.first) else if k.op = 0xF5 then decide (s.chanOf set = k.first)
  else decide (k.first ≤ set) && decide (set < k.first + k.count)
/-- The set is being retired: it has left allocation (R382). -/
def State.leaving (s : State) (set : Nat) : Bool := s.cache.walks.any (fun k => (k.op = 0x74 || k.op = 0x75 || k.op = 0xF5) && s.walkHas k set)
/-- Ways that serve hits: the enabled ones and those a WAY_ENABLE walk is still emptying (R95). -/
def State.hitWays (s : State) : BitVec 14 := s.cache.walks.foldl (fun m k => if k.op = 0x23 then m ||| k.mask else m) s.cache.ways
/-- A region entry by index. -/
def State.region (s : State) (i : Nat) : Region := NMap.get 0 s.regions i
/-- The valid entry that covers a line, with its index (R23). -/
def State.cover (s : State) (l : LineNo) : Option (Nat × Region) := s.regions.find? (fun e => Rg.covers e.2 l.toNat)
/-- A REGION_CLEAR past step 1 is in progress on the entry (R40). -/
def State.clearing (s : State) (i : Nat) : Bool := s.cp.prog.any (fun g => g.op = 0x11 && g.p.target.toNat = i)
/-- The entry that new requests are checked against (R36, R40 step 1). -/
def State.coverNew (s : State) (l : LineNo) : Option (Nat × Region) :=
  match s.cover l with
  | some (i, e) => if s.clearing i then none else some (i, e)
  | none => none
/-- The region index of a line, 1,023 bits of it as records carry it; 0 where none covers it. -/
def State.regionIx (s : State) (l : LineNo) : Nat := match s.cover l with | some (i, _) => i | none => 0
/-- The open entry a line number reads its far target from (R32). -/
def State.farOf (s : State) (l : LineNo) : Nat × Nat := match s.cover l with | some (_, e) => Rg.far e l.toNat | none => (0, 0)

/-- A slice sends a far request (R487); what the seal engines and the management controller send passes no slice. -/
def capFar (port : Nat) (line : LineNo) (write : Bool) (data : Line) (mask : Slot) (purp : FP) (s : State) : State :=
  let own := match purp with | .headTable => false | .mirror _ => false | .ztInit => false | .slot _ => false | _ => true
  if own && (s.recording || s.mode = 4) then
    capOut (12 + port) (homeSlice line) (intDesc (if write then 0xC5 else 0xC4) line.toNat (ttTag s (homeSlice line) line) port)
      (if write then (if mask = BitVec.allOnes 128 then [] else wordBytes 16 mask) ++ wordBytes 128 data else []) s
  else s
/-- The CXL.mem request of a far request leaves at its byte address, line number times 128 (R21); none at a DEAD port (R255) or in REPLAY (R493). -/
def cxlOut (q : FarReq) (s : State) : State :=
  if q.atIssue || s.mode = 4 then s else s.put (.cxl q.port q.write (q.fline.toNat * 128) q.mask q.data q.psn)
/-- Issue a far request (R21, R220): at a DEAD port it fails at issue; a write waits while an earlier write of its far line is outstanding. -/
def farSend (port fline : Nat) (line : LineNo) (write : Bool) (data : Line) (mask : Slot) (psn : Bool) (purp : FP) (s : State) : State × Nat :=
  let q : FarReq := ⟨s.nextId, port, BitVec.ofNat 40 fline, line, write, data, mask, psn, purp, (s.farP port).dead, s.cycle⟩
  let s := capFar port line write data mask purp { s with nextId := s.nextId + 1 }
  if write && (s.links.reqs ++ s.links.waitq).any (fun r => r.write && r.port = port && r.fline = q.fline) then
    ({ s with links.waitq := s.links.waitq ++ [q] }, q.id)
  else (cxlOut q { s with links.reqs := s.links.reqs ++ [q] }, q.id)
/-- A full-line byte mask. -/
def fullMask : Slot := BitVec.allOnes 128
/-- Bytes a mask enables. -/
def ones (m : Slot) : Nat := ((List.range 128).filter (fun i => bit m i)).length

/-- Log an error record (R392) and write it to the mirror (R395): slot i mod slots of the bound entry, 32 bytes.
A mirror write that fails at issue is logged on chip only. -/
def logErr (code sev unit index flags loc det : Nat) (s : State) : State :=
  let i := s.err.wr
  let (s', formed) := errForm code sev unit index flags loc det s
  let s' := if formed && decide (2 ≤ sev) && bit s.rec_.cfg 3 then recStop 6 s' else s'
  match s.err.mirror with
  | none => s'
  | some r =>
    if !formed then s'
    else
      let e := s.region r
      let slot := i % (4 * Rg.size e)
      let (fp, fl) := Rg.far e (Rg.base e + slot / 4)
      if (s.farP fp).dead then (errForm 0x0042 1 5 0 0 i 0 s').1
      else (farSend fp fl (BitVec.ofNat 40 (Rg.base e + slot / 4)) true (BitVec.ofNat 1024 ((NMap.get 0 s'.err.log (i % 4096)).toNat <<< (256 * (slot % 4))))
        (BitVec.ofNat 128 (0xFFFFFFFF <<< (32 * (slot % 4)))) false (.mirror i) s').1
/-- Log a parity error of a store (R375). -/
def logSram (code unit index loc : Nat) (s : State) : State :=
  logErr 0x0012 (if [2, 3, 5, 8, 11, 13].contains code then 2 else 1) unit index 0 loc code (cntErr 6 1 s)

/-- Implemented opcodes (R425). -/
def definedOps : List Nat :=
  [0, 1, 2, 3, 5, 6, 7, 8, 9, 10] ++ List.range' 0x10 6 ++ List.range' 0x20 9 ++ List.range' 0x30 10 ++ List.range' 0x40 9 ++
  List.range' 0x50 14 ++ List.range' 0x60 6 ++ List.range' 0x70 12 ++ List.range' 0x80 13 ++ List.range' 0x90 7 ++ List.range' 0xA0 3
/-- The CQ has room for one more entry (R408, R412). -/
def QP.cqRoom (q : QP) : Bool := q.on && decide ((q.cqTail + 1) % q.cqN ≠ q.cqHead)
/-- The packet's pair exists still: it was not taken before the control path was last reset (R404). -/
def State.pairOn (s : State) (p : Packet) : Bool := !bit p.qp 4 && (s.qp p.qp.toNat).on
/-- Completions of ORDERED entries of an SQ whose opcode is undefined, once every command taken before them has completed (R411, R416). -/
def undefEnds (n : BitVec 5) (s : State) : State :=
  let l := (s.cp.taken.filter (fun t => t.1 = n)).takeWhile
    (fun t => !definedOps.contains (nbits t.2 7 0) && !s.cp.prog.any (fun g => g.p.qp = n && !g.after.contains t))
  if l.isEmpty then s
  else { s with cp.taken := l.foldl (fun q t => q.erase t) s.cp.taken }.updQp n.toNat
    (fun q => { q with waiting := q.waiting ++ l.map (fun (t : BitVec 5 × BitVec 512) => ((0 : BitVec 64), (bits t.2 31 16 : BitVec 16), St.invalid_opcode)) })
/-- The completion of a command joins its pair's completions; with no such pair it is discarded (R404, R412). -/
def complete (p : Packet) (st : BitVec 16) (res : Nat) (s : State) : State :=
  if s.pairOn p then
    undefEnds p.qp (s.updQp p.qp.toNat (fun q => { q with waiting := q.waiting ++ [(BitVec.ofNat 64 res, p.cid, st)] }))
  else s
/-- A result in host memory: written, held while DMA is stopped, discarded with the control path (R402-R404). -/
def hostWrite (p : Packet) (addr : BitVec 64) (bytes : List Byte) (s : State) : State :=
  if !s.pairOn p then s
  else if s.dmaOff then { s with cp.heldDma := s.cp.heldDma ++ [(addr, bytes)] }
  else s.put (.host addr bytes)
/-- Complete with a result block: HOST_WRITE_FAILED where its write fails (R413). -/
def completeBlock (p : Packet) (bytes : List Byte) (st : BitVec 16) (res : Nat) (s : State) : State :=
  if p.writeOk then complete p st res (hostWrite p p.addr bytes s) else complete p St.host_write_failed res s

/-- Commands that run one at a time among themselves: their group (R42, R126, R157, R292, R360, R396, R465); 0 for every other. -/
def serialGroup (op : Byte) : Nat :=
  let o := op.toNat
  if 0x10 ≤ o && o ≤ 0x15 then 1 else if 0x30 ≤ o && o ≤ 0x34 then 2 else if 0x35 ≤ o && o ≤ 0x39 then 3
  else if o = 0x47 then 7 else if 0x60 ≤ o && o ≤ 0x65 then 4 else if 0x70 ≤ o && o ≤ 0x7B then 5
  else if (0x90 ≤ o && o ≤ 0x96) || o = 0x05 || o = 0x09 || o = 0x0A then 6 else 0
/-- The stream of a command that runs in order with the others of its stream (R292): STREAM_OPEN, STREAM_CLOSE, STREAM_WRITERS,
STREAM_ACK_GAP, SEAL, and STREAM_NOTIFY by the stream it names. -/
def streamSerial (op : Byte) (p : Packet) : Option Nat :=
  if op = 0x40 || op = 0x41 || op = 0x43 || op = 0x44 || op = 0x50 then some p.target.toNat else if op = 0x45 then some (p.par 0 4) else none
/-- The packet of a taken entry (R414). -/
def takenPacket (t : BitVec 5 × BitVec 512) : Packet :=
  ⟨t.1, bits t.2 15 8, bits t.2 31 16, bits t.2 63 32, bits t.2 511 64, true, true, true, []⟩
/-- POLICY_DATA_READ and POLICY_DATA_WRITE are applied between two events of each slice they name (R161). -/
def seqHeld (op : Byte) (p : Packet) (s : State) : Bool :=
  (op = 0x38 && (s.seq p.target.toNat).run.isSome) ||
    (op = 0x39 && (List.range 8).any (fun sl => bit p.target sl && (s.seq sl).run.isSome))
/-- Commands that walk (R102, R382); 0x05 disables the cache as CACHE_DISABLE does (R471). -/
def walkOps : List Byte := [0x05, 0x20, 0x22, 0x23, 0x24, 0x25, 0x26, 0x74, 0x75]
/-- A taken command cannot start yet (R411): it is ORDERED behind one of its SQ that was taken earlier, a chapter orders it behind one in progress or
taken earlier, it reads host memory while DMA is stopped (R403), or a sequencer it acts on has an event running (R161). A command that is not among the taken entries is taken now, behind them. -/
def blocked (op : Byte) (reads : Bool) (p : Packet) (s : State) : Bool :=
  let before := s.cp.taken.takeWhile (fun t => t != (p.qp, p.entry op))
  (bit p.flags 7 && (s.cp.prog.any (fun g => g.p.qp = p.qp && !g.after.contains (p.qp, p.entry op)) || before.any (fun t => t.1 = p.qp))) ||
  (serialGroup op != 0 && (s.cp.prog.any (fun g => serialGroup g.op = serialGroup op) ||
    before.any (fun t => serialGroup (bits t.2 7 0) = serialGroup op))) ||
  ((streamSerial op p).isSome && (s.cp.prog.any (fun g => decide (streamSerial g.op g.p = streamSerial op p)) ||
    before.any (fun t => decide (streamSerial (bits t.2 7 0) (takenPacket t) = streamSerial op p)))) ||
  (reads && s.dmaOff) || seqHeld op p s || (walkOps.contains op && before.any (fun t => walkOps.contains (bits t.2 7 0)))
/-- The command is among the entries taken and not started. -/
def State.isTaken (s : State) (op : Byte) (p : Packet) : Bool := s.cp.taken.contains (p.qp, p.entry op)
/-- The SQ head moves past the entry that is taken (R410). -/
def QP.past (q : QP) : QP := { q with sqHead := (q.sqHead + 1) % q.sqN }
/-- The head of SQ n is taken: the round-robin goes on behind n, and the SQ head past the entry (R410). -/
def takeHead (n : BitVec 4) (s : State) : State := { s with cp.rr := n, cp.qps := NMap.upd QP.init s.cp.qps n.toNat QP.past }
/-- The command starts: it leaves the taken entries, or is taken now (R410, R411). -/
def startTaken (op : Byte) (p : Packet) (s : State) : State :=
  let b := s.isTaken op p
  let n : BitVec 4 := p.qp.setWidth 4
  { s with
    cp.ahead := s.cp.taken.takeWhile (fun t => t != (p.qp, p.entry op))
    cp.taken := if b then s.cp.taken.erase (p.qp, p.entry op) else s.cp.taken
    cp.rr := if b then s.cp.rr else n, cp.qps := if b then s.cp.qps else NMap.upd QP.init s.cp.qps n.toNat QP.past }
/-- The command waits among the taken entries (R411). -/
def waitTaken (op : Byte) (p : Packet) (s : State) : State :=
  if s.isTaken op p then s
  else let s := takeHead (p.qp.setWidth 4) s; { s with cp.taken := s.cp.taken ++ [(p.qp, p.entry op)] }

/-- The status of the first check that fails. -/
def firstFail : List (Bool × BitVec 16) → Option (BitVec 16)
  | [] => none
  | (b, st) :: l => if b then some st else firstFail l
/-- Commands boot ROM recovery accepts (R456). -/
def recoveryOps : List Byte := [0x00, 0x90, 0x91, 0x92, 0x93]
/-- No command is taken at all: RESET, a halted boot ROM, stopped clocks (R449, R455, R340), or no firmware and no recovery (R474). -/
def State.deaf (s : State) : Bool := s.mode = 0 || s.boot.halted || s.ao.stopped || !(s.boot.fwRun || s.boot.recovery)
/-- The command is not accepted in the current mode, or not in recovery (R416, R456). -/
def modeBad (op : Byte) (modes : List (BitVec 3)) (s : State) : Bool :=
  !modes.contains s.mode || (s.boot.recovery && !recoveryOps.contains op)
/-- A service of approved mode without its role (R319): 1 either role, 2 the crypto officer. -/
def authBad (auth : Nat) (s : State) : Bool :=
  s.approved && ((auth = 1 && s.keys.roles = 0) || (auth = 2 && !bit s.keys.roles 0))
/-- The management controller may take from SQ n (R403, R410, R412, R413, R423, R456). -/
def mayTake (s : State) (n : Nat) : Bool :=
  let q := s.qp n
  !s.deaf && !s.dmaOff && q.on && !q.stopped && !q.deleting && decide (q.sqHead ≠ q.sqTail) && q.cqRoom &&
    decide (s.cp.taken.length + s.cp.prog.length < 64) && (!s.boot.recovery || n = 0)
/-- It is the turn of SQ n: no SQ that may be taken from lies between the one served last and n (R410). -/
def turnOf (s : State) (n : Nat) : Bool :=
  (List.range 16).all (fun k => let m := (s.cp.rr.toNat + 1 + k) % 16
    decide ((n + 16 - s.cp.rr.toNat - 1) % 16 ≤ k) || !mayTake s m)
/-- The entry at the head of SQ n is the next the management controller takes (R410). -/
def nextFrom (s : State) (n : Nat) : Bool := decide (n < 16) && mayTake s n && turnOf s n
/-- The command is taken already, or it is the entry that is taken next. -/
def State.canTake (s : State) (op : Byte) (p : Packet) : Bool := s.isTaken op p || nextFrom s p.qp.toNat
/-- Run a command packet that is taken: wait, refuse with the first check that fails, or act (R411, R416). -/
def cmd (op : Byte) (modes : List (BitVec 3)) (auth : Nat) (reads : Bool) (p : Packet)
    (chk : State → List (Bool × BitVec 16)) (body : State → State) (s : State) : State :=
  if s.deaf || !s.canTake op p then s
  else if blocked op reads p s then waitTaken op p s
  else
    let s := startTaken op p s
    match firstFail ((modeBad op modes s, St.mode_refused) :: (authBad auth s, St.auth_required) :: chk s) with
    | some st => complete p st 0 s
    | none => body (if ctrlOps.contains op then capCtrl (p.entry op) s else s)
/-- The command stays in progress at a stage of its rule. -/
def begin_ (op : Byte) (p : Packet) (stage n m : Nat) (s : State) : State :=
  { s with nextId := s.nextId + 1, cp.prog := s.cp.prog ++ [⟨s.nextId, p, op, stage, n, m, s.cp.ahead⟩] }
/-- A flash job joins those waiting (R457): `n` program or erase operations, for a command or on the firmware's own account. -/
def flashJob (own : Option Nat) (n : Nat) (s : State) : State := { s with boot.flash := s.boot.flash ++ [⟨own, n, false, none⟩] }
/-- The health page as the hub now has it: what its next copy is to hold (R342, R383, R509). -/
def State.healthNow (s : State) : Health :=
  ⟨s.err.rlSets, s.err.rlBanks, s.err.rlGen, s.err.rlPop, s.boot.dirtyCnt, s.age.history, s.age.hoursSaved⟩
/-- Operations that write a copy of the retire list, of 16,536 bytes: five sector erases and 65 page programs (R383, R457). -/
def listOps : Nat := (16536 + 4095) / 4096 + (16536 + 255) / 256
/-- Operations that write another field of the health page, whose place the spec does not give: one sector erase and one page program (DESIGN CHOICE, log 21). -/
def fieldOps : Nat := 2
/-- Operations that write the key area's keys, whose layout the spec does not give: one sector erase and its sixteen page programs (DESIGN CHOICE, log
21). -/
def keyOps : Nat := 1 + 4096 / 256
/-- The newest flash job writes the health page's copy that is not in use, in `n` operations; until the last has ended the previous copy stays in force
(R383, R457, R458). -/
def healthJob (own : Option Nat) (n : Nat) (s : State) : State := { s with boot.flash := s.boot.flash ++ [⟨own, n, false, some s.healthNow⟩] }
/-- The command stays in progress at stage 2 until its flash job of `n` operations is done. -/
def beginFlash (op : Byte) (p : Packet) (n : Nat) (s : State) : State := flashJob (some s.nextId) n (begin_ op p 2 0 0 s)
/-- End a command in progress. -/
def finish (g : Prog) (st : BitVec 16) (res : Nat) (s : State) : State :=
  complete g.p st res { s with cp.prog := s.cp.prog.filter (fun h => h.id != g.id) }
/-- End a command in progress with a result block. -/
def finishBlock (g : Prog) (bytes : List Byte) (st : BitVec 16) (res : Nat) (s : State) : State :=
  completeBlock g.p bytes st res { s with cp.prog := s.cp.prog.filter (fun h => h.id != g.id) }
/-- The command of an opcode in progress. -/
def State.running (s : State) (op : Byte) : Option Prog := s.cp.prog.find? (fun g => g.op = op)
/-- Change a command in progress. -/
def updProg (id : Nat) (f : Prog → Prog) (s : State) : State := { s with cp.prog := s.cp.prog.map (fun g => if g.id = id then f g else g) }

/-- What a meaning answers. -/
abbrev Ans := Host.Outcome State Fault Refusal
/-- The core-cycle count as the slices see it: the replay cycle count in REPLAY mode (R147, R493). -/
def State.now (s : State) : Nat := if s.mode = 4 then s.rec_.rNow else s.cycle
/-- The system cache allocates: CACHED mode, and in REPLAY as the recording drives it, once it has shown a cache set (R449, R493). -/
def State.allocates (s : State) : Bool := s.mode = 3 || (s.mode = 4 && s.cache.enabled)
/-- Only the AO domain runs: RESET, or every other clock stopped (R340, R449). -/
def State.off (s : State) : Bool := s.mode = 0 || s.ao.stopped
/-- The slices' clocks stand still: RESET, every clock stopped, or gated in the hold state after DRAIN_DONE (R338). -/
def State.sliceOff (s : State) : Bool := s.off || (s.mode = 5 && s.ao.drainDone)
/-- Nothing outside the AO domain acts in RESET or with its clocks stopped (R340, R449). -/
def live (s : State) (t : State) : State := if s.off then s else t
/-- A memory request at the control port: nothing in RESET, with the clocks stopped or in D3hot, where only configuration requests are answered
(R403). -/
def ctl (s : State) (t : State) : State := if s.off || s.cp.d3 then s else t

/-- Modes by their letters in the command tables. -/
abbrev mB : BitVec 3 := 1
/-- BYPASS -/
abbrev mY : BitVec 3 := 2
/-- CACHED -/
abbrev mC : BitVec 3 := 3
/-- REPLAY -/
abbrev mR : BitVec 3 := 4
/-- DRAIN -/
abbrev mD : BitVec 3 := 5

/-- A pair of before a reset of the control path (R404): it has no completion queue and no number that a later pair could have. -/
def lostPair (n : BitVec 5) : BitVec 5 := n ||| 16
/-- A command in progress whose completion and results are discarded (R404). -/
def Prog.lose (g : Prog) : Prog := { g with p.qp := lostPair g.p.qp, after := g.after.map (fun t => (lostPair t.1, t.2)) }
/-- The control path is reset (R404, R429): pairs deleted, and the QUEUE_DELETE commands with them; event queue unbound; commands already taken
go on with their results discarded; roles ended, the MSI-X table, the PCIe configuration and the QP0 and FIFO registers at their
reset values. -/
def resetControl (s : State) : State :=
  { s with
    cp.bme := false, cp.d3 := false, cp.qps := [], cp.rr := 0, cp.heldDma := [], cp.qp0Next := none, cp.table := []
    cp.taken := (s.cp.taken.filter (fun t => definedOps.contains (nbits t.2 7 0))).map (fun t => (lostPair t.1, t.2))
    cp.prog := (s.cp.prog.filter (fun g => g.op ≠ 0x02)).map Prog.lose
    cache.walks := s.cache.walks.map (fun k => { k with behind := k.behind.map (fun t => (lostPair t.1, t.2)) })
    cp.eqOn := false, cp.eqBase := 0, cp.eqN := 0, cp.eqHead := 0, cp.eqTail := 0, cp.eqPhase := false, cp.eqArmed := false
    cp.masked := 0xFFFFFFFF, cp.pend := 0, cp.held := 0, cp.pcie := PcieCfg.init
    regs.qp0Sq := 0, regs.qp0Cq := 0, regs.qp0Size := 0, regs.qp0En := false
    regs.fifoCtrl := 0x030000C0, regs.hmf := Fifo.init, regs.evf := Fifo.init
    keys.roles := 0, keys.chalOn := 0 }

end Sys2Proof.Machine
end

