-- ==== Sys2Proof/Machine/Control.lean ====
section
/-! DEFINITION. The control port (14): its own commands, doorbells, entry fetches, completions, the event queue, and its resets. -/
namespace Sys2Proof.Machine

/-- Device ID (R400). -/
def State.deviceId (s : State) : Nat := if s.boot.small then 0x7420 else 0x7440
/-- The OPCODES bit map of IDENTIFY (R421). -/
def opcodeMap : Nat := definedOps.foldl (fun a n => a + 2 ^ n) 0
/-- The running management firmware's version, 0 in recovery (R421, R470). -/
def State.fwVersion (s : State) : BitVec 64 := if s.boot.running = 0 then s.boot.verA else if s.boot.running = 1 then s.boot.verB else 0
/-- The IDENTIFY block (R421). -/
def identifyBlock (s : State) : List Byte :=
  block 256 [(0, 2, 0x1FB7), (2, 2, s.deviceId), (4, 1, s.boot.stepping.toNat), (5, 1, 1), (6, 1, s.nPorts), (7, 1, s.nFar), (8, 1, s.nChan),
    (9, 1, if s.cache.trained then s.popByte else 0xFF), (10, 1, s.mode.toNat), (11, 1, 16), (12, 2, 1), (14, 2, 0x0100),
    (16, 8, s.boot.serial.toNat), (24, 8, s.fwVersion.toNat), (32, 4, Config.bootRomVersion.toNat), (36, 1, b2n s.boot.active),
    (37, 1, s.keyState.toNat), (40, 4, s.links.base.toNat), (44, 4, s.links.size.toNat), (48, 1, s.links.depth.toNat), (64, 32, opcodeMap)]
/-- The configuration header (R400, R401): vendor and device ID, revision, class code 0x05_8000, header type 0, two 64-bit non-prefetchable memory
BARs as they stand before the host gives them addresses, the subsystem IDs of the configuration record, and interrupt pin 0. Command is Bus Master Enable, and the Memory Space Enable that goes with it. -/
def configHeader (s : State) : List Byte :=
  let sub : Nat × Nat := match s.boot.configUse with | some c => (nbits c 79 64, nbits c 95 80) | none => (0x1FB7, s.deviceId)
  block 64 [(0, 2, 0x1FB7), (2, 2, s.deviceId), (8, 1, s.boot.stepping.toNat), (9, 3, 0x058000), (14, 1, 0), (16, 4, 4), (24, 4, 4), (44, 2, sub.1), (46, 2, sub.2), (61, 1, 0)]
/-- IDENTIFY (R421). -/
def execIdentify (p : Packet) (s : State) : Ans :=
  .next (cmd 0x00 [mB, mY, mC, mR, mD] 0 false p
    (fun _ => [(p.rsv 8 0 true || badBuf p.addr 256 256, St.invalid_param)])
    (fun s => completeBlock p (identifyBlock s) St.ok 0 s) s)

/-- An entry-count field or base that R408 refuses: `sz` entries minus one, `w` bytes an entry. -/
def badQueue (base sz w : Nat) : Bool := sz = 0 || badBuf (BitVec.ofNat 64 base) 4096 ((sz + 1) * w)
/-- A pair as QUEUE_CREATE leaves it (R422). -/
def newPair (sqb cqb : Nat) (sqn cqn : Nat) : QP :=
  { QP.init with on := true, sqBase := BitVec.ofNat 64 sqb, cqBase := BitVec.ofNat 64 cqb, sqN := sqn, cqN := cqn, phase := true, armed := true }
/-- QUEUE_CREATE (R422). -/
def execQueueCreate (p : Packet) (s : State) : Ans :=
  let n := p.target.toNat
  .next (cmd 0x01 [mB, mY, mC, mR, mD] 0 false p
    (fun s => [(p.rsv 20 0 false || n = 0 || 15 < n || badQueue (p.par 0 8) (p.par 16 2) 64 || badQueue (p.par 8 8) (p.par 18 2) 16, St.invalid_param),
      ((s.qp n).on, St.queue_exists)])
    (fun s => complete p St.ok 0 (s.updQp n (fun _ => newPair (p.par 0 8) (p.par 8 8) (p.par 16 2 + 1) (p.par 18 2 + 1)))) s)

/-- Every command taken from SQ n has completed and its completion is written (R423). -/
def pairIdle (n : Nat) (s : State) : Bool :=
  !s.cp.taken.any (fun t => t.1.toNat = n) && !s.cp.prog.any (fun g => g.p.qp.toNat = n) && (s.qp n).waiting.isEmpty
/-- Step 3 of R423: a pair being deleted whose commands have ended is gone, and every QUEUE_DELETE of it completes; queue pair 0 as set up meanwhile
takes its place (log 115). -/
def endDelete (s : State) (n : Nat) : State :=
  if (s.qp n).deleting && pairIdle n s then
    let s := s.updQp n (fun _ => if n = 0 then s.cp.qp0Next.getD QP.init else QP.init)
    (s.cp.prog.filter (fun g => g.op = 0x02 && g.p.target.toNat = n)).foldl (fun s g => finish g St.ok 0 s)
      (if n = 0 then { s with cp.qp0Next := none } else s)
  else s
/-- End every deletion that can end. -/
def endDeletes (s : State) : State := (List.range 16).foldl endDelete s
/-- Steps 1 and 2 of R423. -/
def startDelete (n : Nat) (s : State) : State := s.updQp n (fun q => { q with deleting := true, sqHead := q.sqTail })
/-- QUEUE_DELETE (R423). -/
def execQueueDelete (p : Packet) (s : State) : Ans :=
  let n := p.target.toNat
  .next (cmd 0x02 [mB, mY, mC, mR, mD] 0 false p
    (fun s => [(p.rsv 0 0 false || n = 0 || 15 < n || n = p.qp.toNat, St.invalid_param), (!(s.qp n).on, St.no_queue)])
    (fun s => endDelete (begin_ 0x02 p 1 0 0 (startDelete n s)) n) s)

/-- EVENT_QUEUE_SET (R424). -/
def execEventQueueSet (p : Packet) (s : State) : Ans :=
  .next (cmd 0x03 [mB, mY, mC, mR, mD] 0 false p
    (fun _ => [(if p.flag 0 then p.rsv 56 1 true
        else p.rsv 11 1 true || decide (p.par 8 2 < 15) || badBuf p.addr 4096 ((p.par 8 2 + 1) * 32), St.invalid_param)])
    (fun s =>
      if p.flag 0 then complete p St.ok 0 { s with cp.eqOn := false, cp.eqArmed := false }
      else
        let s := { s with
          cp.eqOn := true, cp.eqBase := p.addr, cp.eqN := p.par 8 2 + 1, cp.eqHead := 0, cp.eqTail := 0, cp.eqPhase := true, cp.eqArmed := true
          cp.groups := BitVec.ofNat 8 (p.par 10 1) ||| 1 }
        complete p St.ok 0 { s with cp.staged := s.cp.staged.filter (fun e => s.groupOn e.code) }) s)

/-- A doorbell value the hub refuses: QUEUE_ERROR with reason 1 (R409). -/
def badDoorbell (q v : Nat) (s : State) : State := postEvent 0x0004 [(0, q), (1, 1), (2, v)] s
/-- `v` lies from `a` up to `b`, counted circularly modulo `n` (R409). -/
def inRing (n a b v : Nat) : Bool := decide (v < n) && decide ((v + n - a) % n ≤ (b + n - a) % n)
/-- SQ tail doorbell (R409). -/
def sqDoorbell (n : Nat) (v : BitVec 64) (s : State) : State :=
  let q := s.qp n
  let t := nbits v 15 0
  if !q.on || !inRing q.sqN q.sqTail ((q.sqHead + q.sqN - 1) % q.sqN) t then badDoorbell n t s
  else if q.deleting then s else s.updQp n (fun q => { q with sqTail := t })
/-- CQ head doorbell (R406, R409). -/
def cqDoorbell (n : Nat) (v : BitVec 64) (s : State) : State :=
  let q := s.qp n
  let h := nbits v 15 0
  if !q.on || !inRing q.cqN q.cqHead q.cqTail h then badDoorbell n h s
  else if h = q.cqTail then s.updQp n (fun q => { q with cqHead := h, armed := true })
  else sendMsix n (s.updQp n (fun q => { q with cqHead := h, armed := false }))
/-- Event queue head doorbell (R406, R409). -/
def eqDoorbell (v : BitVec 64) (s : State) : State :=
  let h := nbits v 15 0
  if !s.cp.eqOn || !inRing s.cp.eqN s.cp.eqHead s.cp.eqTail h then badDoorbell 0x10 h s
  else if h = s.cp.eqTail then { s with cp.eqHead := h, cp.eqArmed := true }
  else sendMsix 16 { s with cp.eqHead := h, cp.eqArmed := false }
/-- SQ_TAIL_DOORBELL (R409). -/
def execSqTailDoorbell (n : BitVec 4) (v : BitVec 64) (s : State) : Ans := .next (ctl s (sqDoorbell n.toNat v s))
/-- CQ_HEAD_DOORBELL (R406). -/
def execCqHeadDoorbell (n : BitVec 4) (v : BitVec 64) (s : State) : Ans := .next (ctl s (cqDoorbell n.toNat v s))
/-- EVENT_QUEUE_HEAD_DOORBELL (R406). -/
def execEventQueueHeadDoorbell (v : BitVec 64) (s : State) : Ans := .next (ctl s (eqDoorbell v s))

/-- SQ_ENTRY_FETCH (R410, R411, R413, R414): the entry is taken; one with an undefined opcode completes with INVALID_OPCODE at once or, if it is
ORDERED, once every command of its SQ taken before it has completed. -/
def execSqEntryFetch (n : BitVec 4) (e : BitVec 512) (ok : Bool) (s : State) : Ans :=
  let m : BitVec 5 := n.setWidth 5
  .next (if !nextFrom s n.toNat then s
    else if !ok then postEvent 0x0004 [(0, n.toNat), (1, 2)] ({ s with cp.rr := n }.updQp n.toNat (fun q => { q with stopped := true }))
    else
      let s := takeHead n s
      if definedOps.contains (nbits e 7 0) || (bit e 15 && (s.cp.prog.any (fun g => g.p.qp = m) || s.cp.taken.any (fun t => t.1 = m))) then
        { s with cp.taken := s.cp.taken ++ [(m, e)] }
      else s.updQp n.toNat (fun q => { q with waiting := q.waiting ++ [(0, bits e 31 16, St.invalid_opcode)] }))

/-- A completion entry as 16 bytes (R415). -/
def completionBytes (n : Nat) (q : QP) (c : BitVec 64 × BitVec 16 × BitVec 16) : List Byte :=
  block 16 [(0, 8, c.1.toNat), (8, 2, q.sqHead), (10, 1, n), (11, 1, b2n q.phase), (12, 2, c.2.1.toNat), (14, 2, c.2.2.toNat)]
/-- Advance a ring's tail with its phase (R412). -/
def QP.push (q : QP) : QP :=
  { q with waiting := q.waiting.drop 1, cqTail := (q.cqTail + 1) % q.cqN, phase := if q.cqTail + 1 = q.cqN then !q.phase else q.phase, armed := false }
/-- COMPLETION_WRITE (R406, R412, R413): the oldest waiting completion is written at the CQ tail; a failed write stops the pair (log 23). -/
def execCompletionWrite (n : BitVec 4) (ok : Bool) (s : State) : Ans :=
  let q := s.qp n.toNat
  .next (match q.waiting with
    | [] => s
    | c :: _ =>
      if s.off || s.dmaOff || !q.cqRoom then s
      else if !ok then
        endDeletes (postEvent 0x0004 [(0, n.toNat), (1, 3)] (s.updQp n.toNat (fun q => { q with waiting := q.waiting.drop 1, stopped := true })))
      else
        let s := (s.put (.host (q.cqBase + BitVec.ofNat 64 (16 * q.cqTail)) (completionBytes n.toNat q c))).updQp n.toNat QP.push
        endDeletes (if q.armed then sendMsix n.toNat s else s))

/-- An event entry as 32 bytes (R418); `perr`: its staging has met a parity error. -/
def eventBytes (s : State) (e : Ev) (perr : Bool) : List Byte :=
  block 32 [(0, 2, e.code.toNat), (2, 1, b2n s.cp.eqPhase + 2 * b2n s.cp.evLost + 4 * b2n perr), (4, 4, e.seq.toNat), (8, 8, e.time.toNat), (16, 16, e.payload.toNat)]
/-- EVENT_QUEUE_WRITE (R406, R413, R418, R419). -/
def execEventQueueWrite (w : EventWrite) (s : State) : Ans :=
  .next (match s.cp.staged with
    | [] => s
    | e :: rest =>
      if s.off || s.dmaOff || !s.cp.eqOn || (s.cp.eqTail + 1) % s.cp.eqN = s.cp.eqHead then s
      else if !w.ok then postEvent 0x0004 [(0, 0x10), (1, 4)] { s with cp.eqOn := false, cp.eqArmed := false }
      else
        let a := s.cp.eqArmed
        let s := s.put (.host (s.cp.eqBase + BitVec.ofNat 64 (32 * s.cp.eqTail)) (eventBytes s e w.perr))
        let s := { s with
          cp.staged := rest, cp.evLost := false, cp.eqArmed := false
          cp.eqPhase := if s.cp.eqTail + 1 = s.cp.eqN then !s.cp.eqPhase else s.cp.eqPhase
          cp.eqTail := (s.cp.eqTail + 1) % s.cp.eqN }
        if a then sendMsix 16 s else s)

/-- QP0_ENABLE goes from 0 to 1 (R407, R408): the fields are latched at once, for a pair that is created when one still being deleted is gone
(log 115). -/
def qp0On (s : State) : State :=
  if s.regs.qp0En then s
  else
    let sq := nbits s.regs.qp0Size 15 0
    let cq := nbits s.regs.qp0Size 31 16
    if badQueue s.regs.qp0Sq.toNat sq 64 || badQueue s.regs.qp0Cq.toNat cq 16 then postEvent 0x0004 [(0, 0), (1, 5)] s
    else
      let q := newPair s.regs.qp0Sq.toNat s.regs.qp0Cq.toNat (sq + 1) (cq + 1)
      let s := { s with regs.qp0En := true }
      if (s.qp 0).on then { s with cp.qp0Next := some q } else s.updQp 0 (fun _ => q)
/-- QP0_ENABLE goes from 1 to 0 (R407, R423). -/
def qp0Off (s : State) : State := if s.regs.qp0En then endDelete (startDelete 0 { s with regs.qp0En := false, cp.qp0Next := none }) 0 else s
/-- QP0_CREATE (R407). -/
def execQp0Create (s : State) : Ans := .next (ctl s (qp0On s))
/-- QP0_DELETE (R407). -/
def execQp0Delete (s : State) : Ans := .next (ctl s (qp0Off s))

/-- Held results and messages go out once DMA runs again (R402, R403). -/
def flushHeld (s : State) : State :=
  if s.dmaOff then s
  else
    let s := { s with out := s.out ++ s.cp.heldDma.map (fun (w : BitVec 64 × List Byte) => Out.host w.1 w.2), cp.heldDma := [] }
    let h := s.cp.held
    (List.range 32).foldl (fun s v => if bit h v then sendMsix v s else s) { s with cp.held := 0 }
/-- BUS_MASTER_ENABLE (R403). -/
def execBusMasterEnable (on : Bool) (s : State) : Ans := .next (live s (flushHeld { s with cp.bme := on }))
/-- D3HOT_ENTRY (R403). -/
def execD3hotEntry (s : State) : Ans := .next (live s { s with cp.d3 := true })
/-- D3HOT_EXIT (R403): the control path is reset as FLR resets it. -/
def execD3hotExit (s : State) : Ans := .next (live s (if s.cp.d3 then resetControl s else s))
/-- FLR (R404). -/
def execFlr (s : State) : Ans := .next (live s (resetControl s))
/-- PERST_N (R404): as FLR; the control-port link retrains, which no command sees. -/
def execPerstN (s : State) : Ans := .next (live s (resetControl s))
/-- MSIX_UNMASK (R401, R405): the table entry has its message address and data; a pending message is sent. -/
def execMsixUnmask (e : MsixEntry) (s : State) : Ans :=
  let v := e.vec.toNat
  let m := BitVec.ofNat 32 (2 ^ v)
  let t := { s with
    cp.masked := s.cp.masked &&& ~~~m, cp.pend := s.cp.pend &&& ~~~m, cp.table := NMap.set (0, 0) s.cp.table v (e.addr, e.data) }
  .next (ctl s (if bit s.cp.pend v then sendMsix v t else t))

/-- Messages pending at vectors that are masked no longer are sent (R405). -/
def sendPending (s : State) : State :=
  (List.range 32).foldl (fun s v => if bit s.cp.pend v && !vecMasked s v then sendMsix v { s with cp.pend := s.cp.pend &&& ~~~(BitVec.ofNat 32 (2 ^ v)) } else s) s
/-- A 32-bit word of the MSI-X table is written (R401): message address, its upper half, message data, vector control with the mask in bit 0. -/
def tableWord (off : Nat) (v : BitVec 32) (s : State) : State :=
  let n := off / 16
  let e := NMap.get (0, 0) s.cp.table n
  let m := BitVec.ofNat 32 (2 ^ n)
  if off % 16 = 0 then { s with cp.table := NMap.set (0, 0) s.cp.table n (putBits e.1 0 32 v.toNat, e.2) }
  else if off % 16 = 4 then { s with cp.table := NMap.set (0, 0) s.cp.table n (putBits e.1 32 32 v.toNat, e.2) }
  else if off % 16 = 8 then { s with cp.table := NMap.set (0, 0) s.cp.table n (e.1, v) }
  else if bit v 0 then { s with cp.masked := s.cp.masked ||| m } else sendPending { s with cp.masked := s.cp.masked &&& ~~~m }
/-- An aligned access of 4 or 8 bytes, the ones that MSI-X defines. -/
def msixSize (off : Nat) (size : BitVec 4) : Bool := (size = 4 && off % 4 = 0) || (size = 8 && off % 8 = 0)
/-- A write to BAR2 (R401): the table in its first 512 bytes; the pending bits and the rest of the window cannot be written. Another width or alignment
is undefined there and has no effect (log 121). -/
def bar2Write (off : Nat) (v : BitVec 64) (size : BitVec 4) (s : State) : State :=
  if !msixSize off size || 512 ≤ off then s
  else
    let t := tableWord off (bits v 31 0) s
    if size = 8 then tableWord (off + 4) (bits v 63 32) t else t
/-- A 32-bit word of BAR2: the table, the pending bits at 0x1000, zero elsewhere. -/
def bar2Word (s : State) (off : Nat) : BitVec 32 :=
  let e := NMap.get (0, 0) s.cp.table (off / 16)
  if off = 0x1000 then s.cp.pend
  else if 512 ≤ off then 0
  else if off % 16 = 0 then bits e.1 31 0 else if off % 16 = 4 then bits e.1 63 32 else if off % 16 = 8 then e.2
  else BitVec.ofNat 32 (b2n (bit s.cp.masked (off / 16)))
/-- A read of BAR2 (R401); one of another width or alignment gives a free value (log 121). -/
def bar2Read (off : Nat) (size : BitVec 4) (s : State) : State :=
  if msixSize off size then s.put (.read (BitVec.ofNat 64 ((bar2Word s off).toNat + if size = 8 then (bar2Word s (off + 4)).toNat * 2 ^ 32 else 0)))
  else { s with free := s.free + 1 }.put (.read (Config.freeWord s.free))
/-- A write to a register of the capabilities (R399; log 121): what R399 does not support is hard-wired to zero, statuses clear where ones are written,
bit 15 of Device Control initiates an FLR. -/
def cfgWrite (r : CfgReg) (v : BitVec 64) (s : State) : State :=
  let w : BitVec 32 := bits v 31 0
  match r with
  | .devCtl => if bit v 15 then resetControl s else { s with cp.pcie.devCtl := bits v 15 0 &&& 0x71EF }
  | .devCtl2 => { s with cp.pcie.devCtl2 := bits v 15 0 &&& 0x001F }
  | .linkCtl => { s with cp.pcie.linkCtl := bits v 15 0 &&& 0x00C3 }
  | .msixCtl => sendPending { s with cp.pcie.msixOn := bit v 15, cp.pcie.msixMask := bit v 14 }
  | .uncStatus => { s with cp.pcie.uncStatus := s.cp.pcie.uncStatus &&& ~~~w }
  | .uncMask => { s with cp.pcie.uncMask := w }
  | .uncSev => { s with cp.pcie.uncSev := w }
  | .corStatus => { s with cp.pcie.corStatus := s.cp.pcie.corStatus &&& ~~~w }
  | .corMask => { s with cp.pcie.corMask := w }
  | .log0 => s
  | .log1 => s
/-- The value of a register of the capabilities: 32 vectors in the Table Size of MSI-X Message Control (R399). -/
def cfgRead (s : State) (r : CfgReg) : BitVec 64 :=
  let c := s.cp.pcie
  match r with
  | .devCtl => c.devCtl.setWidth 64
  | .devCtl2 => c.devCtl2.setWidth 64
  | .linkCtl => c.linkCtl.setWidth 64
  | .msixCtl => BitVec.ofNat 64 (31 + 2 ^ 14 * b2n c.msixMask + 2 ^ 15 * b2n c.msixOn)
  | .uncStatus => c.uncStatus.setWidth 64
  | .uncMask => c.uncMask.setWidth 64
  | .uncSev => c.uncSev.setWidth 64
  | .corStatus => c.corStatus.setWidth 64
  | .corMask => c.corMask.setWidth 64
  | .log0 => bits c.log 63 0
  | .log1 => bits c.log 127 64

end Sys2Proof.Machine
end

