-- ==== Sys2Proof/Machine/Ecdsa.lean ====
section
/-! DEFINITION. ECDSA on P-384 as FIPS 186-5 defines it (R7, R303, R312): the curve, signing and verification on byte strings. A
private key and a nonce are numbers that the module draws; which ones is open (Config, log 4). -/
namespace Sys2Proof.Machine

/-- The field prime of P-384. -/
def p384P : Nat := 2 ^ 384 - 2 ^ 128 - 2 ^ 96 + 2 ^ 32 - 1
/-- The order of the base point. -/
def p384N : Nat := 0xFFFFFFFFFFFFFFFFFFFFFFFFFFFFFFFFFFFFFFFFFFFFFFFFC7634D81F4372DDF581A0DB248B0A77AECEC196ACCC52973
/-- The coefficient b of y² = x³ − 3x + b. -/
def p384B : Nat := 0xB3312FA7E23EE7E4988E056BE3F82D19181D9C6EFE8141120314088F5013875AC656398D8A2ED19D2A85C8EDD3EC2AEF
/-- A point in Jacobian coordinates: x = X / Z², y = Y / Z³; Z = 0 is the point at infinity. -/
structure EcPt where
  x : Nat
  y : Nat
  z : Nat
deriving DecidableEq, Repr
/-- The base point. -/
def p384G : EcPt where
  x := 0xAA87CA22BE8B05378EB1C71EF320AD746E1D3B628BA79B9859F741E082542A385502F25DBF55296C3A545E3872760AB7
  y := 0x3617DE4A96262C6F5D9E98BF9292DC29F8F41DBD289A147CE9DA3113B5F0B8C00A60B1CE1D7E819D7A431D7C90EA0E5F
  z := 1
/-- Difference modulo the field prime. -/
def fpSub (a b : Nat) : Nat := (a + (p384P - b % p384P)) % p384P
/-- a to the power e modulo m, for e below 2^384. -/
def powMod (m a e : Nat) : Nat :=
  ((List.range 384).foldl (fun (r : Nat × Nat) i => (if e.testBit i then r.1 * r.2 % m else r.1, r.2 * r.2 % m)) (1 % m, a % m)).1
/-- The inverse modulo a prime. -/
def invMod (m a : Nat) : Nat := powMod m a (m - 2)
/-- Twice a point. -/
def ecDbl (p : EcPt) : EcPt :=
  if p.z = 0 || p.y = 0 then ⟨1, 1, 0⟩
  else
    let d := p.z * p.z % p384P
    let g := p.y * p.y % p384P
    let b := p.x * g % p384P
    let a := 3 * (fpSub p.x d) * (p.x + d) % p384P
    let x := fpSub (a * a) (8 * b)
    ⟨x, fpSub (a * fpSub (4 * b) x) (8 * g * g), 2 * p.y * p.z % p384P⟩
/-- The sum of two points. -/
def ecAdd (p q : EcPt) : EcPt :=
  if p.z = 0 then q
  else if q.z = 0 then p
  else
    let a := p.z * p.z % p384P
    let b := q.z * q.z % p384P
    let u := p.x * b % p384P
    let s := p.y * q.z * b % p384P
    let h := fpSub (q.x * a) u
    let r := fpSub (q.y * p.z * a) s
    if h = 0 then (if r = 0 then ecDbl p else ⟨1, 1, 0⟩)
    else
      let hh := h * h % p384P
      let v := u * hh % p384P
      let x := fpSub (r * r) (h * hh + 2 * v)
      ⟨x, fpSub (r * fpSub v x) (s * h * hh), h * p.z * q.z % p384P⟩
/-- A multiple of a point. -/
def ecMul (k : Nat) (p : EcPt) : EcPt :=
  ((List.range 384).foldl (fun (a : EcPt × EcPt) i => (if k.testBit i then ecAdd a.1 a.2 else a.1, ecDbl a.2)) (⟨1, 1, 0⟩, p)).1
/-- The affine coordinates of a point. -/
def ecAff (p : EcPt) : Nat × Nat :=
  let i := invMod p384P p.z
  (p.x * i * i % p384P, p.y * i * i * i % p384P)
/-- Two 48-byte big-endian integers one after the other (R7), byte 0 in bits [7:0]. -/
def pairBytes (a b : Nat) : BitVec 768 := BitVec.ofNat 768 (leNat (beBytes 48 a ++ beBytes 48 b))
/-- The integers of such a pair. -/
def pairNats (v : BitVec 768) : Nat × Nat := let l := wordBytes 96 v; (beNat (l.take 48), beNat (l.drop 48))
/-- The private number of a wrapped key: in 1 to n − 1. -/
def privateOf (key : BitVec 512) : Nat := 1 + Config.privateKey key % (p384N - 1)
/-- The public key x ‖ y of a wrapped private key (R312, R313). -/
def publicOf (key : BitVec 512) : BitVec 768 := let q := ecAff (ecMul (privateOf key) p384G); pairBytes q.1 q.2
/-- A signature r ‖ s over a digest (R7, R303, FIPS 186-5): the nonce is drawn from the DRBG. -/
def ecdsaSign (key : BitVec 512) (digest : List Byte) (draw : Nat) : BitVec 768 :=
  let k := 1 + (Config.nonce draw).toNat % (p384N - 1)
  let r := (ecAff (ecMul k p384G)).1 % p384N
  pairBytes r (invMod p384N k * (beNat digest + r * privateOf key) % p384N)
/-- A signature verifies over a digest under a public key (R319, R461, FIPS 186-5). -/
def ecdsaVerify (pub : BitVec 768) (digest : BitVec 384) (sig : BitVec 768) : Bool :=
  let (qx, qy) := pairNats pub
  let (r, s) := pairNats sig
  let w := invMod p384N s
  let z := beNat (wordBytes 48 digest)
  let v := ecAdd (ecMul (z * w % p384N) p384G) (ecMul (r * w % p384N) ⟨qx, qy, 1⟩)
  decide (qx < p384P) && decide (qy < p384P) && decide (qy * qy % p384P = fpSub (qx * qx * qx + p384B) (3 * qx)) &&
    decide (0 < r) && decide (r < p384N) && decide (0 < s) && decide (s < p384N) && decide (v.z ≠ 0) && decide ((ecAff v).1 % p384N = r)

end Sys2Proof.Machine
end

