-- ==== Sys2Proof/Machine/Capacity.lean ====
section
/-! DEFINITION. Deliverable capacities, the charges of guarantees, scaling and reservations (R348-R355). -/
namespace Sys2Proof.Machine

/-- Payload of a link in MB/s at a trained rate code and width: 26,200 at 32 GT/s x8, in proportion below (R164, R353; DEDUCED 8). -/
def linkPay (rate : BitVec 2) (width : Byte) : Nat := 26200 * 2 ^ rate.toNat * width.toNat / 32
/-- K_ref in percent (R353). -/
def kRef (s : State) : Nat :=
  let m := s.cache.refresh.foldl (fun (a : Nat) (e : Nat × Nat) => max a e.2) 1
  if 4 ≤ m then 88 else if 2 ≤ m then 94 else 100
/-- K_thr in quarters (R511, R512). -/
def kThr (s : State) : Nat := 4 - s.ao.level.toNat
/-- Rate of the cache channels in MT/s (R514). -/
def dramRate (s : State) : Nat := if s.cache.rate = 0 then 8533 else if s.cache.rate = 1 then 7500 else 6400
/-- Trained cache channels that are not quarantined (R353, R381). -/
def State.channels (s : State) : Nat := (if s.cache.chans = 3 then 0 else 8 * 2 ^ s.cache.chans.toNat) - s.cache.quar.length
/-- Capacity of the cache memory in MB/s (R353). -/
def cacheCap (s : State) : Nat := 364000 * s.channels * dramRate s * kRef s * kThr s / (32 * 8533 * 400)
/-- Capacity of the far ports in one direction (R353). -/
def farCap (s : State) (plan : FarPort → BitVec 32) : Nat :=
  ((List.range 4).map (fun p => let f := s.farP p; if f.up && !f.dead then min (linkPay f.rate f.width) (plan f).toNat else 0)).sum
/-- Capacity of an agent port in either direction (R353). -/
def portCap (s : State) (p : Nat) : Nat := let q := s.port p; if q.link = 3 || q.link = 5 then linkPay q.rate q.width else 0

/-- A guarantee of nothing. -/
def State.guar (s : State) (k : Nat) : Guar := NMap.get Guar.init s.regl.guar k
/-- Resources that a guarantee charges: code and port (R352). -/
abbrev Res := Nat × Nat
/-- The resources, in code order. -/
def resources : List Res := [(0, 0), (1, 0), (2, 0)] ++ (List.range 12).map (fun p => (3, p)) ++ (List.range 12).map (fun p => (4, p)) ++ [(5, 0)]
/-- RSV wanted for a guarantee at a latency in ps (R350). -/
def rsvWanted (s : State) (g : Guar) (lat : Nat) : Nat :=
  (g.f * (g.rd + g.wr) * max lat 100000 * s.regl.margin + (2097152000000 - 1)) / 2097152000000
/-- The entries a guarantee charges in every slice at f = 1 and LAT 560 ns (R352, resource 5). -/
def ttCharge (s : State) (g : Guar) : Nat := if g.on then (min 1024 (rsvWanted s { g with f := 1024 } 560000) + 7) / 8 else 0
/-- The charge of the guarantee of pair k on a resource, in 1/100 MB/s, or in 1/100 of an entry for resource 5 (R351, R352). -/
def charge (s : State) (k : Nat) (g : Guar) (r : Res) : Nat :=
  let byp := s.mode = 2
  let fr := if byp then 100 else g.farRd
  let fw := if byp || k % 5 = 2 then 100 else g.farWr
  if !g.on then 0
  else if r.1 = 5 then 100 * ttCharge s g
  else if r.1 = 0 then (if byp then 0 else g.rd * (100 - fr) + g.wr * 100)
  else if r.1 = 1 then g.rd * fr
  else if r.1 = 2 then g.wr * fw
  else if k / 5 ≠ r.2 then 0
  else if r.1 = 3 then g.rd * 100 else g.wr * 100
/-- Capacity of a resource in MB/s. -/
def capOf (s : State) (r : Res) : Nat :=
  if r.1 = 0 then cacheCap s else if r.1 = 1 then farCap s (fun f => f.readPlan) else if r.1 = 2 then farCap s (fun f => f.writePlan) else portCap s r.2
/-- The admission limit of a resource, in the unit of its charges (R352): ADMIT_PCT of its capacity, 1,536 entries for resource 5. -/
def limitOf (s : State) (r : Res) : Nat := if r.1 = 5 then 153600 else s.regl.admitPct * capOf s r
/-- The sum of the admitted charges on a resource, in 1/100 MB/s. -/
def chargeSum (s : State) (gs : NMap Guar) (r : Res) : Nat := (gs.map (fun (e : Nat × Guar) => charge s e.1 e.2 r)).sum
/-- f_r in 1/1,024 (R355). -/
def scaleOf (s : State) (r : Res) : Nat :=
  let lim := limitOf s r
  let sum := chargeSum s s.regl.guar r
  if lim < sum then 1024 * lim / sum else 1024
/-- LAT of a pair in ps (R350). -/
def State.latOf (s : State) (k : Nat) : Nat := NMap.get 560000 s.regl.lat k
/-- Entries reserved in each slice for a set of guarantees (R348). -/
def rsvSum (gs : NMap Guar) : Nat := (gs.map (fun (e : Nat × Guar) => (e.2.rsv + 7) / 8)).sum
/-- Lower the largest reservation by one while R348 is broken (R350); of several equally large ones the first by port and class (DESIGN CHOICE, log
136). -/
def lowerRsv : Nat → NMap Guar → NMap Guar
  | 0, gs => gs
  | n + 1, gs =>
    if rsvSum gs ≤ 1536 then gs
    else
      let top := gs.foldl (fun (a : Nat) (e : Nat × Guar) => max a e.2.rsv) 0
      match gs.find? (fun e => e.2.rsv = top) with
      | some (k, _) => lowerRsv n (NMap.upd Guar.init gs k (fun g => { g with rsv := g.rsv - 1 }))
      | none => gs
/-- A pair as the commands and events name it: port in [3:0], class in [6:4] (R360). -/
def pairCode (k : Nat) : Nat := k / 5 + 16 * (k % 5)
/-- Recompute every reservation; each one that had to be lowered posts GUAR_CLAMPED (R350). -/
def recomputeRsv (s : State) : State :=
  let want := s.regl.guar.map (fun (e : Nat × Guar) => (e.1, rsvWanted s e.2 (s.latOf e.1)))
  let gs := want.foldl (fun m w => NMap.upd Guar.init m w.1 (fun g => { g with rsv := min 1024 w.2 })) s.regl.guar
  let gs := lowerRsv 50000 gs
  let s := { s with regl.guar := gs }
  want.foldl (fun s w => if (s.guar w.1).rsv < w.2 then postEvent 0x0603 [(0, pairCode w.1), (4, w.2)] s else s) s
/-- The resource that limits a guarantee, the first in code order, with its f_r (R355). -/
def limiting (s : State) (k : Nat) (g : Guar) : Res × Nat :=
  (resources.filter (fun r => charge s k g r ≠ 0)).foldl (fun (a : Res × Nat) r => let f := scaleOf s r; if f < a.2 then (r, f) else a) ((0, 0), 1024)
/-- Recompute capacities and scale guarantees (R355); true where a factor has changed. The event of one that is whole again names the resource that
had limited it. -/
def rescale (s : State) : State × Bool :=
  let new := s.regl.guar.map (fun (e : Nat × Guar) => (e.1, limiting s e.1 e.2, e.2.f))
  let chg := new.filter (fun x => x.2.1.2 ≠ x.2.2)
  if chg.isEmpty then (s, false)
  else
    let lim := fun (k : Nat) (r : Res × Nat) => if r.2 < 1024 then r.1.1 else (s.guar k).lim
    let gs := chg.foldl (fun m x => NMap.upd Guar.init m x.1 (fun g => { g with f := x.2.1.2, changed := true, lim := lim x.1 x.2.1 })) s.regl.guar
    let evs := (chg.map (fun x => (lim x.1 x.2.1, x.2.1.2))).eraseDups
    (evs.foldl (fun s (e : Nat × Nat) => postEvent 0x0602 [(0, e.1), (2, e.2)] s) { s with regl.guar := gs }, true)
/-- Recompute capacities, and reservations where a factor has changed (R355). -/
def recompute (s : State) : State := let r := rescale s; if r.2 then recomputeRsv r.1 else r.1

/-- An event in its place among those of its core clock: after every one of its code or a lower one (R419). -/
def evPlace (e : Ev) : List Ev → List Ev
  | [] => [e]
  | f :: l => if f.code ≤ e.code then f :: evPlace e l else e :: f :: l
/-- Events in ascending code order, those of one code in order of generation. -/
def evSort (l : List Ev) : List Ev := l.foldl (fun a e => evPlace e a) []
/-- The events staged since SEQ stood at `q0`, those of one core clock, in ascending code order, their SEQ values with them, and their words, those
that the Event FIFO took since its own SEQ stood at `f0` (R419, R445; log 58). -/
def evOrder (q0 : BitVec 32) (f0 : BitVec 15) (s : State) : State :=
  let n := (s.cp.evSeq - q0).toNat
  if n ≤ 1 then s
  else
    let new := fun (e : Ev) => decide ((e.seq - q0).toNat < n)
    let old := s.cp.staged.filter new
    let l := ((evSort old).zip old).map (fun x => { x.1 with seq := x.2.seq })
    { s with
      cp.staged := s.cp.staged.filter (fun e => !new e) ++ l
      regs.evf.words := s.regs.evf.words.map (fun w =>
        match if bits w 47 40 = (1 : Byte) && decide ((bits w 62 48 - f0).toNat < (s.regs.evf.seq - f0).toNat) then l.find? (fun e => nbits e.seq 23 0 = nbits w 39 16) else none with
        | some e => putBits w 0 16 e.code.toNat
        | none => w) }
/-- Whole °C of a threshold of THERM_CTRL. -/
def thermC (s : State) (b : Nat) : Nat := nbits s.regs.thermCtrl (b + 7) b
/-- THROTTLE_EN (R514). -/
def throttleEn (s : State) : Bool := bit s.regs.thermCtrl 0
/-- The effective threshold of a level 1 to 3 (R514). -/
def levelC (s : State) (n : Nat) : Nat :=
  let l3 := min (thermC s 24) 140
  let l2 := min (thermC s 16) l3
  if n = 3 then l3 else if n = 2 then l2 else min (thermC s 8) l2
/-- The thermal level changes (R512): posted with K_thr in 1/1,024, the capacities anew; only the level itself while nothing but AO runs. -/
def setLevel (n : Nat) (s : State) : State :=
  if s.ao.level.toNat = n then s
  else
    let t := { s with ao.level := BitVec.ofNat 2 n }
    if s.off then t else evOrder s.cp.evSeq s.regs.evf.seq (recompute (postEvent 0x0706 [(0, n), (2, 256 * kThr t)] t))

end Sys2Proof.Machine
end

