-- ==== Sys2Proof/Machine/Track.lean ====
section
/-! DEFINITION. What follows a message or a write from outside the slices: monitor counts, sending with credits, stream line status and the
watermark, the points of a write, fences and losses. -/
namespace Sys2Proof.Machine

/-- Add to a monitor word; the wrap of COUNT sets OVF, and with its enable set posts COUNTER_OVF and sends vector 19 (R476, R482). -/
def monAdd (old : BitVec 64) (n : Nat) : BitVec 64 × Bool :=
  let c := nbits old 47 0 + n
  (BitVec.ofNat 64 (c % 2 ^ 48 + (if c < 2 ^ 48 then nbits old 63 63 else 1) * 2 ^ 63), decide (2 ^ 48 ≤ c))
/-- COUNTER_OVF and its message (R482). -/
def monOvf (ie : Bool) (mon i : Nat) (s : State) : State := if ie then sendMsix 19 (postEvent 0x0701 [(0, mon), (1, i)] s) else s
/-- Counter k (0 the cycle counter) of port monitor p takes n. -/
def monPortWord (p k n : Nat) (s : State) : State :=
  let (v, o) := monAdd (NMap.get 0 s.regs.monP (5 * p + k)) n
  let s' := { s with regs.monP := NMap.set 0 s.regs.monP (5 * p + k) v }
  if o then monOvf (bit s.regs.monIeP (5 * p + k)) p k s' else s'
/-- A port monitor event (R478). -/
def monPort (p ev n : Nat) (s : State) : State :=
  if n = 0 || !bit s.regs.monCtrl p then s
  else (List.range 4).foldl (fun s i => if (NMap.get 0 s.regs.monPE (4 * p + i)).toNat = ev then monPortWord p (i + 1) n s else s) s
/-- The attributes of a system event: master, line, class, privilege (R479, R480). -/
structure Attr where
  master : Option (BitVec 18)
  line : Option LineNo
  cls : Option Nat
  priv : Option Bool
deriving DecidableEq, Repr
/-- The filters of MON_SYS_SET pass an event (R480). -/
def monMatch (f : BitVec 272) (a : Attr) : Bool :=
  (!bit f 17 || match a.master with | some n => decide ((n.toNat ^^^ nbits f 49 32) &&& nbits f 81 64 = 0) | none => false) &&
  (!bit f 18 || match a.line with | some l => decide (nbits f 167 128 ≤ l.toNat) && decide (l.toNat ≤ nbits f 231 192) | none => false) &&
  (!bit f 19 || match a.cls with | some c => bit f (256 + c) | none => false) &&
  (!bit f 16 || match a.priv with | some v => v == bit f 264 | none => false)
/-- A system monitor event (R479). -/
def monSys (ev n : Nat) (a : Attr) (s : State) : State :=
  if n = 0 || !bit s.regs.monCtrl 12 then s
  else (List.range 8).foldl (fun s j =>
    let f := NMap.get 0 s.regs.monSE j
    if nbits f 15 0 = ev && monMatch f a then
      let (v, o) := monAdd (NMap.get 0 s.regs.monS (j + 1)) n
      let s' := { s with regs.monS := NMap.set 0 s.regs.monS (j + 1) v }
      if o then monOvf (bit s.regs.monIeS (j + 1)) 12 (j + 1) s' else s'
    else s) s
/-- Attributes of a request from a port. -/
def attrOf (h : Slot) : Attr := ⟨some (Hd.src h), some (Hd.line h), some (Hd.tc h).toNat, some (Hd.priv h)⟩
/-- Attributes of a hub-internal access to a line. -/
def attrLine (l : LineNo) : Attr := ⟨none, some l, none, none⟩

/-- A port sends and receives Walkan messages: up or frozen (R207, R227). -/
def Port.open_ (q : Port) : Bool := q.link = 3 || q.link = 5
/-- The next sequence number (R167). -/
def seqNext (x : BitVec 16) : BitVec 16 := if x = 0xFFFE then 0 else x + 1
/-- The slots of a message at the front of a flit (R165, R185), its trailer still empty; the hub sends one message in a flit (log 33). -/
def flitOf (m : Msg) : Flit :=
  BitVec.ofNat 2048 (m.h.toNat + (if Hd.op m.h = 0x8C then m.mask.toNat <<< 128 + m.data.toNat <<< 256 else if 1 < Hd.len (Hd.op m.h) then m.data.toNat <<< 128 else 0))
/-- The sequence number before one (R167). -/
def seqPrev (x : BitVec 16) : BitVec 16 := if x = 0 then 0xFFFE else x - 1
/-- A flit as it goes out: its slots, cumulative credit returns, SEQ, ACK and CRC (R165, R166, R171, R178). -/
def trailer (q : Port) (sq : BitVec 16) (f : Flit) : Flit :=
  let cr := ((List.range 4).map (fun c => NMap.get 0 q.crOut c <<< (1920 + 8 * c))).sum
  let g := (bits f 1919 0).toNat + cr + sq.toNat <<< 1952 + (seqPrev q.rxE).toNat <<< 1968
  BitVec.ofNat 2048 (g + (crc64 (leBytes 248 g)).toNat <<< 1984)
/-- A flit leaves: each credit-return field goes on by what is owed, by at most 255 (R178). -/
def flitOut (q : Port) (sq : BitVec 16) (f : Flit) : Port × Flit :=
  let q := (List.range 4).foldl (fun q c =>
    let k := min 255 (NMap.get 0 q.crOwe c)
    { q with crOwe := NMap.upd 0 q.crOwe c (· - k), crOut := NMap.upd 0 q.crOut c (fun x => (x + k) % 256) }) q
  (q, trailer q sq f)
/-- One waiting message: placed in a flit that is kept for replay where its class's credits and the replay buffer allow (R169, R178), else left. -/
def placeOne (a : List Msg × Port × List (Msg × Flit)) (m : Msg) : List Msg × Port × List (Msg × Flit) :=
  let c := Hd.cls (Hd.op m.h)
  let n := Hd.len (Hd.op m.h)
  let q := a.2.1
  let have_ := NMap.get 0 q.txCr c
  if a.1.any (fun w => Hd.cls (Hd.op w.h) = c) || have_ < n || 512 ≤ q.replay.length then (a.1 ++ [m], q, a.2.2)
  else
    let r := flitOut { q with txCr := NMap.set 0 q.txCr c (have_ - n), replay := q.replay ++ [(q.txSeq, flitOf m)] } q.txSeq (flitOf m)
    (a.1, { r.1 with txSeq := seqNext q.txSeq }, a.2.2 ++ [(m, r.2)])
/-- Place what may be placed of the waiting messages, each class in its order (R178, R187); nothing goes while the PHY is in Recovery (R173). A new
flit follows the last one of a replay, which has then ended (R172). -/
def flushTx (p : Nat) (s : State) : State :=
  let q := s.port p
  if q.inRec then s
  else
    let r := q.txQ.foldl placeOne ([], q, [])
    let s := s.updPort p (fun _ => { r.2.1 with txQ := r.1, replayFrom := if r.2.2.isEmpty then q.replayFrom else none })
    r.2.2.foldl (fun s m =>
      let c := Hd.cls (Hd.op m.1.h)
      let s := monPort p 1 1 (monPort p (if c = 1 then 7 else if c = 3 then 0x0A else 0) (if c = 1 || c = 3 then 1 else 0) s)
      s.put (.msg p m.1 m.2)) s
/-- A message of an opcode would leave at once (R169, R173, R178). -/
def Port.canSend (q : Port) (op : Nat) : Bool :=
  !q.inRec && !q.txQ.any (fun w => Hd.cls (Hd.op w.h) = Hd.cls op) && decide (Hd.len op ≤ NMap.get 0 q.txCr (Hd.cls op)) && decide (q.replay.length < 512)
/-- A control flit goes out: its slot 0 is a LINK message, or IDLE (R167, R175). -/
def ctrlFlit (p : Nat) (m : Slot) (s : State) : State :=
  let r := flitOut (s.port p) 0xFFFF (m.setWidth 2048)
  (monPort p 3 1 (s.updPort p (fun _ => r.1))).put (.ctrl p r.2)
/-- Credits that are owed go out in IDLE flits, which flow whenever there is nothing else to send (R167, R178). Those without news are left out
(DESIGN CHOICE, log 97). -/
def flowCredits (p : Nat) (s : State) : State :=
  (List.range 10).foldl (fun s _ =>
    if (s.port p).crOwe.isEmpty || !(s.port p).open_ || (s.port p).inRec || s.mode = 4 then s else ctrlFlit p 0 s) s
/-- Send a message to a port; nothing is sent to a port that is down or lost (R178, R227), nor in REPLAY mode (R494). -/
def tx (p : Nat) (h : Slot) (data : Line) (s : State) : State :=
  if (s.port p).open_ then
    let s := capTx p h 0 data s
    if s.mode = 4 then s else flushTx p (s.updPort p (fun q => { q with txQ := q.txQ ++ [⟨h, 0, data, false⟩] }))
  else s
/-- Send a message with a byte mask (R185). -/
def txMask (p : Nat) (h mask : Slot) (data : Line) (s : State) : State :=
  if (s.port p).open_ then
    let s := capTx p h mask data s
    if s.mode = 4 then s else flushTx p (s.updPort p (fun q => { q with txQ := q.txQ ++ [⟨h, mask, data, false⟩] }))
  else s
/-- The identifier of the peer of a port (R205). -/
def State.peer (s : State) (p : Nat) : BitVec 18 := (s.port p).cfg.peerId
/-- A hub message to a port (R183). -/
def txMsg (p op : Nat) (tag : BitVec 12) (line : LineNo) (aux : BitVec 18) (s : State) : State :=
  tx p (Hd.mk op s.links.base (s.peer p) tag line 0 aux) 0 s
/-- Bytes of read data count in COMPAT_RD_BYTES of the class answered and as delivered (R356, R359), where the message is sent at all: nothing goes to a
port that is down or lost, and in REPLAY mode no message leaves. -/
def readBytes (p cls n : Nat) (s : State) : State :=
  if s.mode = 4 || !(s.port p).open_ then s
  else { s with
    regs.compRd := cntAdd s.regs.compRd cls n
    regl.deliv := NMap.upd 0 s.regl.deliv (5 * p + cls) (· + n) }
/-- A data message; poisoned data carries zeros (R365). -/
def txData (p op : Nat) (tag : BitVec 12) (line : LineNo) (cls n : Nat) (d : Line) (psn : Bool) (s : State) : State :=
  readBytes p cls n (tx p (Hd.mk op s.links.base (s.peer p) tag line 0 (if psn then 1 else 0)) (if psn then 0 else d) s)
/-- A TAG is free again (R183). -/
def freeTag (p : Nat) (tag : BitVec 12) (s : State) : State := s.updPort p (fun q => { q with tags := q.tags.erase tag })
/-- The status Comp carries for a lost write (R369). -/
def wrLostStatus : BitVec 18 := 3

/-- An open transaction of a pair ends: O falls and its latency is summed (R345, R350). -/
def endOpen (p cls : Nat) (take : BitVec 64) (s : State) : State :=
  { s with
    links.ports := NMap.upd Port.init s.links.ports p (fun q => { q with opn := NMap.upd 0 q.opn (5 * p + cls) (· - 1) })
    regl.latSum := NMap.upd (0, 0) s.regl.latSum (5 * p + cls) (fun v => (v.1 + 1, v.2 + (s.cycle - take.toNat))) }

/-- Ring length in lines (R267). -/
def Ctx.ring (c : Ctx) : Nat := c.ringLen.toNat * 32
/-- B, the lowest offset still tracked (R267). -/
def Ctx.bOff (c : Ctx) : Nat := min c.wm c.hashed
/-- The first offset beyond the window (R267). -/
def Ctx.lim (c : Ctx) : Nat := (c.bOff / 128 + 32) * 128
/-- The offset of a line (R267). -/
def Ctx.offOf (c : Ctx) (l : Nat) : Nat :=
  let r := l - c.ringBase.toNat * 32
  c.bOff + (r + c.ring - c.bOff % c.ring) % c.ring
/-- The line of an offset. -/
def Ctx.lineOfOff (c : Ctx) (n : Nat) : LineNo := BitVec.ofNat 40 (c.ringBase.toNat * 32 + n % c.ring)
/-- Status of an offset. -/
def Ctx.off (c : Ctx) (n : Nat) : OffSt := NMap.get OffSt.init c.st n
/-- The context's own offset status changed. -/
def updOff (sid n : Nat) (f : OffSt → OffSt) (s : State) : State :=
  s.updCtx sid (fun c => { c with st := NMap.upd OffSt.init c.st n f })
/-- BAD_CAUSE: the cause of the lowest BAD offset at or above WATERMARK (R273). -/
def Ctx.badCause (c : Ctx) : BitVec 4 :=
  match c.st.find? (fun e => e.2.bad && decide (c.wm ≤ e.1)) with | some e => e.2.cause | none => 0
/-- SPLIT_OPEN: some tracked offset has SPLIT set (R272). -/
def Ctx.splitOpen (c : Ctx) : Bool := c.st.any (fun e => e.2.split)
/-- Consecutive BAD offsets from n (R279). -/
def badRun (c : Ctx) : Nat → Nat → Nat
  | 0, _ => 0
  | k + 1, n => if (c.off n).bad then badRun c k (n + 1) + 1 else 0
/-- The lowest hole (R274): tracked, neither DONE nor BAD, some higher one DONE. -/
def Ctx.theHole (c : Ctx) : Option Nat :=
  let top := (c.st.filter (fun e => e.2.done)).foldl (fun a e => max a e.1) 0
  (List.range (min (top - c.bOff) 4096)).map (· + c.bOff) |>.find? (fun n => !(c.off n).done && !(c.off n).bad)
/-- An armed notice slot whose mark WATERMARK has reached fires (R284): k crossings by STEP, one event. A slot that is disarmed because its next mark
would pass 2^48 − 1 keeps the MARK it had (DESIGN CHOICE, log 128). -/
def fireNotice (k : Nat) (s : State) : State :=
  let n := NMap.get Notice.init s.str.notices k
  let wm := (s.ctx n.stream.toNat).wm
  if n.armed && decide (n.mark ≤ wm) then
    let c := if n.step = 0 then 1 else (wm - n.mark) / n.step + 1
    let s := postEvent 0x0304 [(0, k), (2, n.stream.toNat), (6, wm), (12, c)] s
    { s with str.notices := NMap.upd Notice.init s.str.notices k (fun n =>
        { n with
          fired := true, crossings := BitVec.ofNat 32 (min (2 ^ 32 - 1) (n.crossings.toNat + c))
          armed := decide (n.step ≠ 0) && decide (n.mark + c * n.step < 2 ^ 48), mark := if n.mark + c * n.step < 2 ^ 48 then n.mark + c * n.step else n.mark }) }
  else s
/-- The notices of a stream are judged (R284, R288). -/
def fireNotices (sid : Nat) (s : State) : State :=
  (s.str.notices.filter (fun e => e.2.stream.toNat = sid)).foldl (fun s e => fireNotice e.1 s) s
/-- Every notice is judged on the value its stream's WATERMARK holds at the end of the core clock, which is the row (R277, R284; log 58). -/
def noticesAll (s : State) : State := s.str.notices.foldl (fun s e => fireNotice e.1 s) s
/-- Release the status and blocks of offsets below B (R269). -/
def releaseOff (sid : Nat) (s : State) : State :=
  let c := s.ctx sid
  let keep := c.blocks.filter (fun b => decide (c.bOff < (b + 1) * 128))
  { s.updCtx sid (fun c => { c with st := c.st.filter (fun e => decide (c.bOff ≤ e.1)), blocks := keep }) with
    str.blocks := s.str.blocks - (c.blocks.length - keep.length) }
/-- Step WATERMARK while it can pass (R276). -/
def passWm : Nat → Ctx → Ctx
  | 0, c => c
  | k + 1, c =>
    let o := c.off c.wm
    if !c.gapPend && o.done && o.pers && !o.split && !o.bad then passWm k { c with wm := c.wm + 1 } else c
/-- Advance WATERMARK past what the row has marked; a BAD offset sets GAP_PEND, logged and posted with the run of BAD offsets known by then (R276,
R277, R279); the status below B is released (R269). -/
def advanceWm (sid : Nat) (s : State) : State :=
  let c0 := s.ctx sid
  if c0.state = 0 then s
  else
    let c := passWm 4096 c0
    let gap := !c.gapPend && (c.off c.wm).bad
    let s := s.updCtx sid (fun _ => { c with gapPend := c.gapPend || gap })
    let s := if gap then
        postEvent 0x0303 [(0, sid), (4, c.wm), (10, c.badCause.toNat), (12, badRun c 4096 c.wm)]
          { logErr 0x0036 3 7 0 0 c.wm (sid + c.badCause.toNat * 2 ^ 18) s with str.gaps := s.str.gaps + 1 }
      else s
    let s := releaseOff sid s
    s.updCtx sid (fun c => { c with hole := c.theHole })
/-- The watermarks of all streams advance, at the end of a core clock (R276, R277). -/
def wmAll (s : State) : State := s.str.ctx.foldl (fun s e => advanceWm e.1 s) s
/-- An offset becomes BAD (R273), unless it already is or is no longer tracked; its WATERMARK sees it at the end of the clock (R277). -/
def offBad (sid n : Nat) (cause : BitVec 4) (s : State) : State :=
  let c := s.ctx sid
  if c.state = 0 || n < c.bOff || (c.off n).bad then s
  else updOff sid n (fun o => { o with bad := true, cause := cause }) s

/-- A line is poisoned (R273): the tracked offsets it stands for that have been written and are not persisted become BAD. One that has received no
write holds nothing that the poison spoils (DESIGN CHOICE, log 113). -/
def poisonOffs (l : LineNo) (s : State) : State :=
  let hit := s.str.ctx.flatMap (fun c => if c.2.state = 0 then [] else
    (c.2.st.filter (fun o => o.2.got && !o.2.pers && c.2.lineOfOff o.1 = l)).map (fun o => (c.1, o.1)))
  hit.foldl (fun s x => offBad x.1 x.2 2 s) s

/-- A write record. -/
def State.wrOf (s : State) (id : Nat) : Option Wr := s.links.writes.find? (fun w => w.id = id)
/-- Change a write record. -/
def updWr (id : Nat) (f : Wr → Wr) (s : State) : State := { s with links.writes := s.links.writes.map (fun w => if w.id = id then f w else w) }
/-- The last point a write's region requires (R241). -/
def Wr.last (w : Wr) : Nat := if w.dur then 3 else 2
/-- The point a fence kind waits for: ORDER visible, DURABLE persisted, DEVICE complete (R251). -/
def fencePt (k : BitVec 2) : Nat := if k = 0 then 1 else if k = 1 then 3 else 2
/-- FenceDone for a fence with no covered write pending and no upward fence outstanding (R251, R254). -/
def fenceEnd (p : Nat) (f : Fence) (s : State) : State :=
  let lost := f.lost ≠ 0 || f.upLost
  let s := if f.lost ≠ 0 then
      postEvent 0x0301 [(0, p), (1, f.kind.toNat), (2, f.firstReg), (4, f.lost)]
        (logErr 0x0035 3 1 p 0 f.firstReg (f.kind.toNat + 4 * f.lost) s)
    else s
  freeTag p f.tag (txMsg p 0x68 f.tag 0 (if lost then 0x10 else 0) s)
/-- A fence with no covered write pending and no upward fence to send or outstanding (R237, R251). -/
def Fence.over (f : Fence) : Bool := f.ids.isEmpty && f.ups.isEmpty && f.toSend.isEmpty
/-- End every fence of a port that can end. -/
def fencesEnd (p : Nat) (s : State) : State :=
  let q := s.port p
  let done := q.fences.filter Fence.over
  if done.isEmpty then s
  else done.foldl (fun s f => fenceEnd p f s) (s.updPort p (fun q => { q with fences := q.fences.filter (fun f => !f.over) }))
/-- A record that a fence or a loss count of its port may see (R251): a write or WbData of the agent since the port was last initialised. -/
def Wr.seen (w : Wr) : Bool := !w.old && w.op ≠ 0x88
/-- A fence covers a write (R251): taken before it, of the kind it covers; WbData ahead of it in the message stream, of a DURABLE fence only. -/
def Fence.covers (f : Fence) (w : Wr) : Bool :=
  w.seen && (if w.op = 0x89 then f.kind = 1 && w.dur && decide (w.id < f.beforeWb)
    else decide (w.id < f.before_) && (f.kind = 0 || (if f.kind = 1 then w.dur || w.remote else w.dev)))
/-- The point at which a fence of a kind no longer waits for a write (R251); a remote one is first to be complete at its home hub (R237). -/
def Wr.fenced (w : Wr) (k : BitVec 2) : Nat := if w.remote then 2 else fencePt k
/-- A write of a port no longer holds back the fences it has reached the point of; a loss is counted by every fence that covers it (R251, R254). -/
def fenceSee (w : Wr) (pt : Nat) (lost : Bool) (s : State) : State :=
  fencesEnd w.port (s.updPort w.port (fun q => { q with fences := q.fences.map (fun f =>
    { f with
      ids := if lost || w.fenced f.kind ≤ pt then f.ids.erase w.id else f.ids
      lost := f.lost + b2n (lost && f.covers w)
      firstReg := if lost && f.covers w && f.lost = 0 then w.region else f.firstReg }) }))
/-- Send a write's Comp once: nothing for a silent record, nothing to a lost port (R225, R246). -/
def sendComp (id : Nat) (st : BitVec 18) (s : State) : State :=
  match s.wrOf id with
  | some w =>
    if w.compSent || w.silent then s
    else
      let s := freeTag w.port w.tag (endOpen w.port w.tc.toNat w.take (txMsg w.port 0x60 w.tag w.line st (updWr id (fun w => { w with compSent := true }) s)))
      if st = 0 && s.mode ≠ 4 then { s with regl.deliv := NMap.upd 0 s.regl.deliv (5 * w.port + w.tc.toNat) (· + w.bytes) } else s
  | none => s
/-- The write's offset sees the write visible: DONE when its bytes include byte 127 (R270). -/
def offVisible (w : Wr) (mask : Slot) (s : State) : State :=
  match w.stream with
  | some sid => if w.tracked && bit mask 127 then updOff sid.toNat w.off (fun o => { o with done := true }) s else s
  | none => s
/-- The write's offset sees the write persisted: PERS, and SPLIT of its lower half cleared (R271, R272). -/
def offPersisted (w : Wr) (s : State) : State :=
  match w.stream with
  | some sid =>
    let s := match w.low with
      | some l => updOff sid.toNat l (fun o => { o with split := false }) s
      | none => s
    if w.tracked then
      updOff sid.toNat w.off (fun o => { o with opn := o.opn - 1, pers := o.pers || (o.done && decide (o.opn ≤ 1) && !o.hurt) }) s
    else s
  | none => s
/-- A write reaches a point (R241): fences see it, Comp goes out at its point (R246), and the record ends at its last point. -/
def wrPoint (id pt : Nat) (s : State) : State :=
  match s.wrOf id with
  | some w =>
    if w.lost || pt ≤ w.pt then s
    else
      let s := updWr id (fun w => { w with pt := pt }) s
      let s := if w.ack ≤ pt then sendComp id 0 s else s
      let s := if pt = 3 then offPersisted w s else s
      let s := fenceSee w pt false s
      if w.last ≤ pt then { s with links.writes := s.links.writes.filter (fun w => w.id ≠ id) } else s
  | none => s
/-- A port's count of the writes of a fence kind that have been lost, with the region of the first (R254). -/
def Port.addLoss (k region : Nat) (q : Port) : Port :=
  let n := if k = 0 then q.lostAll else if k = 1 then q.lostDur else q.lostDev
  { q with
    lostReg := if n = 0 then NMap.set 0 q.lostReg k region else q.lostReg
    lostAll := q.lostAll + b2n (k = 0), lostDur := q.lostDur + b2n (k = 1), lostDev := q.lostDev + b2n (k = 2) }
/-- A port counts the loss of a write under each kind of fence that covers it; that of a durable WbData behind a Fence that waits to be taken counts
once the Fence has gone (R251, R254). -/
def Port.countLoss (w : Wr) (q : Port) : Port :=
  if !w.seen then q
  else
    let q := if w.op ≠ 0x89 then q.addLoss 0 w.region else q
    let q := if w.dev then q.addLoss 2 w.region else q
    if !w.dur then q
    else if w.op = 0x89 && q.fenceAt.any (fun x => x ≤ w.id) then { q with lateWb := q.lateWb ++ [(w.id, w.region)] }
    else q.addLoss 1 w.region
/-- The Fence at the front of those in the receive buffer goes: what was lost behind it alone counts from now on (R251, R254). -/
def Port.fenceNext (q : Port) : Port :=
  let ahead := q.fenceAt.drop 1
  let held := fun (x : Nat × Nat) => ahead.any (fun a => a ≤ x.1)
  (q.lateWb.filter (fun x => !held x)).foldl (fun q x => q.addLoss 1 x.2) { q with fenceAt := ahead, lateWb := q.lateWb.filter held }
/-- A write is lost (R242): counted, seen by fences, its Comp WRITE_LOST, its offset BAD with the cause (R254, R273, R369). -/
def wrLose (id : Nat) (cause : BitVec 4) (s : State) : State :=
  match s.wrOf id with
  | some w =>
    let s := cntErr 10 1 s
    let s := if s.drain.step ≠ 0 && !s.ao.drainDone then { s with ao.rep.lost := s.ao.rep.lost + 1 } else s
    let s := s.updPort w.port (Port.countLoss w)
    let s := sendComp id wrLostStatus s
    let s := fenceSee w w.pt true s
    let s := { s with links.writes := s.links.writes.filter (fun w => w.id ≠ id) }
    match w.stream with
    | some sid =>
      let s := match w.low with | some l => offBad sid.toNat l cause s | none => s
      if w.tracked then offBad sid.toNat w.off cause (updOff sid.toNat w.off (fun o => { o with opn := o.opn - 1, hurt := true }) s) else s
    | none => s
  | none => s

/-- Every write of a list is lost (R242). -/
def loseAll (l : List Nat) (cause : BitVec 4) (s : State) : State := l.foldl (fun s id => wrLose id cause s) s
/-- A line is poisoned: its tracked offsets become BAD (R273), and every durable write to it that is visible and not yet persisted is lost (R242,
R256). -/
def poisonDur (l : LineNo) (s : State) : State :=
  loseAll (((s.slice (homeSlice l)).wb.filter (fun b => b.line = l && b.dur && b.visible)).flatMap (fun b => b.writes)) 2 (poisonOffs l s)

/-- A split pair is torn (R259): TORN_SPLIT logged and posted, the lower half's offset BAD with cause TORN (R272). -/
def tear (p : Nat) (e : Half) (s : State) : State :=
  let s := s.updPort p (fun q => { q with splits := q.splits.filter (fun x => x.id ≠ e.id) })
  let s := postEvent 0x0302 [(0, p), (1, e.id.toNat), (8, e.line.toNat)] (logErr 0x0034 3 1 p 0 e.line.toNat e.id.toNat s)
  match e.off with | some (sid, n) => offBad sid.toNat n 6 s | none => s
/-- Every open split pair of a port is torn. -/
def tearAll (p : Nat) (s : State) : State := (s.port p).splits.foldl (fun s e => tear p e s) s

end Sys2Proof.Machine
end

