-- ==== Sys2Proof/Machine/Store.lean ====
section
/-! DEFINITION. The stores of a slice: DRAM rows with their tag blocks and check entries (R57-R70), the tag-block cache (R71-R73), the directory
(R211, R373), and the buffers. -/
namespace Sys2Proof.Machine

/-- Tag entry of way w in a tag block (R60, R63). -/
def teOf (b : TagBlock) (w : Nat) : BitVec 32 := bits b (32 * w + 31) (32 * w) |>.setWidth 32
/-- REPL of a tag block (R60). -/
def replOf (b : TagBlock) : BitVec 256 := bits b 703 448 |>.setWidth 256
/-- CE_COUNT of a tag block (R61). -/
def ceOf (b : TagBlock) : Nat := nbits b 735 720
/-- FORMAT is 0x7C01 (R61). -/
def fmtOk (b : TagBlock) : Bool := nbits b 719 704 = 0x7C01
/-- A tag block with its REPL replaced. -/
def setRepl (b : TagBlock) (r : BitVec 256) : TagBlock := putBits b 448 256 r.toNat
/-- A formatted tag block (R91). -/
def fmtBlock (r : BitVec 256) : TagBlock := tbSeal (putBits (setRepl 0 r) 704 16 0x7C01)
/-- A tag entry from its fields (R63). -/
def mkTe (tag : BitVec 18) (d dur psn pf ofr : Bool) (part cls : Nat) : BitVec 32 :=
  BitVec.ofNat 32 (tag.toNat <<< 14 + 2 ^ 13 + 2 ^ 12 * b2n d + 2 ^ 11 * b2n dur + 2 ^ 10 * b2n psn + 2 ^ 9 * b2n pf + 2 ^ 8 * b2n ofr + 16 * part + 4 * cls)
/-- REPL as the latest INVALIDATE_ALL that did not pass a set over wrote it, where nothing has written the row since (R91). -/
def State.fmtOf (s : State) (set : Nat) : Option (BitVec 256) :=
  match s.cache.fmtLog.find? (fun f => !s.retiredIn f.2.1 f.2.2.1 f.2.2.2 set) with
  | some f => some f.1
  | none => if s.cache.formatted then some s.cache.fmtRepl else none
/-- The tag block a row holds (R60, R91): as INVALIDATE_ALL wrote it where nothing has written it since. -/
def State.rowTb (s : State) (set : Nat) : TagBlock :=
  let b := NMap.get 0 s.cache.tb set
  if b ≠ 0 then b else match s.fmtOf set with | some r => fmtBlock r | none => Config.dramPowerOn (set * 16 + 14)
/-- An injection armed for a kind and operand is spent (R398). -/
def injHit (kinds : List Nat) (m : BitVec 64 → Bool) (s : State) : Option Nat :=
  match s.err.inj with
  | some i => if kinds.contains i.kind && m i.opnd then some i.kind else none
  | none => none
/-- Symbols 0 to n − 1 inverted. -/
def flipSyms (n : Nat) : ErrPat := (List.range n).map (fun i => (i, 0xFFFF))
/-- Write a tag block to its row with a correct TB_CHECK (R69); an armed injection inverts 5 symbols (R398). -/
def writeRowTb (set : Nat) (b : TagBlock) (s : State) : State :=
  match injHit [2] (fun o => nbits o 25 0 = set) s with
  | some _ => { s with
      err.inj := none, cache.tb := NMap.set 0 s.cache.tb set (ofSymbols 1024 (hurt (flipSyms 5) (symbols 64 (tbSeal b))))
      cache.tbSent := NMap.set 0 s.cache.tbSent set (tbSeal b) }
  | none => { s with cache.tb := NMap.set 0 s.cache.tb set (tbSeal b), cache.tbSent := NMap.erase s.cache.tbSent set }
/-- The block that the hub wrote last to a row, whatever an injection made of it on the way (R129, R398). -/
def State.sentTb (s : State) (set : Nat) : TagBlock := let b := NMap.get 0 s.cache.tbSent set; if b ≠ 0 then b else s.rowTb set
/-- The tag-block cache entry of a set (R71). -/
def State.tbcOf (s : State) (set : Nat) : TbcEnt := NMap.get TbcEnt.init (s.slice (set % 8)).tbc set
/-- The tag block the hub works with: the one on chip, otherwise the row's. -/
def State.curTb (s : State) (set : Nat) : TagBlock := if (s.tbcOf set).valid then (s.tbcOf set).block else s.rowTb set
/-- Count a tag entry's D, DUR and PART into DIRTY_LINES, LOST_DIRTY and OCCUPANCY (R104, R129, R262). -/
def countTe (te : BitVec 32) (add : Bool) (s : State) : State :=
  let f := fun (n : Nat) (b : Bool) => if b then (if add then n + 1 else n - 1) else n
  { s with
    cache.dirty := f s.cache.dirty (bit te 13 && bit te 12)
    cache.dirtyPlain := f s.cache.dirtyPlain (bit te 13 && bit te 12 && !bit te 11)
    cache.occ := NMap.upd 0 s.cache.occ (nbits te 7 4) (fun n => f n (bit te 13)) }
/-- Put a tag block in force: on chip where the set is cached, and in the row with any pending REPL (R72). -/
def putTb (set : Nat) (b : TagBlock) (s : State) : State :=
  let e := s.tbcOf set
  let s := writeRowTb set b s
  if e.valid then s.updSlice (set % 8) (fun h => { h with tbc := NMap.set TbcEnt.init h.tbc set { e with block := tbSeal b, replDirty := false } }) else s
/-- The way's tag entry becomes `te` (R64): row and chip, counts, and the check entry's tag contribution (R70). -/
def putTe (set w : Nat) (te : BitVec 32) (s : State) : State :=
  let b := s.curTb set
  let old := teOf b w
  let s := countTe te true (countTe old false s)
  let s := if bit old 13 && bit old 9 && (!bit te 13 || decide (nbits te 31 14 ≠ nbits old 31 14)) then cntPf 3 1 s else s
  let s := if bit te 13 && bit old 13 then
      { s with cache.check := NMap.upd 0 s.cache.check (set * 16 + w) (· ^^^ lineCheck 0 (old ^^^ te)) }
    else s
  putTb set (putBits b (32 * w) 32 te.toNat) s
/-- Write a line's data and check entry into its slots (R65); an armed injection inverts 1 or 3 symbols of it (R398). -/
def writeSlot (set w : Nat) (te : BitVec 32) (d : Line) (s : State) : State :=
  let l := lineOf ((s.popK).getD 26) set (bits te 31 14 |>.setWidth 18)
  let (stored, s) := match injHit [0, 1] (fun o => nbits o 39 0 = l.toNat) s with
    | some k => (ofSymbols 1024 (hurt (flipSyms (if k = 0 then 1 else 3)) (symbols 64 d)), { s with err.inj := none })
    | none => (d, s)
  { s with
    cache.data := NMap.set 0 s.cache.data (set * 16 + w) stored
    cache.check := NMap.set 0 s.cache.check (set * 16 + w) (lineCheck d te) }
/-- Write a line with its tag entry and check entry (R65, R81). -/
def writeLine (set w : Nat) (te : BitVec 32) (d : Line) (s : State) : State := writeSlot set w te d (putTe set w te s)
/-- The way that holds a line in a tag block (R57): valid, the tag, and an enabled way (R96). -/
def findWay (s : State) (b : TagBlock) (l : LineNo) : Option Nat :=
  (List.range 14).find? (fun w => bit s.hitWays w && bit (teOf b w) 13 && decide (nbits (teOf b w) 31 14 = (tagOf l).toNat))
/-- The line a way of a set holds (R57). -/
def State.wayLine (s : State) (set w : Nat) : LineNo := lineOf ((s.popK).getD 26) set (BitVec.ofNat 18 (nbits (teOf (s.curTb set) w) 31 14))
/-- The set of a line is in use: a trained population, not retired. -/
def State.setUsable (s : State) (l : LineNo) : Bool := s.popK.isSome && !s.retired (s.setOf l)
/-- The set and way that hold a line, looked up in the block in force (R57). -/
def State.resident (s : State) (l : LineNo) : Option (Nat × Nat) :=
  if s.cache.enabled && s.setUsable l && !(s.slice (homeSlice l)).lostSets.contains (s.setOf l) then
    (findWay s (s.curTb (s.setOf l)) l).map (fun w => (s.setOf l, w))
  else none
/-- Decode the line of a way under an error pattern (R67). -/
def State.readLine (s : State) (set w : Nat) (e : ErrPat) : Option (Line × Nat) :=
  lineDecode (NMap.get 0 s.cache.data (set * 16 + w)) (teOf (s.curTb set) w) (NMap.get 0 s.cache.check (set * 16 + w)) e

/-- The bytes a poisoned way holds; those of a way that does not decode are open (log 71). -/
def State.psnData (s : State) (set w : Nat) : Line :=
  match s.readLine set w [] with
  | some (d, _) => d
  | none => Config.lostLine s.nextId

/-- Directory set of a line (R211). -/
def dset (l : LineNo) : Nat := l.toNat / 8 % 49152
/-- Directory tag of a line (R211). -/
def dtag (l : LineNo) : Nat := l.toNat / 8 / 49152
/-- A directory entry's fields (R211). -/
structure De where
  tag : Nat
  st : Nat
  port : Nat
  holders : Nat
  up : Nat
deriving DecidableEq, Repr
/-- Unpack a directory entry. -/
def deOf (w : BitVec 64) : De := ⟨nbits w 63 42, nbits w 41 40, nbits w 39 36, nbits w 35 24, nbits w 23 21⟩
/-- Pack a directory entry; an entry with STATE and UP zero is invalid and is held as 0. -/
def De.word (e : De) : BitVec 64 :=
  if e.st = 0 && e.up = 0 then 0
  else BitVec.ofNat 64 (e.up <<< 21 + e.holders <<< 24 + e.port <<< 36 + e.st <<< 40 + e.tag <<< 42)
/-- An entry that records nothing. -/
def De.none : De := ⟨0, 0, 0, 0, 0⟩
/-- Ports that an entry records, in rising order. -/
def De.list (e : De) : List Nat := (List.range 12).filter (fun p => e.holders.testBit p)
/-- The line of a directory entry of a slice (R211). -/
def dirLine (sl ds tag : Nat) : LineNo :=
  let b := BitVec.ofNat 40 ((tag * 49152 + ds) * 8)
  b ||| BitVec.ofNat 40 (homeSlice b ^^^ sl)
/-- The way that records a line (R211). -/
def Slice.dirWay (h : Slice) (l : LineNo) : Option Nat :=
  (List.range 16).find? (fun w => let e := deOf (NMap.get 0 h.dir (dset l * 16 + w)); (e.st ≠ 0 || e.up ≠ 0) && e.tag = dtag l)
/-- The directory entry of a line (R192, R211). -/
def State.dirOf (s : State) (l : LineNo) : De :=
  let h := s.slice (homeSlice l)
  match h.dirWay l with | some w => deOf (NMap.get 0 h.dir (dset l * 16 + w)) | none => De.none
/-- The way a line's directory entry goes in (R211, R212): its own, else the one that an open transaction of the line holds, else `w`. -/
def Slice.dirPlace (h : Slice) (l : LineNo) (w : Option Nat) : Option Nat :=
  match h.dirWay l, h.tt.find? (fun t => t.line = l && t.step ≠ 0) with
  | some k, _ => some k
  | none, some t => some (t.step - 1)
  | none, none => w
/-- Record a line's directory state (R194, R211). An entry that becomes invalid while a request has its line open keeps its way for it; a line
that has no way records nothing. -/
def setDir (l : LineNo) (w : Option Nat) (e : De) (s : State) : State :=
  let v := { e with tag := dtag l }.word
  match (s.slice (homeSlice l)).dirPlace l w with
  | none => s
  | some k => s.updSlice (homeSlice l) (fun h => { h with
      dir := NMap.set 0 h.dir (dset l * 16 + k) v
      tt := if v = 0 then h.tt.map (fun t => if t.line = l && t.kind = .req && t.step = 0 then { t with step := k + 1 } else t) else h.tt })
/-- Take a port out of an entry (R195): an owner leaves I, a forwarder leaves S where sharers remain. -/
def De.drop (e : De) (p : Nat) : De :=
  if !e.holders.testBit p then e
  else
    let h := e.holders - 2 ^ p
    if h = 0 then { e with st := 0, port := 0, holders := 0 }
    else if e.st = 2 && e.port = p then { e with st := 1, port := 0, holders := h } else { e with holders := h }

/-- Merge masked bytes on top of a line (R185). -/
def mergeLine (base top : Line) (mask : Slot) : Line :=
  BitVec.ofNat 1024 ((List.range 128).foldl (fun a i =>
    a + (if mask.getLsbD i then nbits top (8 * i + 7) (8 * i) else nbits base (8 * i + 7) (8 * i)) <<< (8 * i)) 0)
/-- A line is open: a transaction, an eviction being handled, or a directory recall stands on it (R74, R214). -/
def Slice.isOpen (h : Slice) (l : LineNo) : Bool := h.tt.any (fun t => t.line = l)
/-- The transaction that opens a line. -/
def Slice.txnOn (h : Slice) (l : LineNo) : Option Txn := h.tt.find? (fun t => t.line = l)
/-- A transaction by identifier, with its slice. -/
def State.txn (s : State) (sl id : Nat) : Option Txn := (s.slice sl).tt.find? (fun t => t.id = id)
/-- Change a transaction. -/
def updTxn (sl id : Nat) (f : Txn → Txn) (s : State) : State :=
  s.updSlice sl (fun h => { h with tt := h.tt.map (fun t => if t.id = id then f t else t) })
/-- A write-buffer line. -/
def State.wbOf (s : State) (sl id : Nat) : Option WbLine := (s.slice sl).wb.find? (fun b => b.id = id)
/-- Change a write-buffer line. -/
def updWb (sl id : Nat) (f : WbLine → WbLine) (s : State) : State :=
  s.updSlice sl (fun h => { h with wb := h.wb.map (fun b => if b.id = id then f b else b) })
/-- A victim-buffer line (R82). -/
def Slice.vbOf (h : Slice) (l : LineNo) : Option VbLine := h.vb.find? (fun v => v.line = l)
/-- A side-buffer entry (R121). -/
def Slice.sbOf (h : Slice) (l : LineNo) : Option SbLine := h.sb.find? (fun v => v.line = l)
/-- Visible writes of a line that the write buffer holds, oldest first; while the system cache or the victim buffer holds the line, those that
went there, and those beneath a later write that did, have gone on; those of a released line are still on their way to far memory (R243, R247, R249). -/
def wbOn (s : State) (l : LineNo) : List WbLine :=
  let h := s.slice (homeSlice l)
  let held := (s.resident l).isSome || (h.vbOf l).isSome
  h.wb.filter (fun b => b.line = l && b.visible && !((b.cached || b.under) && held) && b.kind ≠ 4)
/-- The held data of a line (R77, R87, R364): every byte of its current data, in the newest write-buffer line that the system cache has taken,
unless that line has been released (R247). -/
def State.heldWb (s : State) (l : LineNo) : Option WbLine :=
  ((s.slice (homeSlice l)).wb.filter (fun b => b.line = l && b.cached && b.mask = fullMask)).getLast?.filter (fun b => !b.released)
/-- The held data of a line stands in the write buffer. -/
def State.held (s : State) (l : LineNo) : Bool := (s.heldWb l).isSome

end Sys2Proof.Machine
end

