-- ==== Sys2Proof/Machine/Engine.lean ====
section
/-! DEFINITION. The slice engine: a transaction on an open line from its start to its close (03, 06, 07, 08). Each phase either
goes on at once or waits for a row: a snoop answer, write data, a memory-controller return, a far completion, a victim choice, CompAck. -/
namespace Sys2Proof.Machine

/-- What a phase leaves: go on at once, wait, or the transaction has closed. -/
inductive Nx where
  | again
  | wait
  | closed
deriving DecidableEq, Repr

/-- One and the same request, whatever TT entry has passed to it. -/
def SliceIn.same (i j : SliceIn) : Bool := i.port = j.port && i.h = j.h && i.take = j.take && i.walk = j.walk
/-- A record of nothing yet: a transaction on a line. -/
def newTxn (id : Nat) (line : LineNo) (kind : TK) (port : Nat) (h : Slot) (region : Nat) : Txn :=
  { id, line, kind, port, h, ph := .start, region, snoops := [], grant := none, pull := false, wr := none, wb := none, dat := none, way := none, ev := none,
    fillKind := 0, fwd := false, noFill := false, accepts := 0, reads := 0, reserved := false, stashTo := none, offer := false, upTag := none, upSplit := none, upState := 0,
    queued := false, step := 0, take := 0, counted := false, gop := 0, far := false, walk := none, part := none, left := 0, ent := 0, rdm := 0, forceD := false, dead := false }
/-- The partition of a port and class (R108). -/
def State.part (s : State) (p cls : Nat) : Nat := (NMap.get 0 s.cache.map (4 * p + cls % 4)).toNat
/-- The effective mask of a partition (R110). -/
def State.effMask (s : State) (part : Nat) : Nat := (NMap.get 0x3FFF s.cache.pmask part &&& s.cache.ways).toNat
/-- Port and class an access allocates under (R109). -/
def Txn.cls (t : Txn) : Nat := if (Hd.tc t.h).toNat < 4 then (Hd.tc t.h).toNat else 0
/-- The write-buffer line a transaction writes in. -/
def State.wbLn (s : State) (t : Txn) : Option WbLine := t.wb.bind (s.wbOf (homeSlice t.line))
/-- The class of an allocation (R109): written-in data carries that of its message or of the request that snooped it. -/
def State.clsNow (s : State) (t : Txn) : Nat := match s.wbLn t with | some b => b.tc.toNat % 4 | none => t.cls
/-- The partition of an allocation under the map now in force (R109): that of the sending port for written-in data. -/
def State.partNow (s : State) (t : Txn) : Nat := match s.wbLn t with | some b => s.part b.port (b.tc.toNat % 4) | none => s.part t.port t.cls
/-- The class of an allocation, as its victim was asked for (R109, R112). -/
def State.clsOf (s : State) (t : Txn) : Nat := match t.part with | some x => x.2 | none => s.clsNow t
/-- The partition of an allocation, as its victim was asked for (R109, R112). -/
def State.partOf (s : State) (t : Txn) : Nat := match t.part with | some x => x.1 | none => s.partNow t
/-- Attributes of what a transaction does (R479, R480): a prefetch has its candidate's class, but no master and no privilege. -/
def Txn.attr (t : Txn) : Attr :=
  if t.kind = .req then attrOf t.h else if t.kind = .nextLine || t.kind = .stream then ⟨none, some t.line, some t.cls, none⟩ else attrLine t.line
/-- Ways of a set that an open fill has reserved (R80). -/
def Slice.resv (h : Slice) (s : State) (set : Nat) : Nat :=
  h.tt.foldl (fun a t => match t.way with | some w => if t.reserved && s.setOf t.line = set then a ||| 2 ^ w else a | none => a) 0
/-- Eligible ways under a partition's mask (R80, R88, R110): enabled, in the mask, not reserved, not durable-dirty, and for an offer not dirty. -/
def eligBy (s : State) (pmask : BitVec 14) (set : Nat) (offer : Bool) : Nat :=
  let b := s.curTb set
  let rv := (s.slice (set % 8)).resv s set
  (List.range 14).foldl (fun a w =>
    let te := teOf b w
    if (pmask &&& s.cache.ways).toNat.testBit w && !rv.testBit w && !(bit te 13 && bit te 12 && (bit te 11 || offer)) then a + 2 ^ w else a) 0
/-- The mask of a partition (R110). -/
def State.pmaskOf (s : State) (part : Nat) : BitVec 14 := NMap.get 0x3FFF s.cache.pmask part
/-- Eligible ways for a partition as it now stands (R80, R110). -/
def eligible (s : State) (set part : Nat) (offer : Bool) : Nat := eligBy s (s.pmaskOf part) set offer
/-- Valid ways of a block. -/
def validMask (b : TagBlock) : Nat := (List.range 14).foldl (fun a w => if bit (teOf b w) 13 then a + 2 ^ w else a) 0
/-- The lowest set bit of a mask below n. -/
def lowBit (n m : Nat) : Option Nat := (List.range n).find? (fun w => m.testBit w)
/-- The fallback choice among the eligible ways (R151). -/
def fallbackWay (sl : Nat) (elig free : Nat) (s : State) : State × Nat :=
  match lowBit 14 free with
  | some w => (s, w)
  | none =>
    let r := (s.seq sl).rot.toNat
    let w := ((List.range 14).map (fun k => (r + k) % 14)).find? (fun w => elig.testBit w) |>.getD 0
    (s.updSeq sl (fun q => { q with rot := BitVec.ofNat 4 ((w + 1) % 14) }), w)
/-- Partition, set and block-derived event fields of a transaction (R143, R147). -/
def seqEvent (s : State) (t : Txn) (kind way : Nat) : SeqEv :=
  ⟨s.nextId, BitVec.ofNat 3 kind, BitVec.ofNat 4 t.port, BitVec.ofNat 4 (s.partOf t), if t.kind = .req then decide (0x14 ≤ Hd.op t.h) else t.wb.isSome,
    BitVec.ofNat 2 t.fillKind, BitVec.ofNat 2 (s.clsOf t), BitVec.ofNat 4 way, t.line, s.setOf t.line, s.pmaskOf (s.partOf t), s.now, some t.id, false⟩
/-- Dispatch an update event: dropped and counted when its queue is full, never dispatched without an entry (R143, R144, R158). -/
def dispatchUpd (sl : Nat) (e : SeqEv) (s : State) : State :=
  if NMap.get 0xFFFF s.pol.entry e.kind.toNat = 0xFFFF || s.pol.stopped then s
  else if (s.seq sl).uq.length < 32 then
    { s with nextId := s.nextId + 1 }.updSeq sl (fun q => { q with uq := q.uq ++ [e] })
  else cntPol 8 1 s
/-- The region entry of a transaction's line, as checked at its ingress. -/
def State.regOf (s : State) (t : Txn) : Region := s.region t.region
/-- Reads and writes of the line go through the system cache: CACHED contents in force, a cacheable policy, a usable set (R26, R27, R89). -/
def cacheable (s : State) (t : Txn) : Bool :=
  s.cache.enabled && s.setUsable t.line && Rg.valid (s.regOf t) && Rg.pol (s.regOf t) < 2
/-- The line may be allocated: CACHED, not disabling, a partition with ways (R94, R110). -/
def mayAlloc (s : State) (t : Txn) : Bool :=
  cacheable s t && s.allocates && !s.cache.disabling && !s.leaving (s.setOf t.line) && s.effMask (s.partNow t) ≠ 0
/-- A prefetch candidate's set is retired or its partition has no eligible way (R117, R121): with the cache off, no enabled way at all. -/
def noWayFor (s : State) (l : LineNo) (part : Nat) : Bool :=
  if s.cache.enabled then !s.setUsable l || eligible s (s.setOf l) part false = 0
  else s.popK.isSome && s.retired (s.setOf l) || s.effMask part = 0
/-- Allocation has stopped under an open fill or write (R94, R382): CACHE_DISABLE has been accepted, or its set is being retired. -/
def allocStops (s : State) (t : Txn) : Bool := !cacheable s t || s.cache.disabling || s.leaving (s.setOf t.line)

/-- The tag-block cache has room for a set: an entry of its cache set is free or unpinned (R71). -/
def tbcVictim (s : State) (sl set : Nat) : Option (Option Nat) :=
  let h := s.slice sl
  let ix := set / 8 % 4096
  let here := h.tbc.filter (fun e => e.2.valid && e.1 / 8 % 4096 = ix)
  if here.length < 16 then some none
  else
    let pinned := fun (st : Nat) => h.tt.any (fun t => s.setOf t.line = st && (t.reserved || t.accepts ≠ 0 || t.ev.isSome)) ||
      h.seq.vq.any (fun e => e.set = st) || (match h.seq.run with | some e => e.kind = 0 && e.set = st | none => false)
    match (here.filter (fun e => !pinned e.1)) with
    | [] => none
    | e :: es => some (some (es.foldl (fun (a : Nat × TbcEnt) b => if b.2.used < a.2.used then b else a) e).1)
/-- A memory-controller request (R76, R77): a read carries the slot as it stands at its issue. -/
def mcReq (sl : Nat) (k : McK) (set txn : Nat) (s : State) : State :=
  let w := match k with | .line w => some w | .vict _ w => some w | _ => none
  let q : McReq := match w with
    | some w => ⟨s.nextId, sl, k, set, txn, NMap.get 0 s.cache.data (set * 16 + w), teOf (s.curTb set) w, NMap.get 0 s.cache.check (set * 16 + w)⟩
    | none => ⟨s.nextId, sl, k, set, txn, if k = .tag then s.rowTb set else 0, 0, 0⟩
  { s with nextId := s.nextId + 1, cache.mc := s.cache.mc ++ [q] }
/-- A transaction that has changed a tag entry or ROW_STATUS does not close before the memory controller has accepted the write (R72). -/
def owe (sl id set : Nat) (s : State) : State :=
  if (s.txn sl id).isSome then mcReq sl .accept set id (updTxn sl id (fun u => { u with accepts := u.accepts + 1 }) s) else s
/-- The transaction that has a line open owes the acceptance of a change to its set (R72). -/
def oweLine (l : LineNo) (set : Nat) (s : State) : State :=
  match (s.slice (homeSlice l)).txnOn l with | some t => owe (homeSlice l) t.id set s | none => s
/-- The slot of an operation on a line's set: the tag block's for two bursts, else the line's own (R59, R60). -/
def mcSlot (s : State) (n : Nat) (l : LineNo) : Nat := if n = 2 then 14 else match s.resident l with | some (_, w) => w | none => 14
/-- What a write of n bursts carries, as the rows then hold it (R81, R487, R488): data and check entry of the line, but in a write of the tag block
alone, and the tag block, but in one of a line alone (DESIGN CHOICE, log 38). -/
def mcBody (s : State) (n : Nat) (l : LineNo) : List Byte :=
  let line := match s.resident l with
    | some (set, w) => wordBytes 128 (NMap.get 0 s.cache.data (set * 16 + w)) ++ wordBytes 8 (NMap.get 0 s.cache.check (set * 16 + w))
    | none => []
  (if n = 2 then [] else line) ++ (if n = 3 then [] else wordBytes 128 (s.rowTb (s.setOf l)))
/-- A slice sends a memory-controller request of n bursts (R484, R487). -/
def capMc (op n : Nat) (l : LineNo) (s : State) : State :=
  if n ≠ 0 && (s.recording || s.mode = 4) then
    capOut (16 + s.chanOf (s.setOf l) / 8) (homeSlice l) (intDesc op (s.setOf l) (ttTag s (homeSlice l) l) (mcSlot s n l + 16 * n))
      (if op = 0xC1 then mcBody s n l else []) s
  else s
/-- DRAM bursts of an operation (R77, R479), its writes done. -/
def bursts (rd wr : Nat) (l : LineNo) (s : State) : State :=
  capMc 0xC1 wr l (capMc 0xC0 rd l (monSys 0x13 wr (attrLine l) (monSys 0x12 rd (attrLine l) s)))

/-- The status with which a read comes back (R486): 0 OK, 1 corrected, 2 uncorrectable. -/
def decStat {α : Type} (r : Option (α × Nat)) : Nat := match r with | some (_, 0) => 0 | some _ => 1 | none => 2
/-- A read whose data the slice has within the row: its bursts, and the MC_DATA that enters with what it decodes to (R77, R486, R487). -/
def burstsNow (n : Nat) (set slot : Nat) (l : LineNo) (st : Nat) (s : State) : State :=
  let s := bursts n 0 l s
  if n = 0 || !s.recording then s
  else capIn (16 + s.chanOf set / 8) (set % 8) (intDesc 0xC2 set (ttTag s (set % 8) l) (slot + 16 * n)) st
    (wordBytes 128 (if slot = 14 then s.rowTb set else NMap.get 0 s.cache.data (set * 16 + slot))) s

/-- Install a tag block on chip; a displaced entry whose REPL has changed is written to its row (R71, R72), as the block stands on
chip. -/
def tbcInstall (sl set : Nat) (b : TagBlock) (s : State) : State :=
  match tbcVictim s sl set with
  | some v =>
    let s := match v with
      | some k =>
        let e := s.tbcOf k
        let s := if e.replDirty then bursts 0 2 (s.wayLine k 0) (writeRowTb k e.block s) else s
        s.updSlice sl (fun h => { h with tbc := NMap.erase h.tbc k })
      | none => s
    s.updSlice sl (fun h => { h with tbc := NMap.set TbcEnt.init h.tbc set ⟨true, b, false, h.tbcClk⟩, tbcClk := h.tbcClk + 1 })
  | none => s
/-- A way is invalidated with two write bursts (R64, R77). -/
def invWay (l : LineNo) (set w : Nat) (s : State) : State := bursts 0 2 l (putTe set w 0 s)
/-- A line is invalidated in its way (R64, R77). -/
def dropWay (l : LineNo) (set w : Nat) (s : State) : State := oweLine l set (invWay l set w s)
/-- A row's CE_COUNT grows by the symbols corrected; at CE_ROW_LIMIT it is logged and posted once (R61, R379, R380). -/
def countCe (set n : Nat) (s : State) : State :=
  let b := s.curTb set
  let old := ceOf b
  let new := min 0xFFFF (old + n)
  let s := putTb set (putBits b 720 16 new) s
  if old < s.err.ceLimit && s.err.ceLimit ≤ new then
    postEvent 0x0502 [(0, set)] (logErr 0x0009 0 0 (set % 8) 0 set new s)
  else s
/-- Uncorrectable decodes of a channel within 1 ms; at CH_UE_LIMIT the channel is quarantined (R381). -/
def countUe (set : Nat) (s : State) : State :=
  let c := s.chanOf set
  let now := s.ao.time.toNat
  let l := (NMap.get [] s.err.ue c).filter (fun t => now - t < secTicks / 1000) ++ [now]
  let s := { s with err.ue := NMap.set [] s.err.ue c l }
  if s.err.ueLimit ≤ l.length && !s.cache.quar.contains c && !s.cache.walks.any (fun k => k.op = 0xF5 && k.first = c) then
    postEvent 0x0503 [(0, c)] (logErr 0x0008 3 3 c 0 0 l.length { s with
      nextId := s.nextId + 1, cache.walks := s.cache.walks ++ [⟨s.nextId, 0xF5, c, 0, 0x3FFF, true, false, [], 0, 0, [], [], false, [], [], false, []⟩] })
  else s
/-- The data of a line read that decoded to `r`, or what R364 makes of one that did not: the line and its poison; none where it is a miss now.
What it changes in the row is owed by the transaction that has the line open (R72). -/
def lineOutcome (set w : Nat) (l : LineNo) (r : Option (Line × Nat)) (s : State) : Option (Line × Bool) × State :=
  let te := teOf (s.curTb set) w
  match r with
  | some (d, n) =>
    let s := if n = 0 then s else
      oweLine l set (bursts 0 5 l (countCe set n (writeLine set w te d (logErr 0x0001 0 0 (set % 8) 0 l.toNat n (cntErr 0 1 s)))))
    (some (d, bit te 10), s)
  | none =>
    let s := countUe set (cntErr 1 1 s)
    if bit te 10 then (some (Config.lostLine s.nextId, true), { s with nextId := s.nextId + 1 })
    else if !bit te 12 then (none, dropWay l set w (logErr 0x0002 1 0 (set % 8) 0 l.toNat w s))
    else match s.heldWb l with
      | some b => (some (b.data, false), oweLine l set <| bursts 0 3 l <| writeLine set w te b.data (logErr 0x0003 1 0 (set % 8) 0 l.toNat w s))
      | none => (some (Config.lostLine s.nextId, true),
        oweLine l set (putTe set w (te ||| 0x400) <| poisonDur l (logErr 0x0004 2 0 (set % 8) 0 l.toNat w { s with nextId := s.nextId + 1 })))
/-- A victim-buffer entry takes a dirty victim (R82): the line is read from its way for the transaction `id`, whose fill or write goes in once the
read has returned. -/
def evictTo (sl set w id : Nat) (s : State) : State :=
  let l := s.wayLine set w
  let s := mcReq sl (.vict l w) set id (bursts 3 0 l (monSys 8 1 (attrLine l) s))
  putTe set w 0 (s.updSlice sl (fun h => { h with vb := h.vb ++ [⟨l, 0, false, s.regionIx l, false⟩] }))
/-- The line of a victim-buffer entry: its data, or what the read of it that is under way brings (R82, R83). -/
def vbData (s : State) (v : VbLine) : Line × Bool :=
  if v.ready then (v.data, v.psn)
  else match s.cache.mc.find? (fun m => match m.kind with | .vict l _ => decide (l = v.line) | _ => false) with
    | some m => (match lineDecode m.raw m.te m.chk [] with | some (d, _) => (d, v.psn || bit m.te 10) | none => (Config.lostLine m.id, true))
    | none => (v.data, v.psn)
/-- A victim-buffer copy is poisoned, and so is its far write (R226, R375). -/
def vbPoison (l : LineNo) (s : State) : State :=
  let sl := homeSlice l
  let hit := fun (r : FarReq) => if r.purp = .victim sl && r.line = l then { r with psn := true } else r
  { s with links.reqs := s.links.reqs.map hit, links.waitq := s.links.waitq.map hit }.updSlice sl (fun (h : Slice) => { h with
    vb := h.vb.map (fun (v : VbLine) => if v.line = l then { v with psn := true } else v) })

/-- A configuration makes its port the uplink: a hub peer whose range strictly contains the hub's own (R229). -/
def State.isUplink (s : State) (c : PortCfg) : Bool :=
  let b := s.links.base.toNat
  let e := b + s.links.size.toNat
  let lo := c.peerId.toNat
  let hi := lo + c.peerSize.toNat
  c.peerHub = 1 && decide (lo ≤ b) && decide (e ≤ hi) && !(decide (lo = b) && decide (hi = e))
/-- The port a message for an identifier leaves by (R231): the down port whose range contains it, or the uplink for one outside the hub's own
range; none for one that is not assignable (R183). -/
def routeDst (s : State) (d : Nat) : Option Nat :=
  if 0x3D090 ≤ d then none
  else
  let own := decide (s.links.base.toNat ≤ d) && decide (d < s.links.base.toNat + s.links.size.toNat)
  (List.range s.nPorts).find? (fun p => let c := (s.port p).cfg
    c.enable && (if own then !s.isUplink c && decide (c.peerId.toNat ≤ d) && decide (d < c.peerId.toNat + c.peerSize.toNat) else s.isUplink c))
/-- The port towards the home hub of a remote region (R231, R233). -/
def upPort (s : State) (e : Region) : Option Nat := (routeDst s (Rg.hub e)).filter (fun p => (s.port p).cfg.peerHub = 1)
/-- TAGs in use towards a home hub: requests, fences and evictions whose answer has not come (R183, R203, R234). -/
def upOpen (s : State) (p : Nat) : List (BitVec 12) :=
  (List.range 8).flatMap (fun sl => (s.slice sl).tt.filterMap (fun t =>
    if (t.ph = .up || t.ph = .upPull) && upPort s (s.regOf t) = some p then t.upTag else none)) ++ (s.port p).upFn ++ (s.port p).upEv.map (fun e => e.1)
/-- The next TAG towards a home hub that no open transaction uses (R183, R203). -/
def upFree (s : State) (p : Nat) : Option (BitVec 12) :=
  let used := upOpen s p
  ((List.range 4096).find? (fun k => !used.contains ((s.port p).upTag + BitVec.ofNat 12 k))).map (fun k => (s.port p).upTag + BitVec.ofNat 12 k)
/-- The eviction of the line that has not been sent towards its home hub. -/
def upWait (s : State) (l : LineNo) : Option UpEvict := (List.range 12).findSome? (fun p => (s.port p).upQ.find? (fun x => x.line = l))
/-- An eviction of the line towards its home hub has not been sent or has not had its Comp: no request for the line goes there (R189, R203). -/
def upHeld (s : State) (l : LineNo) : Bool := (upWait s l).isSome || (List.range 12).any (fun p => (s.port p).upEv.any (fun e => e.2 = l))
/-- An eviction joins those of its port that have not been sent, one to a line (R203). -/
def upPut (p : Nat) (x : UpEvict) (s : State) : State := s.updPort p (fun q => { q with upQ := q.upQ.filter (fun y => y.line ≠ x.line) ++ [x] })
/-- A far write of line data (R479). -/
def farWrite (l : LineNo) (d : Line) (mask : Slot) (psn : Bool) (purp : FP) (s : State) : State × Nat :=
  let f := s.farOf l
  farSend f.1 f.2 l true d mask psn purp (monSys 0x0F 1 (attrLine l) s)
/-- A local flow of the line is under way: a transaction that has got past its directory lookup, or is none of an agent's (R194). -/
def flowOn (s : State) (l : LineNo) : Bool :=
  (s.slice (homeSlice l)).tt.any (fun t => t.line = l && !(t.kind = .req && [Ph.start, .setPark, .dirWay, .wbLine].contains t.ph))
/-- A remote line leaves the proxy (R233, R236): with dirty data `d`, which the hub must send home-ward, or because no local port and no way holds it
any longer, and no local flow is to grant it again. EvictNote from F or E, WbData from M, nothing from S. UP stays what it is until the message is
sent (R189). -/
def evictUp (l : LineNo) (d : Option (Line × Bool)) (s : State) : State :=
  match s.cover l with
  | none => s
  | some (_, rg) =>
    let e := s.dirOf l
    if !Rg.remote rg || e.up = 0 || (d.isNone && (e.holders ≠ 0 || (s.resident l).isSome || (upWait s l).isSome || flowOn s l)) then s
    else
      let s := match s.resident l with | some (set, w) => dropWay l set w s | none => s
      if d.isNone && e.up = 1 then setDir l none { e with up := 0 } s
      else match upPort s rg with
        | some p => upPut p ⟨0, l, d⟩ (if d.isSome then setDir l none { e with up := 4 } s else s)
        | none => setDir l none { e with up := 0 } s
/-- A remote entry is given up whole, no port holding its line (R40, R212, R236): the system-cache copy is invalidated, and the eviction carries the
state of the entry that goes. -/
def evictDir (l : LineNo) (s : State) : State :=
  match s.cover l with
  | none => s
  | some (_, rg) =>
    let e := s.dirOf l
    if !Rg.remote rg || e.up = 0 then s
    else
      let old := (upWait s l).bind (fun x => x.dat)
      let (data, s) : Option (Line × Bool) × State := match old, s.resident l with
        | none, some (set, w) =>
          if e.up = 4 then (let d := s.readLine set w []; lineOutcome set w l d (burstsNow 3 set w l (decStat d) s)) else (none, s)
        | _, _ => (old, s)
      let s := match s.resident l with | some (set, w) => dropWay l set w s | none => s
      let s := setDir l none { e with up := 0 } s
      match upPort s rg with
      | some p => if e.up = 1 then s else upPut p ⟨e.up, l, data⟩ s
      | none => s

/-- Effect of a loss on a directory entry that records a lost port (R225): the port removed; an owner's line poisoned. A remote line goes home-ward
as poisoned data, and UP becomes I (R226). -/
def poisonLine (l : LineNo) (s : State) : State :=
  if (match s.cover l with | some (_, e) => Rg.remote e | none => false) then evictUp l (some (0, true)) s else
  let sl := homeSlice l
  let h := s.slice sl
  let keeps := fun (b : WbLine) => b.line = l && b.hasData && (b.cached || !b.gone)
  let any := (s.resident l).isSome || h.wb.any (fun b => keeps b && !b.cached) || (h.vbOf l).isSome
  let s := match s.resident l with
    | some (set, w) =>
      let te := teOf (s.curTb set) w
      let s := oweLine l set (putTe set w (te ||| 0x1400) s)
      if bit te 11 then (farWrite l (s.psnData set w) fullMask true (.clean set w) (bursts (if s.held l then 0 else 3) 3 l s)).1 else s
    | none => s
  let s := poisonOffs l (vbPoison l (s.updSlice sl (fun h => { h with wb := h.wb.map (fun b => if keeps b then { b with psn := true } else b) })))
  let s := (h.wb.filter (fun b => b.line = l && b.dur)).foldl (fun s b => b.writes.foldl (fun s id => wrLose id 2 s) s) s
  if any then s else (farWrite l (Config.lostLine s.nextId) fullMask true .poison s).1
/-- Apply R225 to a line's entry at a lookup or at the purge walk. -/
def dirFix (l : LineNo) (s : State) : State :=
  (List.range 12).foldl (fun s p =>
    let e := s.dirOf l
    if (s.port p).link = 6 && e.holders.testBit p then
      let s := setDir l none (e.drop p) s
      if e.st = 3 then poisonLine l (s.updPort p (fun q => { q with lostLines := q.lostLines + 1 })) else s
    else s) s

/-- The port is frozen (R193). -/
def State.frozen (s : State) (p : Nat) : Bool := (s.port p).link = 5
/-- The snoops a request sends, by directory state (R194, R218). -/
def snoopsFor (s : State) (op : Nat) (e : De) (r : Nat) : List (Nat × Byte) :=
  let inv := fun (ps : List Nat) => ps.map (fun p => (p, (0x41 : Byte)))
  let sharer := e.holders.testBit r
  if op = 0x10 then
    (if e.st = 3 then [(e.port, 0x40)] else if e.st = 2 && e.port ≠ r && !s.frozen e.port && !s.frozen r then [(e.port, 0x42)] else [])
  else if op = 0x12 then (if e.st = 3 then [(e.port, 0x40)] else [])
  else if op = 0x11 || op = 0x13 then
    (if e.st = 3 then (if e.port = r then [] else if s.frozen e.port then [(e.port, 0x41)] else if op = 0x13 && sharer then inv [e.port] else [(e.port, 0x43)])
     else inv (e.list.filter (fun p => p ≠ r)))
  else if 0x14 ≤ op && op ≤ 0x16 then inv e.list else []
/-- The opcode of the grant a request's flow ends in (R194): Comp 0x60, DataS 0x80, DataF 0x81, DataE 0x82, DataNC 0x84. A frozen port is never
made forwarder (R193), and at a proxy a read gets no more than UP covers (R233; DESIGN CHOICE, log 95). -/
def grantFor (s : State) (op : Nat) (e : De) (r : Nat) : Nat :=
  if op = 0x10 then
    (if e.up = 1 then 0x80
    else if e.st = 0 && e.up ≠ 2 then 0x82
    else if s.frozen r || (e.st = 2 && e.port ≠ r && s.frozen e.port) then 0x80 else 0x81)
  else if op = 0x12 || op = 0x17 then 0x84
  else if op = 0x13 && (e.st = 1 || e.st = 2) && e.holders.testBit r then 0x60 else 0x82
/-- Send a transaction's snoops, forwarding ones with the requester's TAG and identifier (R183, R193). -/
def sendSnoops (t : Txn) (l : List (Nat × Byte)) (s : State) : State :=
  l.foldl (fun s q =>
    let fwd := q.2 = 0x42 || q.2 = 0x43
    monSys 0x0B 1 t.attr
      (txMsg q.1 q.2.toNat (if fwd then Hd.tag t.h else 0) t.line (if fwd then Hd.src t.h else 0) s)) s
/-- The directory change of a flow at its close, on top of what arrived meanwhile (R194, R214). -/
def dirClose (t : Txn) (s : State) : State :=
  if t.kind ≠ .req || t.gop = 0 || t.gop = 0x84 then s
  else
    let e := s.dirOf t.line
    let up := if t.upState ≠ 0 then t.upState.toNat else e.up
    if t.gop = 0x82 || t.gop = 0x83 || t.gop = 0x60 then setDir t.line none { e with st := 3, port := t.port, holders := 2 ^ t.port, up := up } s
    else if t.gop = 0x81 && !s.frozen t.port then setDir t.line none { e with st := 2, port := t.port, holders := e.holders ||| 2 ^ t.port, up := up } s
    else
      let low := e.st = 0 || (t.fwd && e.st = 2)
      setDir t.line none { e with st := if low then 1 else e.st, port := if low then 0 else e.port, holders := e.holders ||| 2 ^ t.port, up := up } s

/-- Release a write-buffer line (R247). -/
def wbFree (sl id : Nat) (s : State) : State := s.updSlice sl (fun h => { h with wb := h.wb.filter (fun b => b.id ≠ id) })
/-- Shared write-buffer lines of a slice (R247). -/
def State.wbShared (s : State) : Nat := if s.boot.small then 3968 else 3904
/-- Shared write-buffer lines of a slice in use (R247). -/
def Slice.wbUsed (h : Slice) : Nat := (h.wb.filter (fun b => decide (b.kind < 2) && !b.released)).length
/-- A side-buffer entry is discarded without use and counted (R123). -/
def sbDiscard (sl : Nat) (l : LineNo) (s : State) : State :=
  if ((s.slice sl).sbOf l).isSome then cntPf 10 1 (s.updSlice sl (fun h => { h with sb := h.sb.filter (fun b => b.line ≠ l) })) else s
/-- A side-buffer entry is pinned (R124). -/
def sbPin (sl : Nat) (l : LineNo) (s : State) : State :=
  s.updSlice sl (fun h => { h with sb := h.sb.map (fun x => if x.line = l then { x with pinned := true } else x) })
/-- What a close does to the line's side-buffer entry: a pinned one is freed (R122), another is discarded where the line went into X or the
transaction was a maintenance one (R123). -/
def sbClose (sl : Nat) (t : Txn) (s : State) : State :=
  match (s.slice sl).sbOf t.line with
  | some b =>
    if b.pinned then (if t.kind = .req || !(s.slice sl).tt.any (fun u => u.line = t.line && decide (u.id < t.id)) then s.updSlice sl (fun h => { h with sb := h.sb.filter (fun b => b.line ≠ t.line) }) else s)
    else if t.kind = .walk || t.kind = .recl || (t.kind = .req && (t.gop = 0x82 || t.gop = 0x83 || t.gop = 0x60)) then sbDiscard sl t.line s
    else s
  | none => s
/-- Entries reserved for a pair in each slice (R348). -/
def rsvEntries (s : State) (p c : Nat) : Nat := ((NMap.get Guar.init s.regl.guar (5 * p + c)).rsv + 7) / 8
/-- TT entries of a slice in use that were drawn from a pool: its transactions', and those that have passed to queued requests. -/
def entUsed (h : Slice) (e : Nat) : Nat := (h.tt.filter (fun t => t.ent = e)).length + (h.lineQ.filter (fun i => i.ent = e)).length
/-- The shared pool has an entry left (R348): all that is neither reserved nor among the 256 internal ones. Entries of a pair beyond its reservation,
which may have been lowered, and internal ones beyond their 256 count as shared. -/
def sharedLeft (s : State) (sl : Nat) : Bool :=
  let h := s.slice sl
  let excess := ((List.range 60).map (fun k => entUsed h (3 + k) - rsvEntries s (k / 5) (k % 5))).sum
  let rsv := ((List.range 60).map (fun k => rsvEntries s (k / 5) (k % 5))).sum
  decide (entUsed h 2 + excess + (entUsed h 1 - 256) < 1792 - rsv)
/-- The pool in which a REQ of a pair finds a TT entry (R348): its own reserved one, else the shared one. -/
def ttPool (s : State) (sl p c : Nat) : Option Nat :=
  if entUsed (s.slice sl) (3 + (5 * p + c)) < rsvEntries s p c then some (3 + (5 * p + c)) else if sharedLeft s sl then some 2 else none
/-- The pool in which a prefetch or an internal transaction finds a TT entry (R348): the internal one, else the shared one. -/
def intPool (s : State) (sl : Nat) : Option Nat := if entUsed (s.slice sl) 1 < 256 then some 1 else if sharedLeft s sl then some 2 else none
/-- The pool in which a queued input finds a TT entry: a REQ in its pair's or the shared one, a visit of a walk in the internal or the shared one. -/
def poolOf (s : State) (sl : Nat) (i : SliceIn) : Option Nat := if i.walk.isSome then intPool s sl else ttPool s sl i.port (Hd.tc i.h).toNat
/-- A queued input waits for nothing but a TT entry (R213, R348): one that found none, or the head of the queue of a line that is closed. -/
def waitsEnt (s : State) (sl : Nat) (i : SliceIn) : Bool :=
  let h := s.slice sl
  decide (i.ent = 0) && (i.needTT || (!h.isOpen (Hd.line i.h) && decide (h.lineQ.find? (fun j => Hd.line j.h = Hd.line i.h) = some i)))
/-- A REQ of a pair finds a TT entry (R348). -/
def ttFree (s : State) (sl p c : Nat) : Bool := (ttPool s sl p c).isSome
/-- The first element that a test picks is changed. -/
def changeFirst {α : Type} (f : α → Bool) (g : α → α) : List α → List α
  | [] => []
  | x :: l => if f x then g x :: l else x :: changeFirst f g l
/-- A freed entry passes to the first queued input that waits for an entry of its pool (R348). -/
def entFreed (sl : Nat) (s : State) : State :=
  let waits := fun (i : SliceIn) => waitsEnt s sl i && (poolOf s sl i).isSome
  s.updSlice sl (fun h => { h with lineQ := changeFirst waits (fun i => { i with ent := (poolOf s sl i).getD 0 }) h.lineQ })
/-- A TT entry whose transaction on a line is over passes to the head of that line's queue (R213), else it is free. -/
def entPass (sl : Nat) (l : LineNo) (e : Nat) (s : State) : State :=
  if e = 0 then s
  else if (s.slice sl).lineQ.any (fun i => Hd.line i.h = l) then
    s.updSlice sl (fun h => { h with lineQ := changeFirst (fun i => Hd.line i.h = l) (fun i => { i with ent := e }) h.lineQ })
  else entFreed sl s
/-- A read ends by its answer or with its transaction (R345, R350): CompAck, DataNC, or its close where it has none. -/
def endRead (sl id : Nat) (s : State) : State :=
  match s.txn sl id with
  | some u => if u.counted then endOpen u.port (Hd.tc u.h).toNat u.take (updTxn sl id (fun u => { u with counted := false }) s) else s
  | none => s
/-- Close a transaction (R213, R526): its directory change, its line, its side-buffer entry where R122 or R123 frees it, its TT entry. A remote
line that nothing holds any longer leaves the proxy (R236). One that owes an acceptance closes when it has come (R72); an eviction and a recall hold no entry (R214). A directory eviction's way goes to the request it was made for (R212). -/
def closeTxn (sl : Nat) (t : Txn) (s : State) : State :=
  let n := match s.txn sl t.id with | some u => u.accepts | none => 0
  if n ≠ 0 then updTxn sl t.id (fun _ => { t with ph := .shut, accepts := n }) s
  else
    let s := dirClose t (endRead sl t.id s)
    let s := sbClose sl t (s.updSlice sl (fun h => { h with tt := h.tt.filter (fun u => u.id ≠ t.id), vbWait := h.vbWait.erase t.id }))
    let s := s.updSlice sl (fun h => { h with wb := h.wb.filter (fun b => b.kind ≠ 4 || b.txn ≠ some t.id) })
    let s := evictUp t.line none (entPass sl t.line t.ent s)
    match t.kind with
    | .dirEvict k => updTxn sl k (fun u => if u.ph = .dirWay then { u with ph := .start, step := t.step } else u) s
    | _ => s

/-- The bitmap bit of a line in a zero-tracked region: none when its bitmap line is not on chip (R47, R52). -/
def ztBit (s : State) (e : Region) (l : LineNo) : Option Bool :=
  let g := (l.toNat - Rg.base e) / 32
  match s.cache.bitmap.find? (fun b => b.1.toNat = Rg.ztb e + g / 1024) with
  | some b => some (b.2.getLsbD (g % 1024))
  | none => none
/-- The bitmap line of a line (R47). -/
def ztLine (e : Region) (l : LineNo) : LineNo := BitVec.ofNat 40 (Rg.ztb e + (l.toNat - Rg.base e) / 32 / 1024)
/-- Put a bitmap line on chip, most recent first, at most 2,048; of a full cache the line put longest ago leaves, for R52 gives no order
(DESIGN CHOICE, log 80). -/
def ztPut (l : LineNo) (d : Line) (s : State) : State :=
  { s with cache.bitmap := ((l, d) :: s.cache.bitmap.filter (fun b => b.1 ≠ l)).take 2048 }
/-- A far read for a transaction. -/
def farRead (t : Txn) (purp : FP) (l : LineNo) (s : State) : State :=
  let f := s.farOf l
  (farSend f.1 f.2 l false 0 0 false purp (monSys 0x0E 1 { t.attr with line := some l } s)).1

/-- Buffered writes on top of a base, oldest first (R249). -/
def overLines (bs : List WbLine) (base : Line) (psn : Bool) : Line × Bool :=
  bs.foldl (fun a b => (mergeLine a.1 b.data b.mask, if b.mask = fullMask then b.psn else a.2 || b.psn)) (base, psn)
/-- The data a read is served: buffered writes on top of a base (R249). -/
def overBuffered (s : State) (l : LineNo) (base : Line) (psn : Bool) : Line × Bool := overLines (wbOn s l) base psn
/-- Buffered writes cover the whole line (R249). -/
def coversAll (s : State) (l : LineNo) : Bool := (wbOn s l).foldl (fun m b => m ||| b.mask) 0 = fullMask

/-- Send a read's grant or its DataNC (R194, R199); ReadDev keeps only its bytes (R185). -/
def grantData (sl : Nat) (t : Txn) (d : Line) (psn : Bool) (s : State) : State :=
  let op := Hd.op t.h
  let d := if op = 0x17 then
      let off := (Hd.aux t.h).toNat / 8 % 128
      let n := 8 * 2 ^ ((Hd.aux t.h).toNat % 8)
      mergeLine 0 d (BitVec.ofNat 128 ((2 ^ n - 1) <<< off))
    else d
  let g := if t.gop = 0x82 && t.upState = 4 then 0x83 else t.gop
  let n := if op = 0x17 then 8 * 2 ^ ((Hd.aux t.h).toNat % 8) else 128
  let s := if (s.port t.port).link = 6 then s else txData t.port g (Hd.tag t.h) t.line (Hd.tc t.h).toNat n d psn s
  let s := if g = 0x84 then endRead sl t.id (freeTag t.port (Hd.tag t.h) s) else s
  updTxn sl t.id (fun u => { u with dat := some (d, psn), gop := g, grant := if g = 0x84 || (s.port t.port).link = 6 then none else some t.port }) s
/-- Comp as the grant of an Upgrade (R191, R194). -/
def grantComp (sl : Nat) (t : Txn) (s : State) : State :=
  updTxn sl t.id (fun u => { u with grant := if (s.port t.port).link = 6 then none else some t.port })
    (txMsg t.port 0x60 (Hd.tag t.h) t.line 0 s)

/-- A stream write that carries POISON makes its offset BAD, whatever its byte mask (R367). -/
def streamPoison (w : Wr) (psn : Bool) (s : State) : State :=
  match w.stream with
  | some sid => if psn && w.tracked then offBad sid.toNat w.off 2 s else s
  | none => s
/-- Every visible point of a write's record: visible, and for an empty mask all its points (R241, R185). -/
def wrVisible (sl : Nat) (t : Txn) (s : State) : State :=
  match t.wb.bind (s.wbOf sl) with
  | some b =>
    let s := updWb sl b.id (fun b => { b with visible := true }) s
    b.writes.foldl (fun s id =>
      let s := match s.wrOf id with | some w => streamPoison w b.psn (offVisible w b.mask s) | none => s
      let s := if b.psn && b.dur && b.mask ≠ 0 then wrLose id 2 (wrPoint id 1 s) else wrPoint id 1 s
      if b.mask = 0 then wrPoint id 3 (wrPoint id 2 s) else s) s
    |> fun s => if b.psn && b.mask ≠ 0 then poisonDur b.line s else s
  | none => s

/-- A far write of data that a walk's recall brought is one of the walk's (R97, R98). -/
def walkOut (t : Txn) (id : Nat) (s : State) : State :=
  { s with cache.walks := s.cache.walks.map (fun k => if t.kind = .recl && k.recs.contains t.id then { k with outs := k.outs ++ [id] } else k) }
/-- The line goes into its way: data, check entry and tag block, one memory-controller write to be accepted (R81, R87);
durable and write-through lines are sent to far memory at once. A write's data has the bytes of the line's earlier writes beneath it (R243). Poisoned data of an agent, a line whose read failed and a fill that holds bytes of
buffered writes set D in any region (R64, R367, R368). Only a demand request clears PF and OFR; an eviction's or a snoop's data is no
request (R64; DEDUCED, log 72), and where it allocates, its FILL event is that of a demand fill (DESIGN CHOICE, log 84). -/
def installLine (sl : Nat) (t : Txn) (w : Nat) (d : Line) (psn : Bool) (hit : Bool) (s : State) : State :=
  let set := s.setOf t.line
  let old := teOf (s.curTb set) w
  let e := s.regOf t
  let isW := t.wb.isSome
  let demand := decide (t.kind = .req) && decide (0x14 ≤ Hd.op t.h)
  let dur := isW && Rg.dur e
  let wt := isW && (Rg.pol e = 1 || s.cache.disabling)
  let held := match s.wbLn t with | some b => psn && decide (2 ≤ b.kind) | none => false
  let dirty := !Rg.remote e && (t.forceD || isW && (!wt || dur || held))
  let te := if hit then
      (putBits (putBits old 10 1 (b2n psn)) 12 1 (b2n (bit old 12 && !wt || dirty)) ||| (if dur then 0x800 else 0)) &&& (if demand then ~~~(0x300 : BitVec 32) else ~~~(0 : BitVec 32))
    else mkTe (tagOf t.line) dirty dur psn (decide (t.fillKind = 1)) (decide (t.fillKind = 2)) (s.partOf t) (s.clsOf t)
  let s := if hit then s else monSys 7 1 ⟨none, some t.line, some (s.clsOf t), none⟩ s
  let s := if hit && demand && bit old 9 then cntPf 2 1 s else if !hit && t.fillKind = 3 then cntPf 7 1 s else s
  let s := bursts 0 (if hit && bit old 12 then 3 else 5) t.line (writeLine set w te d (if psn then poisonDur t.line s else s))
  let s := if t.fillKind = 3 then s else sbDiscard sl t.line s
  let s := owe sl t.id set s
  let s := if hit then s else dispatchUpd sl (seqEvent s t 2 w) s
  let s := updTxn sl t.id (fun u => { u with ph := .mcWrite, way := some w }) s
  match t.wb with
  | some b =>
    let s := s.updSlice sl (fun h => { h with wb := h.wb.map (fun x => if x.line = t.line && x.visible && x.gone && !x.cached then { x with under := true } else x) })
    let s := updWb sl b (fun x => { x with data := d, mask := fullMask, psn := psn, gone := !(wt || dur), cached := true }) s
    if (wt || dur) && !Rg.remote e then
      let (s, id) := farWrite t.line d fullMask psn (.wbWrite b) s
      walkOut t id s
    else s
  | none => s
/-- The write-buffer line goes to far memory and nothing is allocated (R85, R89, R94, R110). -/
def sendFar (sl : Nat) (t : Txn) (b : WbLine) (s : State) : State :=
  let (s, id) := farWrite b.line b.data b.mask b.psn (.wbWrite b.id) (updWb sl b.id (fun x => { x with gone := true }) s)
  walkOut t id s

/-- Ask for a victim (R80, R143): the sequencer, or the fallback choice at once when its queue is full or it takes no event (R144). -/
def askVictim (sl : Nat) (t : Txn) (elig : Nat) (s : State) : State :=
  let set := s.setOf t.line
  let t := { t with part := some (s.partNow t, s.clsNow t) }
  let s := updTxn sl t.id (fun u => { u with part := t.part }) s
  let free := elig &&& (0x3FFF - validMask (s.curTb set))
  let e := seqEvent s t 0 15
  if (s.seq sl).vq.length < 4 && NMap.get 0xFFFF s.pol.entry 0 ≠ 0xFFFF && !s.pol.stopped then
    updTxn sl t.id (fun u => { u with ev := some e.id })
      ({ s with nextId := s.nextId + 1 }.updSeq sl (fun q => { q with vq := q.vq ++ [e] }))
  else
    let s := if s.pol.stopped then s else monSys 0x16 1 (attrLine t.line) (cntPol 5 1 s)
    let (s, w) := fallbackWay sl elig free s
    updTxn sl t.id (fun u => { u with way := some w, reserved := true, ev := none }) s

end Sys2Proof.Machine
end

