-- ==== Sys2Proof/Machine/Flow.lean ====
section
/-! DEFINITION. The phases of a transaction and their order (R74, R78-R88, R194-R199, R212-R220, R247-R250), and violations (R385-R387). -/
namespace Sys2Proof.Machine

/-- Log and post a violation; a kind whose FREEZE_MASK bit is 1 freezes the port (R385-R387). A frozen port only counts later ones. -/
def violate (p kind : Nat) (h : Slot) (s : State) : State :=
  let s := cntErr 12 1 s
  if s.frozen p then s.updPort p (fun q => { q with frzLater := if q.frzLater = 0xFF then 0xFF else q.frzLater + 1 })
  else
    let frz := bit s.freezeMask (kind - 1)
    let s := logErr 0x0030 4 1 p 0 (Hd.line h).toNat (kind + 8 * b2n frz) s
    if !frz then s
    else
      let s := postEvent 0x0102 [(0, p), (1, kind)] (s.updPort p (fun q => { q with
        link := 5, frzHdr := h, frzKind := BitVec.ofNat 8 kind, frzTime := bits s.ao.time 55 0, frzLater := 0 }))
      tearAll p s
/-- FrozenAbort for a REQ not accepted (R200). -/
def frozenAbort (p : Nat) (h : Slot) (s : State) : State :=
  monPort p 0x0F 1 (txMsg p 0x67 (Hd.tag h) (Hd.line h) 0 s)

/-- What taking a directory way finds (R212): a way, an eviction under way, or every line open. A request that leaves its set's queue (R216) looks for
an invalid way first as well: step 2 does not say what a way that the close left invalid is to it (DESIGN CHOICE, log 112). The eviction draws an
internal TT entry (R348); where none is left the request parks too (DESIGN CHOICE, log 127). -/
def takeWay (sl : Nat) (t : Txn) (s : State) : State × Nx :=
  let h := s.slice sl
  let d := dset t.line
  let used := h.tt.foldl (fun a u => if u.step ≠ 0 && dset u.line = d && u.id ≠ t.id then a ||| 2 ^ (u.step - 1) else a) 0
  let bad := h.dirBad.foldl (fun a b => if b.dset = d then a ||| 2 ^ b.way else a) 0
  match (List.range 16).find? (fun w => NMap.get 0 h.dir (d * 16 + w) = 0 && !used.testBit w && !bad.testBit w) with
  | some w => (updTxn sl t.id (fun u => { u with step := w + 1 }) s, .again)
  | none =>
    let full := ((List.range 16).map (fun k => (h.dirPtr.toNat + k) % 16)).find? (fun w =>
        let v := NMap.get 0 h.dir (d * 16 + w)
        v ≠ 0 && !h.isOpen (dirLine sl d (nbits v 63 42)))
    match full, intPool s sl with
    | some w, some e =>
      let l := dirLine sl d (nbits (NMap.get 0 h.dir (d * 16 + w)) 63 42)
      let s := monSys 0x0D 1 (attrLine l) s
      let u := { newTxn s.nextId l (.dirEvict t.id) 0 0 (s.regionIx l) with step := w + 1, ent := e }
      let s := { s with nextId := s.nextId + 1 }.updSlice sl (fun h => { h with tt := h.tt ++ [u], dirPtr := BitVec.ofNat 4 (w + 1) })
      (updTxn sl t.id (fun u => { u with ph := .dirWay }) s, .again)
    | _, _ =>
      let s := if full.isNone then monSys 0x0A 1 (attrOf t.h) s else s
      (updTxn sl t.id (fun u => { u with ph := .setPark, queued := true }) (s.updSlice sl (fun h => { h with setQ := h.setQ ++ [t.id] })), .wait)

/-- A parked transaction's choice of R212 would now succeed: a way of its set is free or holds a line that is not open. -/
def wayRoom (s : State) (sl : Nat) (t : Txn) : Bool :=
  let h := s.slice sl
  let d := dset t.line
  let used := h.tt.foldl (fun a u => if u.step ≠ 0 && dset u.line = d && u.id ≠ t.id then a ||| 2 ^ (u.step - 1) else a) 0
  let bad := h.dirBad.foldl (fun a b => if b.dset = d then a ||| 2 ^ b.way else a) 0
  (List.range 16).any (fun w =>
    let v := NMap.get 0 h.dir (d * 16 + w)
    if v = 0 then !used.testBit w && !bad.testBit w else !h.isOpen (dirLine sl d (nbits v 63 42)) && (intPool s sl).isSome)
/-- Reserve a shared write-buffer line and ask for the data (R197, R247), the writes that wait in their order; for one that waits, the oldest
complete durable line that the system cache holds makes room. Its writes go on to their points with its far write. -/
def pullWrite (sl : Nat) (t : Txn) (s : State) : State × Bool :=
  let h := s.slice sl
  let turn := h.wbWait.isEmpty || h.wbWait.head? = some t.id
  let s := if !turn || h.wbUsed < s.wbShared then s
    else match h.wb.find? (fun b => decide (b.kind < 2) && !b.released && b.dur && b.cached && !b.gone &&
        b.writes.all (fun id => match s.wrOf id with | some w => w.pt ≥ 2 | none => true)) with
      | some b => updWb sl b.id (fun x => { x with released := true }) s
      | none => s
  if turn && (s.slice sl).wbUsed < s.wbShared then
    let e := s.regOf t
    let b : WbLine := ⟨s.nextId, t.line, 0, 0, false, if Hd.op t.h = 0x18 then 1 else 0, t.port, Hd.tc t.h, t.region, Rg.dur e, false, false, false, false, false, false,
      t.wr.toList, some t.id, false⟩
    let s := { s with nextId := s.nextId + 1 }.updSlice sl (fun h => { h with wb := h.wb ++ [b], wbWait := h.wbWait.erase t.id })
    let s := updTxn sl t.id (fun u => { u with wb := some b.id, pull := true }) s
    (txMsg t.port 0x69 (Hd.tag t.h) t.line 0 s, true)
  else (updTxn sl t.id (fun u => { u with ph := .wbLine }) (s.updSlice sl (fun h => { h with
      wbWait := if h.wbWait.contains t.id then h.wbWait else h.wbWait ++ [t.id] })), false)

/-- A next-line candidate of a PROC miss, and its PFTRIG event (R116, R143). -/
def trigNext (sl : Nat) (t : Txn) (s : State) : State :=
  if s.allocates && (Hd.tc t.h) = 0 && bit s.cache.nlPorts t.port && [0x10, 0x11, 0x12].contains (Hd.op t.h) then
    let l := t.line + 1
    let s := s.updSlice (homeSlice l) (fun h => { h with nl := h.nl ++ [(l, t.region, t.port, 0)] })
    dispatchUpd sl (seqEvent s t 3 0) s
  else s

/-- Send a REQ of the proxy's own towards the home hub of a transaction's line (R234): the transaction then waits in `ph`. With every TAG in use, or
an eviction of the line still open (R189, R203), it stays as it is and asks again. -/
def sendUp (sl op : Nat) (t : Txn) (ph : Ph) (s : State) : State :=
  match upPort s (s.regOf t) with
  | some p =>
    match upFree s p with
    | some tag =>
      if upHeld s t.line then s
      else
        let aux := if op = 0x17 || (0x14 ≤ op && Hd.isStream t.h) then Hd.aux t.h else 0
        let sp := match t.upSplit with | some id => (if (Hd.split t.h).toNat = 1 then 1 else 2) + 4 * id.toNat | none => 0
        let s := updTxn sl t.id (fun u => { u with ph := ph, upTag := some tag, upSplit := t.upSplit }) (s.updPort p (fun q => { q with upTag := tag + 1 }))
        tx p (putBits (Hd.mk op s.links.base (s.peer p) tag t.line (Hd.tc t.h) aux) 118 8 sp) 0 s
    | none => s
  | none => updTxn sl t.id (fun u => { u with ph := ph, upTag := some 0 }) s
/-- What a proxy must send upward before a read's local flow (R234): none when UP already covers it. -/
def upNeed (op up : Nat) (sharer clean : Bool) : Option Nat :=
  if op = 0x10 then (if up = 0 then some 0x10 else none)
  else if op = 0x12 then (if up = 0 then some 0x12 else none)
  else if op = 0x11 || op = 0x13 then
    (if up = 3 || up = 4 then none else if (up = 1 || up = 2) && ((op = 0x13 && sharer) || (op = 0x11 && clean)) then some 0x13 else some 0x11)
  else none

/-- Offer a written line to the target of a WriteStash where R198 and R222 allow it. -/
def offerStash (sl : Nat) (t : Txn) (s : State) : State × Bool :=
  let tgt := (List.range s.nPorts).find? (fun p => let q := s.port p; q.link = 3 && q.cfg.peerHub = 0 && q.cfg.peerId = Hd.aux t.h)
  match tgt with
  | some p =>
    if bit t.rdm p && !Rg.remote (s.regOf t) && (t.step ≠ 0 || ((s.slice sl).dirWay t.line).isSome) && !(s.slice sl).lineQ.any (fun i => i.port = p && Hd.line i.h = t.line) then
      (updTxn sl t.id (fun u => { u with stashTo := some p, offer := true }) (txMsg p 0x44 0 t.line 0 s), true)
    else (s, false)
  | none => (s, false)
/-- A stash offer closes without an accept (R198, R222, R225): the write's transaction with it, once the write is applied (R526). -/
def stashOver (sl : Nat) (t : Txn) (s : State) : State :=
  if t.ph = .stash then closeTxn sl { t with offer := false } s else updTxn sl t.id (fun u => { u with offer := false }) s

/-- A transaction that stands for a home-ward snoop at a proxy (R235): its header names the snoop, with the requester as SRC. -/
def Txn.homeward (t : Txn) : Bool := decide (t.kind = .recl) && decide (Hd.op t.h ≠ 0)
/-- The transaction waits on the link towards the home hub: on an answer, on the other half of its pair, on a free TAG, or on an eviction's Comp (R203,
R235). -/
def Txn.waitsUp (t : Txn) (s : State) : Bool :=
  t.ph = .up || t.ph = .upPull || t.ph = .upHalf ||
    (decide (t.kind = .req) && Rg.remote (s.regOf t) && (t.ph = .start || t.ph = .tagBlock) &&
      (upHeld s t.line || match upPort s (s.regOf t) with | some p => (upFree s p).isNone | none => false))
/-- The local snoops of a home-ward snoop (R235); a frozen port gets none that forwards (R193). -/
def homeSnoops (s : State) (t : Txn) : List (Nat × Byte) :=
  let e := s.dirOf t.line
  let op := Hd.op t.h
  let own := fun (o : Byte) => if e.st = 3 then [(e.port, o)] else []
  if e.up = 0 then []
  else if op = 0x41 then e.list.map (fun p => (p, 0x41))
  else if op = 0x43 then (if e.st = 3 && decide (3 ≤ e.up) && !s.frozen e.port then [(e.port, 0x43)] else e.list.map (fun p => (p, 0x41)))
  else if op = 0x42 && e.up = 2 && e.st = 2 && (s.resident t.line).isNone && !s.frozen e.port then [(e.port, 0x42)]
  else own 0x40
/-- SnpData that the hub itself grants to a requester goes where its identifier leads (R231); with no such port it is discarded and logged, under
the port whose snoop it answers. It counts as read data of class PROC, for a snoop names no class (R359; DESIGN CHOICE, log 106). -/
def snpOwn (p : Nat) (h : Slot) (d : Line) (psn : Bool) (s : State) : State :=
  match routeDst s (Hd.dst h).toNat with
  | some q => readBytes q 0 128 (tx q h (if psn then 0 else d) s)
  | none => logErr 0x0030 4 1 p 0 (Hd.line h).toNat 3 s
/-- What a home-ward snoop is granted from the hub's own copy (R235): the GRANT of F or E, 0 for none. -/
def homeGrant (t : Txn) (e : De) : Nat := if Hd.op t.h = 0x42 && e.up = 2 then 2 else if Hd.op t.h = 0x43 && decide (3 ≤ e.up) then 3 else 0
/-- The answer to a home-ward snoop, and UP afterwards (R235): `t.dat` is the hub's own copy as it was read, where the answer needs it. Dirty data whose
eviction has not been sent goes with the answer, in the eviction's place (R189). -/
def homeAnswer (sl : Nat) (t : Txn) (s : State) : State :=
  let e := s.dirOf t.line
  let op := Hd.op t.h
  let u := t.port
  let say := fun (o : Nat) (aux : Nat) (d : Line) (s : State) =>
    tx u (Hd.mk o s.links.base (s.peer u) (Hd.tag t.h) t.line 0 (BitVec.ofNat 18 aux)) d s
  let wait := upWait s t.line
  let back := match t.wb.bind (s.wbOf sl) with | some b => some (b.data, b.psn) | none => wait.bind (fun x => x.dat)
  let held := s.resident t.line
  let grant := homeGrant t e
  let keep := (op = 0x40 || op = 0x42) && (e.holders ≠ 0 || held.isSome && back.isNone)
  let s := match t.wb with | some b => wbFree sl b s | none => s
  let s := match back, t.dat with
    | some (d, psn), _ => say 0x88 (b2n psn) (if psn then 0 else d) s
    | none, some (d, psn) =>
      if t.fwd then say 0x64 0 0 s
      else if grant ≠ 0 then
        say 0x64 0 0 (snpOwn u (Hd.mk 0x88 s.links.base (Hd.src t.h) (Hd.tag t.h) t.line 0 (BitVec.ofNat 18 (2 * grant + b2n psn))) d psn s)
      else say (if keep then 0x63 else 0x62) 0 0 s
    | none, none => say (if t.fwd then 0x64 else if keep then 0x63 else 0x62) 0 0 s
  let s := match held with
    | some (set, w) => if op = 0x41 || op = 0x43 || back.isSome then owe sl t.id set (invWay t.line set w s) else s
    | none => s
  let s := if wait.isNone then s
    else (List.range 12).foldl (fun s p => s.updPort p (fun q => { q with upQ := q.upQ.filter (fun x => x.line ≠ t.line) })) s
  let d := s.dirOf t.line
  let s := if e.up = 0 then s else setDir t.line none (if keep then { d with up := 1, st := if d.st = 2 then 1 else d.st, port := if d.st = 2 then 0 else d.port } else { d with up := 0 }) s
  closeTxn sl t s
/-- After the write-in: the stash, the grant's acknowledgement, or the close (R198, R526). -/
def afterWrite (sl : Nat) (t : Txn) (s : State) : State × Nx :=
  if t.offer then (updTxn sl t.id (fun u => { u with ph := .stash }) s, .wait)
  else if t.grant.isSome then (updTxn sl t.id (fun u => { u with ph := .ack }) s, .wait)
  else match t.kind with
    | .dirEvict _ => (closeTxn sl t (setDir t.line none De.none (evictDir t.line s)), .closed)
    | .recl => (closeTxn sl t (if t.stashTo.isSome then evictDir t.line s else s), .closed)
    | _ => (closeTxn sl t s, .closed)
/-- The read's data is at hand: grant it, and fill or wait for the acknowledgement (R78, R81). -/
def serve (sl : Nat) (t : Txn) (d : Line) (psn : Bool) (s : State) : State × Nx :=
  let (d, psn) := overBuffered s t.line d psn
  (updTxn sl t.id (fun u => { u with ph := .ack }) (grantData sl t d psn s), .again)
/-- The open combining line of a line (R248). -/
def State.combOf (s : State) (sl : Nat) (l : LineNo) : Option WbLine := (s.slice sl).wb.find? (fun c => c.combining && c.line = l)
/-- A combining line closes and goes on under a transaction of its own, behind the one that has its line open (R248), but before a write of the
line that has yet to go on: its bytes became visible first (R244). -/
def closeCombine (sl : Nat) (b : WbLine) (s : State) : State :=
  let t := { newTxn s.nextId b.line .evict b.port (Hd.mk 0x15 0 0 0 b.line b.tc 0) b.region with wb := some b.id }
  let s := updWb sl b.id (fun x => { x with combining := false, txn := some t.id }) s
  { s with nextId := s.nextId + 1 }.updSlice sl (fun h => { h with tt := h.tt ++ [t] })
/-- The data of a combining line that has closed, on its way (R248). -/
def Txn.combined (t : Txn) : Bool := decide (t.kind = .evict) && decide (Hd.op t.h = 0x15)
/-- A write that has its line open and has yet to go on. -/
def Txn.toGo (t : Txn) : Bool :=
  decide (t.kind = .req) && decide (0x14 ≤ Hd.op t.h) &&
    [Ph.start, .setPark, .dirWay, .wbLine, .snoops, .tagBlock, .bitmap, .noWay, .vbBusy, .ztWait].contains t.ph
/-- The buffered line that a full-line write of a transaction is to replace: an open combining line, or one that it closed at its arrival. -/
def replaced (s : State) (sl : Nat) (id : Nat) (l : LineNo) : Option WbLine :=
  (s.slice sl).wb.find? (fun c => c.line = l && c.kind = 0 && c.visible && (c.combining || (c.txn = some id && !c.cached && !c.gone)))
/-- A WriteInvFull or WriteStash that arrives closes the line's combining line, whose bytes it replaces (R248). -/
def capture (sl : Nat) (t : Txn) (s : State) : State :=
  match s.combOf sl t.line with
  | some c => updWb sl c.id (fun x => { x with combining := false, txn := some t.id }) s
  | none => s
/-- A full line replaces the bytes of a combining line and carries its writes on (R248); poisoned, it takes the durable ones with it (R242). -/
def absorb (sl id : Nat) (b : WbLine) (s : State) : State :=
  match replaced s sl id b.line with
  | some c =>
    if b.mask = fullMask && c.id ≠ b.id then
      wbFree sl c.id (updWb sl b.id (fun x => { x with writes := c.writes ++ x.writes }) (if b.psn && c.dur then loseAll c.writes 2 s else s))
    else s
  | none => s
/-- The owner's data beneath an open write of a transaction (R194), in its reserved line (R181). -/
def underOf (s : State) (sl : Nat) (t : Txn) : Option WbLine :=
  (s.slice sl).wb.find? (fun c => c.txn = some t.id && decide (2 ≤ c.kind) && decide (c.kind < 4) && decide (some c.id ≠ t.wb))
/-- The owner's data goes under the bytes of the write (R185, R194), its record with them; a write of no byte has had its points already. -/
def laidUnder (sl : Nat) (t : Txn) (s : State) : State :=
  match t.wb.bind (s.wbOf sl), underOf s sl t with
  | some b, some c =>
    let full := decide (b.mask = fullMask)
    let s := if !full && c.psn && b.dur then b.writes.foldl (fun s id => wrLose id 2 s) s else s
    wbFree sl c.id (updWb sl b.id (fun x => { x with
      data := if full then x.data else mergeLine c.data x.data x.mask, mask := fullMask, psn := if full then x.psn else x.psn || c.psn
      writes := c.writes ++ if b.mask = 0 && !Rg.remote (s.regOf t) then [] else x.writes }) s)
  | _, _ => s
/-- A partial write that misses opens or joins a combining line (R248); true when it did. A line whose every byte is written closes. The line
keeps the port and class of the write that opened it (DESIGN CHOICE, log 100); poison of one write loses the line's durable ones (R242). -/
def combine (sl : Nat) (t : Txn) (s : State) : State × Bool :=
  match t.wb.bind (s.wbOf sl) with
  | some b =>
    if Hd.op t.h = 0x15 && t.kind = .req && b.mask ≠ fullMask then
      match s.combOf sl t.line with
      | some c =>
        let c' := { c with
          data := mergeLine c.data b.data b.mask, mask := c.mask ||| b.mask, psn := c.psn || b.psn, writes := c.writes ++ b.writes }
        let s := if c'.psn && !(c.psn && b.psn) && c.dur then loseAll c'.writes 2 s else s
        let s := wbFree sl b.id (updWb sl c.id (fun _ => c') s)
        (if c'.mask = fullMask then closeCombine sl c' s else s, true)
      | none =>
        if Rg.comb (s.regOf t) && s.regs.combine ≠ 0 then (updWb sl b.id (fun c => { c with combining := true, txn := none }) s, true)
        else (s, false)
    else (s, false)
  | none => (s, false)
/-- A write needs none of the steps of R51: its region is not tracked, or its granule's bit is 1. -/
def ztClear (s : State) (t : Txn) : Bool := !Rg.zt (s.regOf t) || ztBit s (s.regOf t) t.line = some true
/-- What a write waits for in a zero-tracked region (R51, R52), hit or miss: the granule's bit, the first write of its granule, or its own steps
as the first. -/
def ztSteps (sl : Nat) (t : Txn) (s : State) : State × Nx :=
  let e := s.regOf t
  match ztBit s e t.line with
    | none => (updTxn sl t.id (fun u => { u with ph := .bitmap }) (farRead t (.bitmapRead t.id) (ztLine e t.line) s), .wait)
    | some _ =>
      let g := (t.line.toNat - Rg.base e) / 32 * 32 + Rg.base e
      let first := (List.range 8).any (fun k => (s.slice k).tt.any (fun u => u.ph = .ztFill && decide (g ≤ u.line.toNat) && decide (u.line.toNat < g + 32)))
      if first then (updTxn sl t.id (fun u => { u with ph := .ztWait }) s, .wait)
      else
        let s := (List.range 32).foldl (fun s i => let l := BitVec.ofNat 40 (g + i)
          if l = t.line then s else (farWrite l 0 fullMask false (.ztZero t.id) s).1) s
        (updTxn sl t.id (fun u => { u with ph := .ztFill, left := 31 }) s, .wait)
/-- The transaction of a write's record, with its slice. -/
def txnOfWr (s : State) (id : Nat) : Option (Nat × Txn) :=
  (List.range 8).findSome? (fun k => ((s.slice k).tt.find? (fun u => u.wr = some id)).map (fun u => (k, u)))
/-- The record of the other half of a split write that goes towards the same home hub (R183, R234). -/
def otherHalf (s : State) (w : Wr) : Option Wr :=
  s.links.writes.find? (fun x => x.port = w.port && x.splitId = w.splitId && !x.compSent && decide (x.split.toNat + w.split.toNat = 3) &&
    x.line = (if w.split = 1 then w.line + 1 else w.line - 1) && Rg.remote (s.region x.region) && upPort s (s.region x.region) = upPort s (s.region w.region))
/-- How a write goes towards its home hub: alone, or as half of a pair once the other half is ready too. -/
inductive Pair where
  | alone
  | later
  | ready (sl : Nat) (u : Txn)
deriving DecidableEq, Repr
/-- Both halves of a split write go together, the lower first (R183, R234). A half whose other half stands behind a write that itself waits for its
other half goes alone (DESIGN CHOICE, log 94). -/
def halfPair (s : State) (t : Txn) : Pair :=
  match t.wr.bind s.wrOf with
  | none => .alone
  | some w =>
    if w.split = 0 then .alone
    else match otherHalf s w with
      | none => if w.split = 1 && (s.port w.port).splits.any (fun e => e.id = w.splitId && e.line = w.line) then .later else .alone
      | some x =>
        match txnOfWr s x.id with
        | some (k, u) => if u.ph = .upHalf then .ready k u else .later
        | none => if (s.slice (homeSlice x.line)).tt.any (fun u => u.line = x.line && u.ph = .upHalf) then .alone else .later
/-- A SPLIT_ID that no pair open towards a home hub uses (R183, R234). -/
def upPairId (s : State) : Option (BitVec 6) :=
  let used := (List.range 8).flatMap (fun k => (s.slice k).tt.filterMap (fun u => if u.ph = .upPull then u.upSplit else none))
  ((List.range 64).map (BitVec.ofNat 6)).find? (fun i => !used.contains i)
/-- A write of a remote line goes towards its home hub (R33, R234): a WriteDev as it is, a WriteStash as WriteInvFull, the halves of a split write
together. -/
def upWrite (sl : Nat) (t : Txn) (b : WbLine) (s : State) : State :=
  let half := if Hd.op t.h = 0x18 then 0x18 else 0x15
  match halfPair s t with
  | .alone => sendUp sl (if Hd.op t.h = 0x18 then 0x18 else if b.mask = fullMask then 0x14 else 0x15) t .upPull s
  | .later => updTxn sl t.id (fun u => { u with ph := .upHalf }) s
  | .ready k u =>
    let room := !upHeld s t.line && !upHeld s u.line && (match upPort s (s.regOf t) with | some p => decide ((upOpen s p).length + 2 ≤ 4096) | none => true)
    match (upPairId s).filter (fun _ => room) with
    | none => updTxn sl t.id (fun u => { u with ph := .upHalf }) s
    | some i =>
      let s := updTxn sl t.id (fun x => { x with ph := .upHalf }) s
      let t := { t with upSplit := some i }
      let u := { u with upSplit := some i }
      if (Hd.split t.h).toNat = 1 then sendUp k half u .upPull (sendUp sl half t .upPull s)
      else sendUp sl half t .upPull (sendUp k half u .upPull s)
/-- An owner's data of a remote line travels towards its home hub as WbData (R233, R236). -/
def ownerUp (sl : Nat) (t : Txn) (b : WbLine) (s : State) : State :=
  updTxn sl t.id (fun u => { u with wb := none }) (wbFree sl b.id (evictUp t.line (some (b.data, b.psn)) s))
/-- The write goes to far memory without allocation (R85, R89, R94, R110), after the zero-tracking steps of R51. -/
def writeFar (sl : Nat) (t : Txn) (b : WbLine) (s : State) : State × Nx :=
  if Rg.remote (s.regOf t) then
    if t.kind = .req then (upWrite sl t b s, .wait) else afterWrite sl { t with wb := none } (ownerUp sl t b s)
  else if ztClear s t then afterWrite sl t (sendFar sl t b (sbDiscard sl t.line s))
  else ztSteps sl t s
/-- A demand read misses the system cache: counted, and its candidate triggered, once (R116, R479). -/
def missOnce (sl : Nat) (t : Txn) (s : State) : State :=
  if t.reads ≠ 0 then s else trigNext sl t (monSys 3 1 (attrOf t.h) (updTxn sl t.id (fun u => { u with reads := 1 }) s))

/-- A read that the victim buffer serves (R83). -/
def Txn.servedVb (t : Txn) : Bool := decide (t.kind = .req) && (Hd.op t.h = 0x10 || Hd.op t.h = 0x12)
/-- The data of a read that no buffer of the slice holds: from its home hub (again from the start where UP does not cover it any more), as zeros, from buffered writes, or from far memory (R50, R234, R249),
with a way asked for where `el` is not empty. -/
def readFar (sl : Nat) (t : Txn) (el : Nat) (s : State) : State × Nx :=
  let e := s.regOf t
  if Rg.remote e then
    let d := s.dirOf t.line
    if Hd.op t.h ≠ 0x12 && (upNeed (Hd.op t.h) d.up (d.holders.testBit t.port) false).isSome then
      (updTxn sl t.id (fun u => { u with ph := .start, gop := 0, upTag := none, upState := 0 }) s, .again)
    else (sendUp sl 0x12 t .up s, .wait)
  else if Rg.zt e && ztBit s e t.line = none then
    (updTxn sl t.id (fun u => { u with ph := .bitmap }) (farRead t (.bitmapRead t.id) (ztLine e t.line) s), .wait)
  else if Rg.zt e && ztBit s e t.line = some false then serve sl t 0 false s
  else if coversAll s t.line then serve sl t 0 false s
  else
    let s := updTxn sl t.id (fun u => { u with ph := .farRead, far := true, noFill := el = 0 }) s
    let s := if el ≠ 0 then askVictim sl t el s else s
    let s := match s.combOf sl t.line with | some c => closeCombine sl c s | none => s
    (farRead t (.fill t.id) t.line s, .wait)
/-- The lookup of a read that misses, or whose line is not cached (R79, R83, R116, R249). -/
def readMiss (sl : Nat) (t : Txn) (s : State) : State × Nx :=
  let s := missOnce sl t s
  let t := { t with reads := 1 }
  let s := if Hd.op t.h = 0x13 then sbDiscard sl t.line s else s
  let e := s.regOf t
  let h := s.slice sl
  let can := mayAlloc s t && (!Rg.remote e || (t.dat.isSome && decide ((s.dirOf t.line).up ≠ 0)))
  let el := if can then eligible s (s.setOf t.line) (s.partNow t) false else 0
  match t.dat with
  | some (d, psn) =>
    if el ≠ 0 then
      let u := { t with ph := .farRead }
      (askVictim sl u el (grantData sl u d psn (updTxn sl t.id (fun _ => u) s)), .again)
    else serve sl t d psn s
  | none =>
  match h.vbOf t.line with
  | some v => if t.servedVb && v.ready then serve sl t v.data v.psn s else (updTxn sl t.id (fun u => { u with ph := .vbBusy }) s, .wait)
  | none =>
  readFar sl t el s
/-- The tag block of a set is fetched for a transaction, unless its fetch is under way or has no room on chip (R71, R77). -/
def tagFetch (sl : Nat) (t : Txn) (set : Nat) (s : State) : State :=
  if s.cache.mc.any (fun m => m.kind = .tag && m.sl = sl && m.set / 8 % 4096 = set / 8 % 4096) || (tbcVictim s sl set).isNone then s
  else mcReq sl .tag set t.id (bursts 2 0 t.line (monSys 6 1 (attrLine t.line) s))
/-- The side-buffer entry that serves a read (R122). -/
def sbHit (s : State) (sl : Nat) (t : Txn) : Option SbLine :=
  if t.kind = .req && (Hd.op t.h = 0x10 || Hd.op t.h = 0x11 || Hd.op t.h = 0x12) && t.dat.isNone && t.wb.isNone then (s.slice sl).sbOf t.line else none
/-- The side buffer serves a read at once, without DRAM or far access (R122); where the line may be allocated its promotion follows. -/
def sbServe (sl : Nat) (t : Txn) (b : SbLine) (s : State) : State × Nx :=
  let s := cntPf 6 1 (sbPin sl t.line (missOnce sl t s))
  if mayAlloc s t then
    let u := { t with fillKind := 3, ph := .promote, reads := 1 }
    (grantData sl u b.data false (updTxn sl t.id (fun _ => u) s), .again)
  else serve sl { t with reads := 1 } b.data false s
/-- The promotion of a served line (R122): its set's tag block, then a way; with none eligible the line is not allocated. -/
def promote (sl : Nat) (t : Txn) (s : State) : State × Nx :=
  let set := s.setOf t.line
  if !mayAlloc s t then (updTxn sl t.id (fun u => { u with ph := .ack }) s, .again)
  else if (s.slice sl).lostSets.contains set then (s, .wait)
  else if !(s.tbcOf set).valid then (tagFetch sl t set s, .wait)
  else
    let el := eligible s set (s.partNow t) false
    if el = 0 then (updTxn sl t.id (fun u => { u with ph := .ack }) s, .again)
    else (askVictim sl { t with ph := .farRead } el (updTxn sl t.id (fun u => { u with ph := .farRead }) s), .again)
/-- A write-in that allocates (R80, R85): the rest of a partial line first, then a way. -/
def writeAlloc (sl : Nat) (t : Txn) (b : WbLine) (s : State) : State × Nx :=
  if Rg.zt (s.regOf t) && ztBit s (s.regOf t) t.line ≠ some true then writeFar sl t b s
  else if b.mask ≠ fullMask then
    (updTxn sl t.id (fun u => { u with ph := .farRead, far := true }) (farRead t (.merge b.id) t.line s), .wait)
  else
    let el := eligible s (s.setOf t.line) (s.partNow t) false
    if el = 0 then (updTxn sl t.id (fun u => { u with ph := .noWay }) s, .wait)
    else (askVictim sl t el (updTxn sl t.id (fun u => { u with ph := .victim }) s), .again)
/-- A demand write misses the system cache: counted once (R479). -/
def wrMissOnce (sl : Nat) (t : Txn) (s : State) : State :=
  if t.reads = 0 && !(t.kind = .req && Hd.op t.h < 0x14) then updTxn sl t.id (fun u => { u with reads := 1 }) (monSys 5 1 (attrOf t.h) s) else s
/-- Where a write-in that misses goes (R83, R85, R94, R234): behind the victim buffer, home-ward, into a combining line, to far memory or into a way. -/
def writeTo (sl : Nat) (t : Txn) (b : WbLine) (s : State) : State × Nx :=
  if ((s.slice sl).vbOf t.line).isSome then (updTxn sl t.id (fun u => { u with ph := .vbBusy }) s, .wait)
  else if Rg.remote (s.regOf t) then writeFar sl t b s
  else
    let can := mayAlloc s t
    let r := combine sl t (if can then wrMissOnce sl t s else s)
    if r.2 then (closeTxn sl t r.1, .closed)
    else if can then writeAlloc sl t b r.1
    else writeFar sl t b r.1
/-- The lookup of a write-in that misses (R80, R85). -/
def writeMiss (sl : Nat) (t : Txn) (b : WbLine) (s : State) : State × Nx :=
  writeTo sl t b (if t.kind = .req && Hd.op t.h < 0x14 then missOnce sl t s else s)

/-- A chosen way whose line has become durable-dirty since the choice is given back (R64, R80): a write looks again, a fill asks for another way, and
with none eligible is not allocated. -/
def wayAgain (sl : Nat) (t : Txn) (s : State) : State × Nx :=
  let u := { t with reserved := false, way := none }
  let s := updTxn sl t.id (fun u => { u with reserved := false, way := none }) (s.updSlice sl (fun h => { h with vbWait := h.vbWait.erase t.id }))
  if t.wb.isSome then (updTxn sl t.id (fun u => { u with ph := .tagBlock }) s, .again)
  else
    let el := eligible s (s.setOf t.line) (s.partNow t) (t.fillKind = 2)
    if el = 0 then (updTxn sl t.id (fun u => { u with noFill := true, ph := .ack }) s, .again)
    else (askVictim sl { u with ph := .farRead } el (updTxn sl t.id (fun u => { u with ph := .farRead }) s), .again)
/-- Close of a fill or write into a chosen way: the victim first (R82, R84), as the way stands then: a line written in it since the choice has
become dirty and goes through the victim buffer (DESIGN CHOICE, log 81), whose read is first to return (R82, R379; DEDUCED, log 122), and one that is
durable-dirty is no victim (R64, R80). Where allocation has stopped meanwhile the way is given back, a read is
not allocated and a write goes to far memory (R94, R382). -/
def place (sl : Nat) (t : Txn) (w : Nat) (d : Line) (psn : Bool) (s : State) : State × Nx :=
  let te := teOf (s.curTb (s.setOf t.line)) w
  if allocStops s t then
    (updTxn sl t.id (fun u => { u with reserved := false, way := none, noFill := true, ph := if u.wb.isSome then .tagBlock else .ack })
      (s.updSlice sl (fun h => { h with vbWait := h.vbWait.erase t.id })), .again)
  else if bit te 13 && bit te 12 && bit te 11 then wayAgain sl t s
  else if bit te 13 && bit te 12 then
    let h := s.slice sl
    if h.vb.length < 512 && (h.vbWait.isEmpty || h.vbWait.head? = some t.id) then
      let s := s.updSlice sl (fun h => { h with vbWait := h.vbWait.filter (fun i => i ≠ t.id) })
      (updTxn sl t.id (fun u => { u with ph := .vict }) (evictTo sl (s.setOf t.line) w t.id s), .wait)
    else
      (updTxn sl t.id (fun u => { u with ph := .vbFull }) (s.updSlice sl (fun h => { h with
        vbWait := if h.vbWait.contains t.id then h.vbWait else h.vbWait ++ [t.id] })), .wait)
  else
    let old := if bit te 13 then some (s.wayLine (s.setOf t.line) w) else none
    let s := installLine sl t w d psn false (s.updSlice sl (fun h => { h with vbWait := h.vbWait.erase t.id }))
    (match old with | some l => evictUp l none s | none => s, .wait)

/-- A WriteStash may end in an offer, and so in X, as far as its acceptance tells (R198): only then does it need a directory way (R212). -/
def mayOffer (s : State) (t : Txn) : Bool :=
  !Rg.remote (s.regOf t) && (List.range s.nPorts).any (fun p => let q := s.port p; bit t.rdm p && q.cfg.peerHub = 0 && q.cfg.peerId = Hd.aux t.h)
/-- A side-buffer entry that a read matches at step 4 is pinned until the read's transaction closes (R122, R124). -/
def sbMatch (sl : Nat) (t : Txn) (s : State) : State :=
  if t.kind = .req && (Hd.op t.h = 0x10 || Hd.op t.h = 0x11 || Hd.op t.h = 0x12) then sbPin sl t.line s else s
/-- A request's start, its sender being no owner of the line (R194, R212, R234): snoops, and for a write its line and its data. One that finds an unsent
eviction of its line waits for it (R203). -/
def startReq (sl : Nat) (t : Txn) (s : State) : State × Nx :=
  let e := s.dirOf t.line
  let op := Hd.op t.h
  let rg := s.regOf t
  if Rg.remote rg && (upWait s t.line).isSome then (s, .wait)
  else if op = 0x17 && Rg.remote rg then (sendUp sl 0x17 t .up (updTxn sl t.id (fun u => { u with gop := 0x84 }) s), .wait)
  else if op = 0x17 then
    (farRead t (.devRead t.id) t.line (updTxn sl t.id (fun u => { u with ph := .device, gop := 0x84 }) s), .wait)
  else if op = 0x18 then
    let (s, ok) := pullWrite sl t s
    (if ok then updTxn sl t.id (fun u => { u with ph := .snoops }) s else s, .wait)
  else if (op = 0x11 || op = 0x13) && ((s.slice sl).vbOf t.line).isSome then (s, .wait)
  else if ((s.slice sl).dirWay t.line).isNone && t.step = 0 && (op = 0x10 || op = 0x11 || op = 0x13 || (op = 0x16 && mayOffer s t)) then takeWay sl t s
  else
    let need := if Rg.remote rg && t.upTag.isNone then upNeed op e.up (e.holders.testBit t.port) (s.resident t.line).isSome else none
    match need with
    | some u => (sendUp sl u t .up s, .wait)
    | none =>
      let l := snoopsFor s op e t.port
      if 0x14 ≤ op then
        let (s, ok) := pullWrite sl t (if op = 0x15 then s else capture sl t s)
        if ok then (updTxn sl t.id (fun u => { u with ph := .snoops, snoops := l }) (sendSnoops t l s), .wait) else (s, .wait)
      else
        (updTxn sl t.id (fun u => { u with ph := .snoops, snoops := l, gop := grantFor s op e t.port }) (sendSnoops t l s), .again)
/-- The start of a transaction (pipeline steps 2 to 5): directory, snoops, write-buffer line (R194, R212, R218). -/
def start (sl : Nat) (t : Txn) (s : State) : State × Nx :=
  let s := sbMatch sl t (dirFix t.line s)
  let e := s.dirOf t.line
  let op := Hd.op t.h
  match t.kind with
  | .dirEvict _ =>
    let l := e.list.map (fun p => (p, (0x41 : Byte)))
    (updTxn sl t.id (fun u => { u with ph := .snoops, snoops := l }) (sendSnoops t l s), .again)
  | .recl =>
    if t.homeward then
      if (s.slice sl).tt.any (fun u => u.line = t.line && decide (u.id < t.id) && !u.waitsUp s) then (s, .wait)
      else
        let l := homeSnoops s t
        (updTxn sl t.id (fun u => { u with ph := .snoops, snoops := l }) (sendSnoops t l s), .again)
    else (updTxn sl t.id (fun u => { u with ph := .snoops }) (sendSnoops t t.snoops s), .again)
  | .evict =>
    if (s.slice sl).tt.any (fun u => u.line = t.line && decide (u.id < t.id) && !(t.combined && u.toGo)) then (s, .wait)
    else (updTxn sl t.id (fun u => { u with ph := .tagBlock }) s, .again)
  | .walk => (s, .wait)
  | .nextLine | .stream => (updTxn sl t.id (fun u => { u with ph := .tagBlock }) s, .again)
  | .req =>
    if 0x10 ≤ op && op ≤ 0x13 && e.st = 3 && e.port = t.port then
      (closeTxn sl { t with gop := 0 } (freeTag t.port (Hd.tag t.h) (frozenAbort t.port t.h (violate t.port 3 t.h s))), .closed)
    else startReq sl t s

/-- What a write does to its line before its own data goes on: the side buffer's copy is discarded (R123), the write becomes visible (R240)
over what the owner answered (R194), and the directory names nobody any more (R194, R196). -/
def wrMade (sl : Nat) (t : Txn) (s : State) : State :=
  let s := if Hd.op t.h = 0x18 then s else sbDiscard sl t.line s
  let s := if Hd.op t.h = 0x18 then s else laidUnder sl t (if Rg.remote (s.regOf t) then s else wrVisible sl t s)
  let e := s.dirOf t.line
  if Hd.op t.h = 0x18 || e.st = 0 && e.up = 0 then s else setDir t.line none { e with st := 0, port := 0, holders := 0 } s
/-- A WriteDev goes on: in an EARLY_ACK region it is complete for its requester at once (R199), and it goes to far memory, or towards the home hub
of a remote region (R33), with its own bytes. -/
def devGo (sl : Nat) (t : Txn) (b : WbLine) (s : State) : State × Nx :=
  let s := updWb sl b.id (fun x => { x with visible := true }) s
  let s := b.writes.foldl (fun s id => match s.wrOf id with | some w => if w.ack = 0 then sendComp id 0 s else s | none => s) s
  if Rg.remote (s.regOf t) then (upWrite sl t b s, .wait)
  else if b.mask = 0 then (closeTxn sl t (wbFree sl b.id (b.writes.foldl (fun s id => wrPoint id 2 s) s)), .closed)
  else ((farWrite b.line b.data b.mask b.psn (.devWrite t.id) (updTxn sl t.id (fun u => { u with ph := .device }) s)).1, .wait)
/-- A write whose snoops are answered: a WriteStash offers its line (R198), and the data goes on to the tag block. -/
def wrAnswered (sl : Nat) (t : Txn) (s : State) : State × Nx :=
  let s := wrMade sl t s
  let (s, offered) := if Hd.op t.h = 0x16 then offerStash sl t s else (s, false)
  let t := { t with offer := offered }
  match t.wb.bind (s.wbOf sl) with
  | none => (closeTxn sl t s, .closed)
  | some b =>
    if Hd.op t.h = 0x18 then devGo sl t b s
    else
      (updTxn sl t.id (fun u => { u with ph := .tagBlock }) (absorb sl t.id b s), .again)
/-- An owner's data answers a read (R194, R234): it is granted, and goes into the cache (R191, R192); of a remote line a ReadOwn takes it as it is.
With any other read of a remote line it is dirty data that travels home-ward (R233), which R236 lets it do only once no port holds the line: the copies
of the flow are recalled after it (DESIGN CHOICE, log 104). -/
def ownerServes (sl : Nat) (t : Txn) (b : WbLine) (s : State) : State × Nx :=
  let op := Hd.op t.h
  if !Rg.remote (s.regOf t) then (updTxn sl t.id (fun u => { u with ph := .tagBlock }) (grantData sl t b.data b.psn s), .again)
  else
    let s := if (s.resident t.line).isNone then missOnce sl t s else s
    let own := op = 0x11 || op = 0x13
    let t := { t with upState := if own then 4 else 0, wb := none }
    let s := wbFree sl b.id (grantData sl t b.data b.psn s)
    let s := if own then s else evictUp t.line (some (b.data, b.psn)) s
    (updTxn sl t.id (fun u => { u with ph := .ack, upState := t.upState, wb := none }) s, .again)
/-- A read whose transaction-table entry failed while its snoops were out is served poisoned (R375, R226): with what the owner sent, marked, or with
nothing that may be kept. -/
def deadServes (sl : Nat) (t : Txn) (s : State) : State × Nx :=
  match t.wb.bind (s.wbOf sl) with
  | some b => ownerServes sl { t with dead := false } { b with psn := true } (updWb sl b.id (fun x => { x with psn := true }) s)
  | none => serve sl { t with noFill := true } (Config.lostLine t.id) true (updTxn sl t.id (fun u => { u with noFill := true }) s)
/-- A read or Upgrade whose snoops are answered: a forwarder's data or an owner's data serves it, an Upgrade is granted, and any other goes
to the tag block; an exclusive request waits while the victim buffer holds its line (R83). -/
def rdAnswered (sl : Nat) (t : Txn) (s : State) : State × Nx :=
  let op := Hd.op t.h
  if t.dead && t.gop ≠ 0x60 then deadServes sl t s
  else if t.fwd then
    let s := monSys 0x0C 1 (attrOf t.h) (if (s.resident t.line).isNone then missOnce sl t s else s)
    (updTxn sl t.id (fun u => { u with ph := .ack }) s, .again)
  else if (op = 0x11 || op = 0x13) && ((s.slice sl).vbOf t.line).isSome then (s, .wait)
  else match t.wb.bind (s.wbOf sl) with
    | some b => ownerServes sl t b s
    | none =>
      if t.gop = 0x60 then (updTxn sl t.id (fun u => { u with ph := .ack }) (grantComp sl t s), .again)
      else (updTxn sl t.id (fun u => { u with ph := .tagBlock }) s, .again)
/-- An eviction, recall or snoop from the home whose answers are in. Dirty data of a remote line goes home-ward only when no port holds the line (R233,
R236): whoever still holds it, after a CLEAN with RECALL too, is invalidated first (DESIGN CHOICE, log 98). -/
def ownAnswered (sl : Nat) (t : Txn) (s : State) : State × Nx :=
  if t.homeward then (updTxn sl t.id (fun u => { u with ph := .tagBlock }) s, .again)
  else if t.wb.isSome && Rg.remote (s.regOf t) && (s.dirOf t.line).holders ≠ 0 then
    let l := (s.dirOf t.line).list.map (fun p => (p, (0x41 : Byte)))
    (updTxn sl t.id (fun u => { u with snoops := l }) (sendSnoops t l s), .wait)
  else if t.wb.isSome then (updTxn sl t.id (fun u => { u with ph := .tagBlock }) s, .again) else afterWrite sl t s
/-- Every snoop is answered and every byte awaited is here (R194, R197). -/
def answered (sl : Nat) (t : Txn) (s : State) : State × Nx :=
  match t.kind with
  | .req => if 0x14 ≤ Hd.op t.h then wrAnswered sl t s else rdAnswered sl t s
  | _ => ownAnswered sl t s

/-- A prefetch candidate is dropped at step 5 (R117, R121). -/
def prefetchDrop (sl : Nat) (t : Txn) (s : State) : State × Nx := (closeTxn sl t (cntPf (if t.kind = .nextLine then 1 else 5) 1 s), .closed)
/-- A prefetch candidate at step 5 (R117, R118, R121, R124): dropped where the line is in the system cache, no way is eligible or the side
buffer has no entry to take; otherwise its far read goes out. -/
def prefetchLook (sl : Nat) (t : Txn) (w : Option Nat) (s : State) : State × Nx :=
  let u := { t with ph := .farRead, far := true, noFill := t.kind = .stream }
  if w.isSome then prefetchDrop sl t s
  else if t.kind = .nextLine then
    let el := if mayAlloc s t then eligible s (s.setOf t.line) (s.partNow t) false else 0
    if el = 0 then prefetchDrop sl t s
    else (farRead u (.fill t.id) t.line (askVictim sl u el (updTxn sl t.id (fun _ => u) (cntPf 0 1 s))), .wait)
  else if noWayFor s t.line (s.partNow t) then prefetchDrop sl t s
  else
    let h := s.slice sl
    let open_ := (h.tt.filter (fun v => v.kind = .stream && v.far)).length
    let idle := h.sb.filter (fun b => !b.pinned)
    if h.sb.length + open_ < 2048 then (farRead u (.fill t.id) t.line (updTxn sl t.id (fun _ => u) (cntPf 4 1 s)), .wait)
    else match idle with
      | [] => prefetchDrop sl t s
      | b :: bs =>
        let old := bs.foldl (fun (a : SbLine) c => if c.order < a.order then c else a) b
        let s := cntPf 9 1 (s.updSlice sl (fun h => { h with sb := h.sb.filter (fun c => c.line ≠ old.line) }))
        (farRead u (.fill t.id) t.line (updTxn sl t.id (fun _ => u) (cntPf 4 1 s)), .wait)
/-- The first demand request that hits a prefetched or offered line clears PF and OFR (R64, R77). -/
def hitClear (sl id : Nat) (l : LineNo) (set w : Nat) (s : State) : State :=
  let te := teOf (s.curTb set) w
  if nbits te 9 8 = 0 then s
  else owe sl id set (bursts 0 3 l (putTe set w (te &&& ~~~(0x300 : BitVec 32)) (if bit te 9 then cntPf 2 1 s else s)))
/-- A demand write hits way w, for the first time: counted, and its HIT event (R143, R479). -/
def wrHitOnce (sl : Nat) (t : Txn) (w : Nat) (s : State) : State :=
  if t.reads ≠ 0 then s
  else
    let s := updTxn sl t.id (fun u => { u with reads := 1 }) (monSys 4 1 t.attr s)
    if t.kind = .req && 0x14 ≤ Hd.op t.h then dispatchUpd sl (seqEvent s t 1 w) s else s
/-- A write of no byte writes nothing (R185, R241): its lookup is that of any demand write, and it is done. -/
def emptyWrite (sl : Nat) (t : Txn) (w : Option Nat) (b : WbLine) (s : State) : State × Nx :=
  let s := match w with
    | some w => hitClear sl t.id t.line (s.setOf t.line) w (wrHitOnce sl t w s)
    | none => if mayAlloc s t then wrMissOnce sl t s else s
  afterWrite sl { t with wb := none } (wbFree sl b.id (updTxn sl t.id (fun u => { u with wb := none }) s))
/-- A home-ward snoop whose local answers are in looks its line up (R235): a copy of the hub's own that the answer needs is read first (R77, R364). -/
def homeFound (sl : Nat) (t : Txn) (w : Option Nat) (s : State) : State × Nx :=
  match w with
  | some w =>
    if t.wb.isNone && !t.fwd && homeGrant t (s.dirOf t.line) ≠ 0 && ((upWait s t.line).bind (fun x => x.dat)).isNone then
      (mcReq sl (.line w) (s.setOf t.line) t.id (bursts 3 0 t.line (updTxn sl t.id (fun u => { u with ph := .lineRead, way := some w }) s)), .wait)
    else (homeAnswer sl t s, .closed)
  | none => (homeAnswer sl t s, .closed)
/-- Step 5 of the lookup: a hit in way w, or a miss (R74, R77). -/
def found (sl : Nat) (t : Txn) (w : Option Nat) (s : State) : State × Nx :=
  let set := s.setOf t.line
  let wbl := t.wb.bind (s.wbOf sl)
  if t.kind = .nextLine || t.kind = .stream then prefetchLook sl t w s
  else if t.homeward then homeFound sl t w s
  else match w, wbl with
    | none, none => readMiss sl t s
    | none, some b => if b.mask = 0 && !Rg.remote (s.regOf t) then emptyWrite sl t none b s else writeMiss sl t b s
    | some w, some b =>
      if b.mask = 0 && !Rg.remote (s.regOf t) then emptyWrite sl t (some w) b s else
      let s := wrHitOnce sl t w s
      if Rg.remote (s.regOf t) then writeMiss sl { t with reads := 1 } b (owe sl t.id set (invWay t.line set w s))
      else if !ztClear s t then ztSteps sl t s
      else if b.mask = fullMask then (installLine sl t w b.data b.psn true s, .wait)
      else (mcReq sl (.line w) set t.id (bursts 3 0 t.line (updTxn sl t.id (fun u => { u with ph := .lineRead, way := some w }) s)), .wait)
    | some w, none =>
      let s := dispatchUpd sl (seqEvent s t 1 w) (monSys 2 1 (attrOf t.h) s)
      (mcReq sl (.line w) set t.id (bursts 3 0 t.line (updTxn sl t.id (fun u => { u with ph := .lineRead, way := some w }) s)), .wait)
/-- Pipeline steps 3 to 5 on the system cache: the tag block, then hit or miss (R71, R74, R77). -/
def lookup (sl : Nat) (t : Txn) (s : State) : State × Nx :=
  if t.toGo && (s.slice sl).tt.any (fun u => u.line = t.line && u.combined) then (s, .wait)
  else match sbHit s sl t with
  | some b => sbServe sl t b s
  | none =>
  if !cacheable s t then found sl t none s
  else
    let set := s.setOf t.line
    if (s.slice sl).lostSets.contains set then (s, .wait)
    else if !(s.tbcOf set).valid then (tagFetch sl t set s, .wait)
    else
      let s := s.updSlice sl (fun h => { h with tbc := NMap.upd TbcEnt.init h.tbc set (fun e => { e with used := h.tbcClk }), tbcClk := h.tbcClk + 1 })
      found sl t (findWay s (s.tbcOf set).block t.line) s

/-- The memory controller has accepted the write (R72): complete, and what follows (R241, R247, R526). The line of an agent's own data is released
then; what is left of it stands for its far write. -/
def accepted (sl : Nat) (t : Txn) (s : State) : State × Nx :=
  let s := updTxn sl t.id (fun u => { u with reserved := false, way := none }) s
  match t.wb.bind (s.wbOf sl) with
  | some b =>
    let wt := Rg.pol (s.regOf t) = 1 || !b.gone && !b.dur
    let s := if wt then s else b.writes.foldl (fun s id => wrPoint id 2 s) s
    let s := if b.gone && !b.dur then wbFree sl b.id s else if 2 ≤ b.kind then updWb sl b.id (fun x => { x with released := true }) s else s
    afterWrite sl t (updTxn sl t.id (fun u => { u with wb := none }) s)
  | none =>
    if t.wb.isSome then afterWrite sl { t with wb := none } (updTxn sl t.id (fun u => { u with wb := none }) s)
    else if t.grant.isSome then (updTxn sl t.id (fun u => { u with ph := .ack }) s, .wait) else (closeTxn sl t s, .closed)

/-- One phase of a transaction. -/
def phase (sl : Nat) (t : Txn) (s : State) : State × Nx :=
  match t.ph with
  | .start => start sl t s
  | .snoops => if t.snoops.isEmpty && !t.pull then answered sl t s else (s, .wait)
  | .tagBlock => lookup sl t s
  | .promote => promote sl t s
  | .farRead =>
    if t.wb.isSome && t.grant.isNone && t.dat.isNone then (s, .wait)
    else match t.dat with
      | none => (s, .wait)
      | some (d, psn) =>
        if t.noFill then (updTxn sl t.id (fun u => { u with ph := .ack }) s, .again)
        else if t.reserved then (match t.way with | some w => place sl t w d psn s | none => (s, .wait)) else (s, .wait)
  | .victim =>
    if t.reserved then
      match t.way, t.wb.bind (s.wbOf sl) with
      | some w, some b => place sl t w b.data b.psn s
      | _, _ => (s, .wait)
    else (s, .wait)
  | .vbFull =>
    match t.way with
    | some w => (match t.wb.bind (s.wbOf sl), t.dat with
      | some b, _ => place sl t w b.data b.psn s
      | none, some (d, psn) => place sl t w d psn s
      | none, none => (s, .wait))
    | none => (s, .wait)
  | .vbBusy =>
    if (match (s.slice sl).vbOf t.line with | some v => !(v.ready && t.servedVb) | none => false) then (s, .wait)
    else (updTxn sl t.id (fun u => { u with ph := .tagBlock }) s, .again)
  | .noWay =>
    if eligible s (s.setOf t.line) (s.partNow t) false ≠ 0 || !mayAlloc s t then (updTxn sl t.id (fun u => { u with ph := .tagBlock }) s, .again)
    else (s, .wait)
  | .upHalf => (match t.wb.bind (s.wbOf sl) with | some b => (upWrite sl t b s, .wait) | none => (s, .wait))
  | .ztWait => (updTxn sl t.id (fun u => { u with ph := .tagBlock }) s, .again)
  | .shut => if t.accepts = 0 then (closeTxn sl t s, .closed) else (s, .wait)
  | .wbLine => (updTxn sl t.id (fun u => { u with ph := .start }) s, .again)
  | .mcWrite => if t.accepts = 0 then accepted sl t s else (s, .wait)
  | .ack => if t.grant.isNone && t.accepts = 0 && !t.reserved then (closeTxn sl t s, .closed) else (s, .wait)
  | _ => (s, .wait)

/-- A transaction that a close or a release may let go on. -/
def Txn.waits (t : Txn) : Bool :=
  t.ph = .tagBlock || t.ph = .promote || t.ph = .noWay || t.ph = .vbFull || t.ph = .vbBusy || t.ph = .wbLine || t.ph = .start || t.ph = .ztWait ||
    (t.ph = .snoops && t.snoops.isEmpty && !t.pull)
/-- Run a transaction through the phases it can pass, then those a close lets go on. -/
def go : Nat → Nat → Nat → State → State
  | 0, _, _, s => s
  | n + 1, sl, id, s =>
    match s.txn sl id with
    | none => s
    | some t =>
      let (s, x) := phase sl t s
      match x with
      | .wait => s
      | .again =>
        let s := go n sl id s
        ((s.slice sl).tt.filter (fun u => u.ph = .start && u.id ≠ id)).foldl (fun s u => go n sl u.id s) s
      | .closed => ((s.slice sl).tt.filter Txn.waits).foldl (fun s u => go n sl u.id s) s
/-- The fuel of `go`: more phases than any transaction passes at once. -/
def goFuel : Nat := 12
/-- Run a transaction. -/
def run (sl id : Nat) (s : State) : State := go goFuel sl id s
/-- Run every transaction of a slice that may go on. -/
def kick (sl : Nat) (s : State) : State := ((s.slice sl).tt.filter Txn.waits).foldl (fun s u => run sl u.id s) s
/-- Waiting transactions of every slice look again. -/
def kickAll (s : State) : State := (List.range 8).foldl (fun s sl => kick sl s) s

end Sys2Proof.Machine
end

