-- ==== Sys2Proof/Machine/Far.lean ====
section
/-! DEFINITION. What the end of a far request does: fills, merges, zero tracking, write-backs, cleans, device accesses, failures and DEAD ports
(R81, R210, R220, R255, R364-R370). -/
namespace Sys2Proof.Machine

/-- The record flags of a far error on a line: STREAM_REGION for a line of a stream region (R391). -/
def farFlags (s : State) (l : LineNo) : Nat := match s.cover l with | some (_, e) => if Rg.smode e = 0 then 0 else 4 | none => 0
/-- Log a failed far read (R368): 0 error completion, 1 timeout, 2 DEAD at issue; for a stream region the region index follows (R391; its
place is DEDUCED, log 74). -/
def logFarRead (r : FarReq) (code flags : Nat) (s : State) : State :=
  let fl := farFlags s r.line
  logErr 0x0021 1 2 r.port (flags + fl) r.line.toNat (code + (if fl = 0 then 0 else 256 * s.regionIx r.line)) (cntErr 9 1 s)
/-- Log a far read that returned poison (R273, R368). -/
def logFarPoison (r : FarReq) (flags : Nat) (s : State) : State :=
  poisonDur r.line (logErr 0x0020 2 2 r.port (flags + farFlags s r.line) r.line.toNat (s.regionIx r.line) (cntErr 8 1 s))
/-- The next waiting far write of a line is issued once no earlier one is outstanding (R220); at a DEAD port it fails at issue (R255). -/
def farRelease (port : Nat) (fline : LineNo) (s : State) : State :=
  if s.links.reqs.any (fun r => r.write && r.port = port && r.fline = fline) then s
  else match s.links.waitq.find? (fun r => r.port = port && r.fline = fline) with
    | some r =>
      let r := { r with atIssue := (s.farP port).dead }
      cxlOut r { s with links.waitq := s.links.waitq.filter (fun q => q.id ≠ r.id), links.reqs := s.links.reqs ++ [r] }
    | none => s
/-- A line's dirty flag clears when far memory has the data, or the poison, that the way holds (R64, R87, R369); a way that does not decode
is known by its check entry. -/
def clearDirty (l : LineNo) (d : Line) (psn : Bool) (s : State) : State :=
  match s.resident l with
  | some (set, w) =>
    let te := teOf (s.curTb set) w
    if bit te 12 && (if bit te 10 then psn else !psn && (match s.readLine set w [] with | some (c, _) => c = d | none => NMap.get 0 s.cache.check (set * 16 + w) = lineCheck d te)) then putTe set w (te &&& ~~~(0x1000 : BitVec 32)) s else s
  | none => s

/-- A failed far write's line is written once more, as poison, where it was written to (R369, R479). -/
def farAgain (port : Nat) (fline l : LineNo) (d : Line) (purp : FP) (s : State) : State :=
  (farSend port fline.toNat l true d fullMask true purp (monSys 0x0F 1 (attrLine l) s)).1
/-- What a failed far write does to the copies of its line (R369, points 1 and 2). A durable line is written once more at once, as poison
(DEDUCED, log 44). -/
def farFix (port : Nat) (fline l : LineNo) (s : State) : State :=
  let dead := (s.farP port).dead
  let s := poisonDur l s
  match s.resident l with
    | some (set, w) =>
      let te := teOf (s.curTb set) w
      if bit te 10 then putTe set w (te &&& ~~~(0x1000 : BitVec 32)) s
      else if dead then putTe set w ((te &&& ~~~(0x1000 : BitVec 32)) ||| 0x400) s
      else
        let s := putTe set w (te ||| 0x1400) s
        if bit te 11 then farAgain port fline l (s.psnData set w) (.clean set w) (bursts (if s.held l then 0 else 3) 3 l s) else s
    | none =>
      if dead then s else farAgain port fline l (Config.lostLine s.nextId) .poison s
/-- The far write is that of a transaction, or what the transaction does to its line: of its write-buffer line, or of the clean that its walk's visit
waits for. -/
def Txn.sent (t : Txn) (r : FarReq) : Bool := match r.purp with | .wbWrite b => t.wb = some b | .clean _ _ => t.kind = .walk | _ => false
/-- A far write of line data failed (R369): the lost writes, the log, and the copies, these under the transaction whose write it is, or else behind
those that have the line open (R389). -/
def farWriteFailed (r : FarReq) (code : Nat) (lost : List Nat) (device : Bool) (s : State) : State :=
  let s := logErr 0x0022 3 2 r.port 0 r.line.toNat (code + 256 * lost.length) (cntErr 9 1 s)
  let s := lost.foldl (fun s id => wrLose id 1 s) s
  let sl := homeSlice r.line
  if device then s
  else if (s.slice sl).isOpen r.line && !(s.slice sl).tt.any (fun t => t.line = r.line && t.sent r) then
    s.updSlice sl (fun h => { h with jobs := h.jobs ++ [.farFail r.port r.fline r.line] })
  else farFix r.port r.fline r.line s
/-- A walk that invalidates what it visits (R94, R95, R98, R382). -/
def Walk.invs (k : Walk) : Bool := decide (k.op ≠ 0x22) && decide (k.op ≠ 0x24)
/-- Change a walk. -/
def updWalk (cmd : Nat) (f : Walk → Walk) (s : State) : State := { s with cache.walks := s.cache.walks.map (fun k => if k.cmd = cmd then f k else k) }
/-- A far write of a walk has ended: counted where it had no error (R97, R98). -/
def walkCount (r : FarReq) (ok : Bool) (s : State) : State :=
  { s with cache.walks := s.cache.walks.map (fun j => if j.outs.contains r.id then { j with outs := j.outs.erase r.id, cleaned := j.cleaned + b2n ok } else j) }
/-- The visit of a walk's line ends (R98, R525): the line, no longer dirty, is invalidated where the walk does so, and the visit's transaction
closes when the memory controller has accepted the tag block (R72). -/
def visitEnd (k : Walk) (set w : Nat) (l : LineNo) (s : State) : State :=
  let sl := homeSlice l
  let te := teOf (s.curTb set) w
  let mine := bit te 13 && s.wayLine set w = l
  match (s.slice sl).tt.find? (fun t => t.line = l && t.kind = .walk && t.walk = some k.cmd) with
  | none => if mine && k.invs && !bit te 12 then dropWay l set w s else s
  | some t =>
    let s := if mine && k.invs && !bit te 12 then owe sl t.id set (invWay l set w s) else owe sl t.id set s
    run sl t.id (updTxn sl t.id (fun u => { u with ph := .mcWrite }) s)
/-- A walk learns how a clean it issued has ended (R98, R525): the visit ends, or the line, still dirty after its first clean, is to be cleaned once
more. -/
def walkFar (r : FarReq) (ok : Bool) (set w : Nat) (s : State) : State :=
  match s.cache.walks.find? (fun k => k.outs.contains r.id) with
  | none => s
  | some k =>
    let s := walkCount r ok s
    if !ok && bit (teOf (s.curTb set) w) 12 && s.wayLine set w = r.line && k.op ≠ 0x24 && !k.retried.contains (set, w) then
      updWalk k.cmd (fun j => { j with again := j.again ++ [(set, w)] }) s
    else visitEnd k set w r.line (updWalk k.cmd (fun j => { j with retried := j.retried.erase (set, w) }) s)

/-- The write-buffer line's far write has ended (R241, R247). -/
def wbDone (sl : Nat) (b : WbLine) (r : FarReq) (ok : Bool) (code : Nat) (s : State) : State :=
  let s := if ok then
      let held := fun (s : State) => match s.resident r.line with | some (set, w) => bit (teOf (s.curTb set) w) 12 | none => false
      let was := held s
      let s := clearDirty r.line r.data r.psn s
      let s := if was && !held s then bursts 0 3 r.line s else s
      b.writes.foldl (fun s id => let s := wrPoint id 2 s
        if r.psn then s else match s.wrOf id with | some w => if w.dur then wrPoint id 3 s else s | none => s) s
    else farWriteFailed r code (b.writes.filter (fun id => (s.wrOf id).isSome)) false s
  kick sl (wbFree sl b.id s)

/-- Step 3 of R51: the bit is written through, with the bits of the bitmap line that other first writes are setting; a bitmap line that has left
the chip is read again first. -/
def ztWriteBit (t : Txn) (s : State) : State :=
  let e := s.regOf t
  let zl := ztLine e t.line
  match s.cache.bitmap.find? (fun b => b.1 = zl) with
  | none => farRead t (.bitmapRead t.id) zl s
  | some b =>
    let old := (s.links.reqs ++ s.links.waitq).foldl (fun (a : Line) r => match r.purp with | .ztBit _ => if r.line = zl then a ||| r.data else a | _ => a) b.2
    (farWrite zl (old ||| BitVec.ofNat 1024 (2 ^ ((t.line.toNat - Rg.base e) / 32 % 1024))) fullMask false (.ztBit t.id) s).1
/-- Step 2 of R51: a zero line of the granule is written; after the last, the bit. -/
def ztZeroDone (sl : Nat) (t : Txn) (s : State) : State :=
  let n := t.left - 1
  let s := updTxn sl t.id (fun u => { u with left := n }) s
  if n ≠ 0 then s else ztWriteBit t s
/-- Step 4 of R51: the bit stands on chip and the held write goes on, on top of the zeros the granule has read as. -/
def ztBitDone (sl : Nat) (t : Txn) (r : FarReq) (s : State) : State :=
  let s := ztPut r.line r.data s
  let s := match t.wb with
    | some b => updWb sl b (fun x => { x with data := mergeLine 0 x.data x.mask, mask := fullMask }) s
    | none => s
  kickAll (run sl t.id (updTxn sl t.id (fun u => { u with ph := .tagBlock }) s))
/-- A held write whose bitmap steps failed is lost (log 30). -/
def ztFailed (sl : Nat) (t : Txn) (s : State) : State :=
  match t.wb.bind (s.wbOf sl) with
  | some b =>
    let s := b.writes.foldl (fun s id => wrLose id 1 s) s
    kickAll (closeTxn sl t (wbFree sl b.id s))
  | none => s
/-- A read whose data could not be had is answered with poison and allocates nothing (R368). -/
def readPoisoned (sl : Nat) (t : Txn) (s : State) : State :=
  let t := { t with far := false, noFill := true, reserved := false, way := none, ev := none }
  let s := updTxn sl t.id (fun _ => t) (s.updSlice sl (fun h => { h with vbWait := h.vbWait.erase t.id }))
  run sl t.id (serve sl t (Config.lostLine t.id) true s).1

/-- A far read of line data for a transaction ends (R78, R81, R118, R121, R368). -/
def fillDone (sl : Nat) (t : Txn) (r : FarReq) (o : Nat ⊕ (Line × Bool)) (s : State) : State :=
  match t.kind, o with
  | .nextLine, .inl c => kick sl (closeTxn sl t (logFarRead r c 2 s))
  | .nextLine, .inr (d, p) =>
    let s := if p then logFarPoison r 2 s else s
    run sl t.id (updTxn sl t.id (fun u => { u with far := false, dat := some (d, p) }) s)
  | .stream, .inr (d, false) =>
    let s := s.updSlice sl (fun h => { h with sb := h.sb ++ [⟨t.line, d, 0, false, s.cache.sbClk⟩] })
    kick sl (closeTxn sl t { s with cache.sbClk := s.cache.sbClk + 1 })
  | .stream, _ => kick sl (closeTxn sl t (cntPf 5 1 s))
  | _, .inl c => readPoisoned sl t (logFarRead r c 0 s)
  | _, .inr (d, p) =>
    let s := if p then logFarPoison r 0 s else s
    let (g, gp) := overBuffered s t.line d p
    let u := { t with far := false, forceD := !(wbOn s t.line).isEmpty }
    let s := grantData sl u g gp (updTxn sl t.id (fun _ => u) s)
    run sl t.id (updTxn sl t.id (fun u => { u with dat := some (g, gp) }) s)
/-- The far read beneath a partial write ends (R85, R368): the line is whole, poisoned where the read failed, and a way is chosen. -/
def mergeDone (sl : Nat) (b : WbLine) (r : FarReq) (o : Nat ⊕ (Line × Bool)) (s : State) : State :=
  let (s, base, p) : State × Line × Bool := match o with
    | .inl c => (logFarRead r c 0 s, Config.lostLine r.id, true)
    | .inr (d, true) => (logFarPoison r 0 s, d, true)
    | .inr (d, false) => (s, d, false)
  let (base, p) := overLines ((wbOn s b.line).filter (fun x => x.id ≠ b.id)) base p
  let s := updWb sl b.id (fun x => { x with data := mergeLine base x.data x.mask, mask := fullMask, psn := x.psn || p }) s
  let s := if p && b.dur then b.writes.foldl (fun s id => wrLose id 2 s) s else s
  match (s.slice sl).tt.find? (fun t => t.wb = some b.id) with
  | some t =>
    let s := updTxn sl t.id (fun u => { u with forceD := match o with | .inl _ => true | _ => u.forceD }) s
    let el := eligible s (s.setOf t.line) (s.partNow t) false
    if !mayAlloc s t then run sl t.id (updTxn sl t.id (fun u => { u with ph := .tagBlock, far := false }) s)
    else if el = 0 then updTxn sl t.id (fun u => { u with ph := .noWay, far := false }) s
    else run sl t.id (askVictim sl t el (updTxn sl t.id (fun u => { u with ph := .victim, far := false }) s))
  | none => s
/-- A device read ends (R199). -/
def devReadDone (sl : Nat) (t : Txn) (o : Nat ⊕ (Line × Bool)) (s : State) : State :=
  let (d, p) : Line × Bool := match o with | .inl _ => (Config.lostLine t.id, true) | .inr x => x
  let s := grantData sl t d p s
  match s.txn sl t.id with
  | some t => kick sl (closeTxn sl t s)
  | none => s
/-- A device write ends (R199, R241, R250, R369): Comp says DEV_ERROR where it failed. -/
def devWriteDone (sl : Nat) (t : Txn) (r : FarReq) (ok : Bool) (code : Nat) (s : State) : State :=
  match t.wb.bind (s.wbOf sl) with
  | some b =>
    let s := if ok then b.writes.foldl (fun s id => wrPoint id 2 (wrPoint id 1 s)) s
      else farWriteFailed r code b.writes true (b.writes.foldl (fun s id => sendComp id 2 s) s)
    kick sl (closeTxn sl t (wbFree sl b.id s))
  | none => s

/-- A read ended: what its purpose does with it. -/
def farReadEnd (r : FarReq) (o : Nat ⊕ (Line × Bool)) (s : State) : State :=
  let sl := homeSlice r.line
  let on := fun (sl id : Nat) (f : Txn → State → State) => match s.txn sl id with | some t => f t s | none => s
  match r.purp with
  | .fill id => on sl id (fun t s => if t.far then fillDone sl t r o s else s)
  | .merge b => (match s.wbOf sl b with | some b => mergeDone sl b r o s | none => s)
  | .bitmapRead id =>
    match (List.range 8).find? (fun k => (s.txn k id).isSome) with
    | none => s
    | some k => on k id (fun t s => match o with
      | .inr (d, false) => if t.ph = .ztFill then ztWriteBit t (ztPut r.line d s) else run k id (updTxn k id (fun u => { u with ph := .tagBlock }) (ztPut r.line d s))
      | .inr (_, true) => if t.wb.isSome then ztFailed k t (logFarPoison r 0 s) else readPoisoned k t (logFarPoison r 0 s)
      | .inl c => if t.wb.isSome then ztFailed k t (logFarRead r c 0 s) else readPoisoned k t (logFarRead r c 0 s))
  | .devRead id => on sl id (fun t s => devReadDone sl t o (match o with | .inl c => logFarRead r c 0 s | .inr (_, p) => if p then logFarPoison r 0 s else s))
  | _ => s
/-- The slice and transaction of a purpose's identifier. -/
def txnAny (s : State) (id : Nat) : Option (Nat × Txn) :=
  match (List.range 8).find? (fun k => (s.txn k id).isSome) with
  | some k => (s.txn k id).map (fun t => (k, t))
  | none => none
/-- A write ended, without error or with a failure code: what its purpose does with it. -/
def farWriteEnd (r : FarReq) (ok : Bool) (code : Nat) (s : State) : State :=
  let sl := homeSlice r.line
  let s := if ok && s.drain.step = 4 then { s with ao.rep.flushed := s.ao.rep.flushed + BitVec.ofNat 64 (ones r.mask) } else s
  let s := { s with drain.extraOut := s.drain.extraOut.erase r.id }
  match r.purp with
  | .wbWrite b => walkCount r ok (match s.wbOf sl b with | some b => wbDone sl b r ok code s | none => if ok then s else farWriteFailed r code [] false s)
  | .clean set w =>
    walkFar r ok set w (if ok then clearDirty r.line r.data r.psn s else farWriteFailed r code [] false s)
  | .victim k => kick k ((if ok then s else farWriteFailed r code [] false s).updSlice k (fun h => { h with vb := h.vb.filter (fun v => v.line ≠ r.line) }))
  | .ztZero id =>
    let s := if ok then s else farWriteFailed r code [] false s
    (match txnAny s id with | some (k, t) => ztZeroDone k t s | none => s)
  | .ztBit id =>
    (match txnAny s id with
      | some (k, t) => if ok then ztBitDone k t r s else ztFailed k t (farWriteFailed r code [] false s)
      | none => s)
  | .devWrite id => (match s.txn sl id with | some t => devWriteDone sl t r ok code s | none => s)
  | .poison => s
  | .ztInit => if ok then s else farWriteFailed r code [] false s
  | .mirror i => if ok then s else (errForm 0x0042 1 5 0 0 i 0 s).1
  | .slot i => if ok then s else { s with str.items := s.str.items.map (fun it =>
      if it.placed && it.idx = i then (if code = 0 then { it with lost := true } else { it with waitDead := true }) else it) }
  | _ => s
/-- An armed injection takes the far access as poisoned or failed (R398). -/
def injRead (r : FarReq) (o : Nat ⊕ (Line × Bool)) (s : State) : (Nat ⊕ (Line × Bool)) × State :=
  match injHit [4] (fun x => nbits x 39 0 = r.line.toNat) s with
  | some _ => (.inr (match o with | .inr (d, _) => d | .inl _ => Config.lostLine r.id, true), { s with err.inj := none })
  | none => (o, s)
/-- A far return enters its slice (R486, R487). -/
def capFarEnd (r : FarReq) (o : Nat ⊕ (Line × Bool)) (s : State) : State :=
  let own := match r.purp with | .headTable => false | .mirror _ => false | .ztInit => false | .slot _ => false | _ => true
  if !own || !s.recording then s
  else
    let st := match o with | .inl 1 => 5 | .inl _ => 4 | .inr (_, p) => if p && !r.write then 3 else 0
    capIn (12 + r.port) (homeSlice r.line) (intDesc (if r.write then 0xC7 else 0xC6) r.line.toNat (ttTag s (homeSlice r.line) r.line) r.port) st
      (match o with | .inr (d, false) => if r.write then [] else wordBytes 128 d | _ => []) s
/-- A far write has been done: its bytes lie on top of what a read of its line already outstanding returns (R243). -/
def farCarry (w : FarReq) (s : State) : State :=
  { s with links.reqs := s.links.reqs.map (fun r =>
    if !r.write && r.port = w.port && r.fline = w.fline then { r with
      data := mergeLine r.data w.data w.mask, mask := r.mask ||| w.mask
      psn := if w.mask = fullMask then w.psn else r.psn || w.psn }
    else r) }
/-- A far request ends (R210, R220): it leaves the outstanding ones, the next write of its line goes, its purpose is served. -/
def farEnd (r : FarReq) (o : Nat ⊕ (Line × Bool)) (s : State) : State :=
  let s := capFarEnd r o { s with links.reqs := s.links.reqs.filter (fun q => q.id ≠ r.id) }
  if r.write then
    let bad := (injHit [5] (fun x => nbits x 1 0 = r.port) s).isSome
    let s := if bad then { s with err.inj := none } else s
    match o with
    | .inl c => farRelease r.port r.fline (farWriteEnd r false c s)
    | .inr _ => farRelease r.port r.fline (farWriteEnd r (!bad) 0 (if bad then s else farCarry r s))
  else
    let o := match o with
      | .inr (d, p) => .inr (mergeLine d r.data r.mask, if r.mask = fullMask then r.psn else p || r.psn)
      | .inl c => .inl c
    let (o, s) := injRead r o (monSys 0x10 (s.cycle - r.cyc) (attrLine r.line) s)
    farReadEnd r o s
/-- Requests issued to a DEAD port fail at issue (R255); what they cause may fail in turn. -/
def settleFar : Nat → State → State
  | 0, s => s
  | n + 1, s =>
    match s.links.reqs.find? (fun r => r.atIssue) with
    | some r => settleFar n (farEnd r (.inl 2) s)
    | none => s
/-- A far port is DEAD (R255). -/
def farDead (p : Nat) (s : State) : State :=
  if (s.farP p).dead then s
  else recompute (postEvent 0x0201 [(0, p)] (logErr 0x0023 3 2 p 0 0 0 (s.updFar p (fun f => { f with dead := true }))))

end Sys2Proof.Machine
end

