-- ==== Sys2Proof/Machine/Lines.lean ====
section
/-! DEFINITION. Arbitration, directory reads with parity errors, and what returns from the memory controllers (03, 07, 13). -/
namespace Sys2Proof.Machine

/-- A request becomes the transaction that opens its line. -/
def admitIn (sl : Nat) (i : SliceIn) (s : State) : State :=
  let e := if i.ent ≠ 0 then i.ent else (ttPool s sl i.port (Hd.tc i.h).toNat).getD 0
  let t := { newTxn s.nextId (Hd.line i.h) .req i.port i.h i.region with wr := i.wr, take := i.take, counted := i.wr.isNone, ent := e, rdm := i.rdm }
  run sl t.id ({ s with nextId := s.nextId + 1 }.updSlice sl (fun h => { h with tt := h.tt ++ [t] }))
/-- The line is open, or requests of it wait (R74 step 2, R213). -/
def lineTaken (s : State) (sl : Nat) (l : LineNo) : Bool := (s.slice sl).isOpen l || (s.slice sl).lineQ.any (fun j => Hd.line j.h = l)
/-- The request stops at pipeline step 2: its line is taken, or no TT entry is free (R74, R213, R348). -/
def stopsAt2 (s : State) (sl : Nat) (i : SliceIn) : Bool := lineTaken s sl (Hd.line i.h) || !ttFree s sl i.port (Hd.tc i.h).toNat
/-- A request meets the line-conflict check (R74, R213, R348). -/
def arbitrate (sl : Nat) (i : SliceIn) (s : State) : State :=
  let s := monSys 1 1 (attrOf i.h) s
  if lineTaken s sl (Hd.line i.h) then
    monSys 9 1 (attrOf i.h) (s.updSlice sl (fun h => { h with lineQ := h.lineQ ++ [i] }))
  else if !ttFree s sl i.port (Hd.tc i.h).toNat then s.updSlice sl (fun h => { h with lineQ := h.lineQ ++ [{ i with needTT := true }] })
  else admitIn sl i s

/-- The REQ that a slice takes next (R75): the oldest of the next port in turn. One that would find the line-conflict queue full stays where it is
(R213). -/
def nextReq (s : State) (sl : Nat) : Option SliceIn :=
  let h := s.slice sl
  match ((List.range 12).map (fun k => (h.rr + 1 + k) % 12)).find? (fun p => h.inq.any (fun i => i.port = p)) with
  | none => none
  | some p => (h.inq.find? (fun i => i.port = p)).filter (fun i => decide (h.lineQ.length < 2048) || !stopsAt2 s sl i)

/-- A first touch is recorded (R488): `k` 0 a cache set, 1 a directory set, 2 a tag-block cache set. -/
def touch (k sl n unit : Nat) (body : List Byte) (chip : Bool) (s : State) : State :=
  if s.rec_.touched.contains (k, sl, n) then s
  else recCap unit sl (4 + k) 0 (wordBytes 16 (putBits (Config.touchDesc (4 + k) chip) 56 40 n) ++ body)
    { s with rec_.touched := (k, sl, n) :: s.rec_.touched }
/-- The tag-block cache set as TOUCH_TBC carries it: its entries in order of set number, their LRU ranks, VALID and REPL_PENDING (R486; log 38). -/
def tbcBody (h : Slice) (ix : Nat) : List Byte :=
  let es := (h.tbc.filter (fun e => e.2.valid && e.1 / 8 % 4096 = ix)).take 16
  let at_ := fun (i : Nat) => (es[i]?).getD (0, TbcEnt.init)
  let rank := fun (i : Nat) => (es.filter (fun e => e.2.used < (at_ i).2.used)).length
  ((List.range 16).map (fun i => leBytes 4 (at_ i).1)).flatten ++
    leBytes 8 ((List.range 16).map (fun i => rank i % 16 * 16 ^ i)).sum ++ leBytes 2 (2 ^ es.length - 1) ++
    leBytes 2 ((List.range 16).map (fun i => b2n (at_ i).2.replDirty * 2 ^ i)).sum ++ List.replicate 20 0
/-- What a lookup that reads its sets records first (R484, R488): the first touches of them. -/
def capTouch (sl unit : Nat) (l : LineNo) (s : State) : State :=
  if !s.recording then s
  else
    let set := s.setOf l
    let h := s.slice sl
    let ds := dset l
    let ents := (List.range 16).map (fun w => NMap.get 0 h.dir (ds * 16 + w))
    let s := if !s.cache.enabled || !s.setUsable l then s
      else
        let chip := (s.tbcOf set).valid
        touch 2 sl (set / 8 % 4096) unit (tbcBody h (set / 8 % 4096)) true
          (touch 0 sl set unit (if chip then wordBytes 128 (s.curTb set) else []) chip s)
    touch 1 sl ds unit ((ents.map (wordBytes 8)).flatten ++ wordBytes 8 (ents.foldl (· ^^^ ·) 0) ++ List.replicate 8 0) true s
/-- An RSP or DAT message of an agent enters its slice: an eviction reads its line's directory set, whose first touch comes before it (R484, R488). -/
def capAns (p : Nat) (h mask : Slot) (d : Line) (s : State) : State :=
  let op := Hd.op h
  capMsg p h mask d (if op = 0x65 || op = 0x89 || op = 0x8A then capTouch (homeSlice (Hd.line h)) p (Hd.line h) s else s)
/-- DTAG bits lying in failing bytes of an entry: bytes 5 (6 bits), 6 and 7 (R374). -/
def badBits (b : Byte) : Nat := (if bit b 5 then 6 else 0) + (if bit b 6 then 8 else 0) + (if bit b 7 then 8 else 0)
/-- The DTAG bits (of 22) that a failing byte holds. -/
def badMask (b : Byte) : Nat := (if bit b 5 then 0x3F else 0) + (if bit b 6 then 0x3FC0 else 0) + (if bit b 7 then 0x3FC000 else 0)
/-- The 2^b candidate tags that agree with the trusted bits (R374). -/
def candTags (tag mask : Nat) : List Nat :=
  (List.range 22).foldl (fun l i => if mask.testBit i then l ++ l.map (fun x => x + 2 ^ i) else l) [tag &&& (2 ^ 22 - 1 - mask)]
/-- Parity errors of a set together, each entry's once. -/
def joinFaults (a b : DirFault) : DirFault := ⟨a.bad ++ b.bad.filter (fun x => !a.bad.any (fun y => y.1 = x.1)), a.xorBad || b.xorBad⟩
/-- Parity errors stand in the directory set of a line, for its next read (R362, R373). -/
def dirUpset (l : LineNo) (f : DirFault) (s : State) : State :=
  if f.bad.isEmpty && !f.xorBad then s
  else s.updSlice (homeSlice l) (fun h => { h with dirErr := NMap.upd ⟨[], false⟩ h.dirErr (dset l) (fun g => joinFaults g f) })
/-- A directory set read with parity errors (R373): one failing entry is rebuilt from the XOR word; any other pattern leaves the failing
entries unresolved, held invalid and recalled candidate by candidate (R374). -/
def dirRead (sl ds : Nat) (f : DirFault) (s : State) : State :=
  let f := joinFaults (NMap.get ⟨[], false⟩ (s.slice sl).dirErr ds) f
  let s := s.updSlice sl (fun h => { h with dirErr := NMap.erase h.dirErr ds })
  let (bad, s) := match injHit [3] (fun o => nbits o 15 0 = ds && nbits o 18 16 = sl) s with
    | some _ =>
      let o := match s.err.inj with | some i => i.opnd | none => 0
      let w := nbits o 27 24
      (f.bad ++ (List.range (nbits o 21 20)).map (fun k => (BitVec.ofNat 4 (w + k), (0x80 : Byte))), { s with err.inj := none })
    | none => (f.bad, s)
  let bad := bad.filter (fun b => b.2 ≠ 0)
  match bad with
  | [] => s
  | [(w, _)] =>
    if !f.xorBad then logErr 0x0010 0 0 sl 0 ds w.toNat (cntErr 4 1 s)
    else bad.foldl (fun s b => unresolved sl ds b s) s
  | _ => bad.foldl (fun s b => unresolved sl ds b s) s
where
  /-- Hold an entry unresolved with its candidates (R374). -/
  unresolved (sl ds : Nat) (b : BitVec 4 × Byte) (s : State) : State :=
    let w := b.1.toNat
    let v := NMap.get 0 (s.slice sl).dir (ds * 16 + w)
    let s := s.updSlice sl (fun h => { h with dir := NMap.set 0 h.dir (ds * 16 + w) 0 })
    let others := (List.range 16).filterMap (fun k =>
      let x := NMap.get 0 (s.slice sl).dir (ds * 16 + k)
      if k ≠ w && x ≠ 0 then some (nbits x 63 42) else none)
    let cands := (candTags (nbits v 63 42) (badMask b.2)).filter (fun t => !others.contains t)
    s.updSlice sl (fun h => { h with dirBad := h.dirBad ++ [⟨ds, w, cands.map (dirLine sl ds), badBits b.2, 0⟩] })
/-- The directory set of a line is read by another access than a request's lookup (R362, R373, R398), its first touch recorded (R488). -/
def dirMeet (unit : Nat) (l : LineNo) (s : State) : State := dirRead (homeSlice l) (dset l) ⟨[], false⟩ (capTouch (homeSlice l) unit l s)
/-- A set's tag block is lost (R371 steps 1 and 3): lookups wait; tracked offsets on the set that have data and are not persisted become BAD. -/
def setLost (set : Nat) (s : State) : State :=
  let s := countUe set (cntErr 3 1 s)
  s.updSlice (set % 8) (fun h => { h with
    lostSets := if h.lostSets.contains set then h.lostSets else h.lostSets ++ [set], tbc := NMap.erase h.tbc set
    lostAt := if h.lostSets.contains set then h.lostAt else NMap.set 0 h.lostAt set s.ao.time })
/-- Offsets that a set loss marks (R371 step 3). -/
def lostOffs (s : State) (set : Nat) : List (Nat × Nat) :=
  s.str.ctx.flatMap (fun c => if c.2.state = 0 then [] else
    (c.2.st.filter (fun o => o.2.got && !o.2.pers && !o.2.bad && s.setOf (c.2.lineOfOff o.1) = set)).map (fun o => (c.1, o.1)))

/-- The patrol's read of a way that still holds a line (R377, R378). -/
def patrolWay (set w : Nat) (l : LineNo) (e : ErrPat) (s : State) : State :=
  if bit s.cache.ways w && bit (teOf (s.curTb set) w) 13 && s.wayLine set w = l && !s.retired set && !(s.slice (set % 8)).lostSets.contains set then
    (lineOutcome set w l (s.readLine set w e) (burstsNow 3 set w l (decStat (s.readLine set w e)) s)).2
  else s
/-- A tag block as fetched comes on chip, or the set is lost (R69, R71, R76, R362, R371): the row as the fetch was issued, with what the hub has
written to it since. A correction is owed by the transaction that fetched (R72, R379). -/
def tagTake (sl set txn : Nat) (raw : TagBlock) (e : ErrPat) (s : State) : State :=
  match tbDecode raw e with
  | some (b, n) =>
    if !fmtOk b then setLost set s
    else
      let s := tbcInstall sl set (if s.rowTb set = raw then b else s.sentTb set) s
      if n = 0 then s
      else owe sl txn set (bursts 0 2 (((s.txn sl txn).map (fun t => t.line)).getD (s.wayLine set 0)) (countCe set n (logErr 0x0005 0 0 (set % 8) 0 set n (cntErr 2 1 s))))
  | none => setLost set s
/-- A tag-block fetch returns: what it brings, and the lookups that wait for it. -/
def tagReturn (m : McReq) (e : ErrPat) (s : State) : State :=
  let s := tagTake m.sl m.set m.txn m.raw e s
  if (s.tbcOf m.set).valid then ((s.slice m.sl).tt.filter (fun t => (t.ph = .tagBlock || t.ph = .promote) && s.setOf t.line = m.set)).foldl (fun s t => run m.sl t.id s) s else s
/-- The tag block of a set for a lookup that does not wait for a fetch, with its two read bursts where it is not on chip (R71, R77). -/
def tagNow (sl set : Nat) (l : LineNo) (s : State) : State :=
  if (s.tbcOf set).valid then s else tagTake sl set 0 (s.rowTb set) [] (burstsNow 2 set 14 l (decStat (tbDecode (s.rowTb set) [])) (monSys 6 1 (attrLine l) s))
/-- A line read returns (R364): merged under a partial write, or served to a reader, PF and OFR cleared by a demand. -/
def lineReturn (sl : Nat) (t : Txn) (w : Nat) (r : Option (Line × Nat)) (s : State) : State :=
  let set := s.setOf t.line
  let (o, s) := lineOutcome set w t.line r s
  if t.homeward then kick sl (homeAnswer sl { t with dat := o, way := none } s)
  else match o with
  | none => run sl t.id (updTxn sl t.id (fun u => { u with ph := .tagBlock, way := none }) s)
  | some (d, psn) =>
    match t.wb.bind (s.wbOf sl) with
    | some b =>
      let (d, psn) := overLines ((wbOn s t.line).filter (fun x => x.id ≠ b.id)) d psn
      let b' := { b with data := mergeLine d b.data b.mask, mask := fullMask, psn := psn || b.psn }
      let s := if psn && b.dur then b.writes.foldl (fun s id => wrLose id 2 s) s else s
      installLine sl t w b'.data b'.psn true (updWb sl b.id (fun _ => b') s)
    | none =>
      let s := if t.kind = .req then hitClear sl t.id t.line set w s else s
      match s.txn sl t.id with
      | some t =>
        let (s, _) := serve sl { t with way := none } d psn s
        run sl t.id (updTxn sl t.id (fun u => { u with way := none }) s)
      | none => s
/-- What a read of McReq decodes to (R67, R76): the slot as the read was issued. -/
def McReq.decoded (m : McReq) (e : ErrPat) : Option (Line × Nat) := lineDecode m.raw m.te m.chk e
/-- The read of a dirty victim returns (R82, R364, R379): its data, or its poison, goes to far memory from the victim buffer; a corrected or held line
is written back to its slots first. The transaction whose fill or write takes the way then goes on, and owes the acceptance of what the read has
changed in the row (R72). -/
def victReturn (m : McReq) (l : LineNo) (w : Nat) (e : ErrPat) (s : State) : State :=
  let sl := m.sl
  match (s.slice sl).vb.find? (fun v => v.line = l && !v.ready) with
  | none => s
  | some v =>
    let held := s.heldWb l
    let (d, psn, s) : Line × Bool × State := match m.decoded e with
      | some (d, n) => (d, bit m.te 10, if n = 0 then s else
          owe sl m.txn m.set (bursts 0 5 l (countCe m.set n (writeSlot m.set w m.te d (logErr 0x0001 0 0 (m.set % 8) 0 l.toNat n (cntErr 0 1 s))))))
      | none =>
        let s := countUe m.set (cntErr 1 1 s)
        let lost := (Config.lostLine s.nextId, true, { s with nextId := s.nextId + 1 })
        if bit m.te 10 then lost
        else match held with
          | some b => (b.data, false, bursts 0 3 l (writeSlot m.set w m.te b.data (logErr 0x0003 1 0 (m.set % 8) 0 l.toNat w s)))
          | none => (lost.1, lost.2.1, logErr 0x0004 2 0 (m.set % 8) 0 l.toNat w lost.2.2)
    let p := psn || v.psn
    let s := s.updSlice sl (fun h => { h with vb := h.vb.map (fun (x : VbLine) => if x.line = l then { x with data := d, psn := p, ready := true } else x) })
    let s := (farWrite l d fullMask p (.victim sl) s).1
    run sl m.txn (kick sl (updTxn sl m.txn (fun u => if u.ph = .vict then { u with ph := .vbFull } else u) s))

end Sys2Proof.Machine
end

