-- ==== Sys2Proof/Machine/Seal.lean ====
section
/-! DEFINITION. The seal engines and the seal log: records, their formation, signature, placement and persistence, and what waits on them
(R280, R288, R296-R307, R313). -/
namespace Sys2Proof.Machine

/-- KEY_STATE's STATE (R315). -/
def State.keySt (s : State) : Nat := nbits s.keyState 1 0
/-- The module can sign: READY, the keys on chip, no error state, no zeroisation in progress (R300, R317, R320). -/
def canSign (s : State) : Bool := decide (s.keySt = 2) && !s.keys.wiped && !s.keys.errState && (s.running 0x58).isNone
/-- RING_SLOTS of the bound log; 0 while none is bound (R305). -/
def ringSlots (s : State) : Nat := match s.str.log with | some r => (Rg.size (s.region r) - 131072) / 2 | none => 0
/-- OPEN and CLOSING streams (R307). -/
def openStreams (s : State) : Nat := (s.str.ctx.filter (fun e => e.2.state ≠ 0)).length
/-- Free slots (R307). -/
def freeSlots (s : State) : Nat := ringSlots s - (s.str.logWrite - s.str.logRead)
/-- LOG_PERSISTED (R306). -/
def logPersisted (s : State) : Nat := s.str.unpersisted.foldl min s.str.logWrite
/-- First line of the slot of an index (R305). -/
def slotLine (s : State) (r n : Nat) : LineNo := BitVec.ofNat 40 (Rg.base (s.region r) + 131072 + 2 * (n % ringSlots s))
/-- The far port of a line is DEAD. -/
def deadAt (s : State) (l : LineNo) : Bool := (s.farP (s.farOf l).1).dead
/-- A seal point arises (R297): FLAGS bits that become pending. -/
def sealPoint (sid flags : Nat) (s : State) : State := s.updCtx sid (fun c => { c with pendF := c.pendF ||| BitVec.ofNat 16 flags })
/-- The gap fill block of an offset (R304). -/
def fillBlock (sid seq n : Nat) : List Byte := block 128 [(0, 8, 0xD7319E241C5B6A0F), (8, 6, n), (16, 4, sid), (20, 4, seq)]
/-- Absorb the fill blocks of `k` offsets from n on. -/
def absorbFill (sid seq : Nat) : Nat → Nat → List (BitVec 64) → List (BitVec 64)
  | 0, _, h => h
  | k + 1, n, h => absorbFill sid seq k (n + 1) (shaBlock h (fillBlock sid seq n))
/-- Bytes as a word, byte 0 in the low bits. -/
def packBytes (l : List Byte) : Nat := leNat l
/-- TAIL_DROPPED (R288): the offset WATERMARK has received writes without becoming DONE. -/
def tailDropped (c : Ctx) : Bool := (c.off c.wm).got && !(c.off c.wm).done
/-- A record is to be signed (R300): every K-th, and a close record. -/
def wantsSign (c : Ctx) (flags : BitVec 16) : Bool :=
  (decide (c.signK ≠ 0) && decide (c.nextSeq.toNat % 2 ^ (c.signK.toNat - 1) = 0)) || bit flags 6
/-- A record's 160 signed bytes with zeros for the signature (R301, R302): `m` blocks absorbed, `delta` HASHED_DELTA. -/
def recordBytes (s : State) (sid : Nat) (c : Ctx) (flags m : Nat) (sha : List (BitVec 64)) (gapCount delta : Nat) : BitVec 2048 :=
  pack 2048 [(0, 0x5EA10D57), (4, 1), (6, flags), (8, sid), (12, c.nextSeq.toNat), (16, c.nextFirst), (22, if m = 0 then 2 ^ 48 - 1 else m - 1), (28, c.wm),
    (34, s.keys.serial.toNat), (36, s.ao.bootCount.toNat), (40, packBytes (shaFinish sha m)), (88, c.prev.toNat), (136, s.ao.time.toNat),
    (144, s.ao.anchor.toNat), (152, gapCount), (157, delta)]

/-- Write one line of an item's slot (R306): `k` 0 its lower 128 bytes, 1 its upper. -/
def slotHalf (r k : Nat) (it : LogItem) (s : State) : State :=
  let l := slotLine s r it.idx + BitVec.ofNat 40 k
  (farSend (s.farOf l).1 (s.farOf l).2 l true (bits it.bytes (1024 * k + 1023) (1024 * k) |>.setWidth 1024) fullMask false (.slot it.idx) s).1
/-- The two far writes of a slot (R301, R306); none goes to a DEAD port. -/
def slotSend (r : Nat) (it : LogItem) (s : State) : State := if it.waitDead then s else slotHalf r 1 it (slotHalf r 0 it s)
/-- The waiting item becomes an entry of the log (R306): the next index; its slot write fails at issue at a DEAD port. The chain's PREV_HASH
is taken from the bytes as stored (R303). -/
def placeItem (it : LogItem) (s : State) : State :=
  match s.str.log with
  | none => s
  | some r =>
    let n := s.str.logWrite
    let u := { it with
      idx := n, placed := true, lost := false, waitDead := deadAt s (slotLine s r n), old := if it.placed then it.idx :: it.old else it.old }
    let s := { s with
      str.logWrite := n + 1, str.unpersisted := s.str.unpersisted ++ [n]
      str.items := s.str.items.map (fun x => if x = it then u else x) }
    let s := slotSend r u s
    let s := if it.stream = 0xFFFFFFFF then { s with
        ao.rep.flags := if bit it.bytes 57 then s.ao.rep.flags ||| 16 else s.ao.rep.flags } else s
    let s := if it.placed && s.drain.firstIdx = some it.idx && bit it.bytes 55 then { s with drain.firstIdx := some n } else s
    if it.own && it.stream.toNat < 2 ^ 18 then s.updCtx it.stream.toNat (fun c => { c with prev := sha384w (wordBytes 256 it.bytes) }) else s
/-- Items enter the ring in order of formation; one that awaits its signature holds those behind it (R300, R306). -/
def placeItems (s : State) : State :=
  (s.str.items.foldl (fun (a : State × Bool) it =>
    if it.placed || a.2 then a else if it.wantSig then (a.1, true) else (placeItem it a.1, false)) (s, false)).1
/-- A record, certificate or manifest joins the items. -/
def addItem (stream : Nat) (bytes : BitVec 2048) (wantSig : Bool) (s : State) : State :=
  placeItems { s with str.items := s.str.items ++ [⟨0, BitVec.ofNat 32 stream, bytes, wantSig, false, false, false, [], true, s.keys.sealPriv⟩] }
/-- Waiting signatures are abandoned (R310, R317, R320): the items are written unsigned, with NOKEY where `nokey`. -/
def abandonSigs (nokey : Bool) (s : State) : State :=
  placeItems { s with str.items := s.str.items.map (fun it =>
    if it.wantSig && !it.placed then { it with wantSig := false, key := 0, bytes := putBits (putBits it.bytes 48 1 0) 57 1 (b2n nokey) } else it) }

/-- Form a stream's record from its pending seal points (R299, R301, R304). `drain`: a drain record, never signed (R311). -/
def formRecord (sid : Nat) (drain : Bool) (s : State) : State :=
  let c := s.ctx sid
  let gap := if bit c.pendF 4 then c.gap else none
  let e := match gap with | some (n, _, _) => c.wm + n | none => 0
  let m := max c.hashed e
  let sha := absorbFill sid c.nextSeq.toNat (m - c.hashed) c.hashed c.sha
  let want := !drain && wantsSign c c.pendF
  let flags := c.pendF.toNat + b2n (tailDropped c) * 2 ^ 8 + b2n (want && !canSign s) * 2 ^ 9 + b2n (want && canSign s) +
    (match gap with | some (_, k, _) => k.toNat * 2 ^ 12 | none => 0)
  let b := recordBytes s sid c flags m sha (match gap with | some (n, _, _) => n | none => 0) (match gap with | some (_, _, h) => h - c.wm | none => 0)
  let s := { s with cp.prog := s.cp.prog.map (fun g =>
    if g.op = 0x50 && g.p.target.toNat = sid && g.stage = 1 && bit c.pendF 3 then { g with stage := 2, n := c.nextSeq.toNat } else g) }
  let s := monSys 0x15 1 ⟨none, none, none, none⟩ s
  addItem sid b (want && canSign s) (s.updCtx sid (fun c => { c with
    sha := sha, pendF := 0, inFlight := true, sealSeq := c.nextSeq, nextSeq := c.nextSeq + 1, nextFirst := m % 2 ^ 48 }))
/-- The log has room for a record of the stream (R307); a close record uses the reserved slots. -/
def logRoom (s : State) (c : Ctx) : Bool :=
  s.str.log.isSome && (decide (openStreams s + 2 < freeSlots s) || (bit c.pendF 6 && decide (0 < freeSlots s)))
/-- SEAL_LOG_LOW (R307), posted when room first fails. -/
def logLow (s : State) : State :=
  if s.str.log.isNone then s
  else if openStreams s + 2 < freeSlots s then { s with str.lowPosted := false }
  else if s.str.lowPosted then s
  else postEvent 0x0401 [(0, freeSlots s)] { s with str.lowPosted := true }

/-- HASHED takes the value n (R267, R297): STREAM_NEAR_FULL the first time it is at 2^47, a periodic seal point at a multiple of N. -/
def hashedAt (sid n : Nat) (s : State) : State :=
  let c := s.ctx sid
  let s := s.updCtx sid (fun c => { c with hashed := n, nearFull := c.nearFull || decide (2 ^ 47 ≤ n) })
  let s := if decide (2 ^ 47 ≤ n) && !c.nearFull then postEvent 0x0305 [(0, sid)] s else s
  if c.sealN ≠ 0 && n % 2 ^ (c.sealN.toNat + 5) = 0 then sealPoint sid 4 s else s
/-- Step 3 of STREAM_ACK_GAP (R280): the gap is passed; the watermark goes on with the clock's other marks (R277). -/
def gapEnd (sid : Nat) (s : State) : State :=
  match (s.ctx sid).gap with
  | none => s
  | some (n, _, _) =>
    let c := s.ctx sid
    let e := c.wm + n
    let s := s.updCtx sid (fun c => { c with wm := e, gap := none, gapPend := false })
    let s := if c.hashed < e then hashedAt sid e s else s
    match s.cp.prog.find? (fun g => g.op = 0x44 && g.p.target.toNat = sid && g.stage = 2) with
    | some g => finish g St.ok 0 s
    | none => s
/-- Disarm the notices of a stream, keeping their counts (R285, R376). -/
def disarmNotices (sid : Nat) (m : NMap Notice) : NMap Notice :=
  m.foldl (fun m e => if e.2.stream.toNat = sid then NMap.upd Notice.init m e.1 (fun n => { n with armed := false }) else m) m
/-- The result of STREAM_CLOSE (R288). -/
def closeResult (c : Ctx) : Nat := c.wm + b2n (tailDropped c) * 2 ^ 63
/-- The close record is persisted (R288): notices judged and disarmed, blocks returned, the context CLOSED with its other
fields kept. -/
def closeEnd (sid : Nat) (s : State) : State :=
  let c := s.ctx sid
  let s := fireNotices sid s
  let s := { s.updCtx sid (fun c => { c with state := 0, st := [], blocks := [], hole := none, shutCause := c.badCause, shutSplit := c.splitOpen }) with
    str.blocks := s.str.blocks - c.blocks.length, str.notices := disarmNotices sid s.str.notices }
  match s.cp.prog.find? (fun g => g.op = 0x41 && g.p.target.toNat = sid) with
  | some g => finish g St.ok (closeResult c) s
  | none => s
/-- The head-table entry of a persisted record (R305, R306). -/
def headWrite (it : LogItem) (s : State) : State :=
  match s.str.log with
  | none => s
  | some r =>
    let l := BitVec.ofNat 40 (Rg.base (s.region r) + it.stream.toNat / 2)
    let v := packBytes (sha384 (wordBytes 256 it.bytes)) + it.idx * 2 ^ 384 + nbits it.bytes 127 96 * 2 ^ 448
    let sh := 64 * (it.stream.toNat % 2)
    (farSend (s.farOf l).1 (s.farOf l).2 l true (BitVec.ofNat 1024 (v <<< (8 * sh))) (BitVec.ofNat 128 ((2 ^ 64 - 1) <<< sh)) false .headTable s).1
/-- A record is persisted (R306): its stream may form the next, and what waits on it ends. -/
def itemDone (it : LogItem) (s : State) : State :=
  let s := { s with
    str.items := s.str.items.filter (fun x => x ≠ it), str.unpersisted := s.str.unpersisted.filter (fun n => n ≠ it.idx && !it.old.contains n) }
  let s := if it.stream = 0xFFFFFFFF && s.drain.step ≠ 0 then { s with ao.rep.manifest := BitVec.ofNat 64 it.idx } else s
  if it.stream.toNat < 2 ^ 18 then
    let sid := it.stream.toNat
    let s := headWrite it s
    if !it.own then s
    else
      let s := s.updCtx sid (fun c => { c with inFlight := false })
      let s := match s.cp.prog.find? (fun g => g.op = 0x50 && g.p.target.toNat = sid && g.stage = 2) with
        | some g => finish g St.ok g.n s
        | none => s
      let s := if bit it.bytes 52 then gapEnd sid s else s
      if bit it.bytes 54 then closeEnd sid s else s
  else s
/-- A far write of the item's slot is outstanding. -/
def slotOut (s : State) (idx : Nat) : Bool := (s.links.reqs ++ s.links.waitq).any (fun r => r.purp = .slot idx)
/-- A slot write has ended (R306): persisted, or written again at a new index. -/
def slotDone (idx : Nat) (ok : Bool) (s : State) : State :=
  match s.str.items.find? (fun it => it.placed && it.idx = idx && !it.waitDead) with
  | none => s
  | some it => if ok then itemDone it s else placeItem it s
/-- Every slot both of whose lines are written (R306): persisted, or written again where a line had an error completion. -/
def slotsEnd (s : State) : State :=
  if s.mode = 4 then s else (s.str.items.filter (fun it => it.placed && !it.waitDead && !slotOut s it.idx)).foldl (fun s it => slotDone it.idx (!it.lost) s) s
/-- Writes that failed at issue go out again once their far port is no longer DEAD (R306, R370). -/
def retryDead (s : State) : State :=
  (s.str.items.filter (fun it => it.waitDead)).foldl (fun s it =>
    match s.str.log with
    | some r => if deadAt s (slotLine s r it.idx) then s else placeItem it s
    | none => s) s

/-- Accepted writes of a stream that are neither persisted nor lost (R288, R294). -/
def unpersisted (s : State) (sid : Nat) : Nat := (s.links.writes.filter (fun w => w.dur && decide (w.stream = some (BitVec.ofNat 18 sid)))).length
/-- HASHED can advance (R275). -/
def canHash (c : Ctx) : Bool :=
  decide (c.state ≠ 0) && (c.off c.hashed).done && !(c.off c.hashed).bad &&
    (match c.gap with | some (n, _, _) => decide (c.wm + n ≤ c.hashed) | none => true)
/-- The longer wait of STREAM_CLOSE for a hole is over once every accepted write has ended and a HOLE_TIMEOUT then passes (R288 step 2). -/
def closeWaited (sid : Nat) (s : State) : State :=
  if unpersisted s sid ≠ 0 then s
  else { s with cp.prog := s.cp.prog.map (fun g => if g.op = 0x41 && g.p.target.toNat = sid && g.stage = 1 then { g with m := 1 } else g) }
/-- A waiting STREAM_ACK_GAP or STREAM_CLOSE goes on as far as it can (R280 step 2, R288 steps 2 to 4). -/
def streamGo (g : Prog) (s : State) : State :=
  let sid := g.p.target.toNat
  let c := s.ctx sid
  if c.failed then finish g St.stream_state 0 s
  else if g.op = 0x44 && g.stage = 1 then
    if c.wm ≤ c.hashed then
      sealPoint sid 16 (updProg g.id (fun g => { g with stage := 2 }) (s.updCtx sid (fun c => { c with gap := some (g.n, c.badCause, c.hashed) })))
    else s
  else if g.op = 0x41 && g.stage = 1 then
    if unpersisted s sid ≠ 0 || (c.hole.isSome && decide (g.m = 0)) || canHash c then s
    else if c.gapPend || c.hashed ≠ c.wm then finish g St.stream_gap (closeResult c) s
    else sealPoint sid 64 (updProg g.id (fun g => { g with stage := 2 }) s)
  else s
/-- Every waiting stream command goes on as far as it can. -/
def streamsGo (s : State) : State := (s.cp.prog.filter (fun g => g.op = 0x44 || g.op = 0x41 || g.op = 0x50)).foldl (fun s g => streamGo g s) s

end Sys2Proof.Machine
end

