-- ==== Sys2Proof/Machine/Walk.lean ====
section
/-! DEFINITION. Walks over the system cache and the directory: what the next visit of a slice is, what a visit does, and how a walk ends
(R40, R91-R103, R224, R382, R525). -/
namespace Sys2Proof.Machine

/-- The least of the numbers at or above a bound. -/
def leastFrom (n : Nat) (l : List Nat) : Option Nat :=
  l.foldl (fun a x => if x < n then a else match a with | some y => if x < y then some x else a | none => some x) none
/-- Sets of a slice that may hold a valid line: those whose row or tag-block cache entry has been written. -/
def heldSets (s : State) (sl : Nat) : List Nat :=
  ((s.cache.tb.map (fun e => e.1)) ++ ((s.slice sl).tbc.filter (fun e => e.2.valid)).map (fun e => e.1)).filter (fun st => st % 8 = sl)
/-- Ways of a set that a walk acts on: those that hold a valid line and, for a walk that empties them, those an open fill has reserved (R95).
Passed over are retired sets, lost sets and, by the set/way commands, ways turned off (R100). -/
def waysOf (s : State) (k : Walk) (set : Nat) : List Nat :=
  let on := if k.op = 0x24 || k.op = 0x25 || k.op = 0x26 then s.cache.ways else s.hitWays
  let rv := if k.op = 0x23 || k.op = 0x74 || k.op = 0x75 || k.op = 0xF5 then (s.slice (set % 8)).resv s set else 0
  if !s.cache.enabled || s.retired set || (s.slice (set % 8)).lostSets.contains set then []
  else (List.range 14).filter (fun w => bit k.mask w && (bit on w || rv.testBit w) && (bit (teOf (s.curTb set) w) 13 || rv.testBit w))
/-- The places of the set form that a walk still visits in a slice: set x 16 + way. A set that holds no valid line has none. -/
def walkPlaces (s : State) (k : Walk) (sl : Nat) : List Nat :=
  let sets := heldSets s sl ++ (((s.slice sl).tt.filter (fun t => t.reserved)).map (fun t => s.setOf t.line)).filter (fun st => !(heldSets s sl).contains st)
  (sets.filter (s.walkHas k)).flatMap (fun st => (waysOf s k st).map (fun w => st * 16 + w))
/-- The least number of n bits at or above `lo` whose exclusive-or with `m` lies from `a` to `b`. -/
def leastXor : Nat → Nat → Nat → Nat → Nat → Option Nat
  | 0, _, _, _, _ => some 0
  | n + 1, lo, m, a, b =>
    let side := fun (t : Nat) =>
      let v := (if m.testBit n then 1 - t else t) * 2 ^ n
      let a' := max a v
      let b' := min b (v + 2 ^ n - 1)
      if b' < a' || (t + 1) * 2 ^ n ≤ lo then none else leastXor n (lo - t * 2 ^ n) m (a' - v) (b' - v)
    match side 0 with
    | some x => some x
    | none => (side 1).map (· + 2 ^ n)
/-- The line of a slice in an aligned block of eight lines, one of which each slice has (R22). -/
def blockLine (sl block : Nat) : LineNo :=
  let l := BitVec.ofNat 40 (block * 8)
  l ||| BitVec.ofNat 40 (homeSlice l ^^^ sl)
/-- Set-number width of the range form's order (R101): the population's, and with none trained that of one set to each line. -/
def State.rangeK (s : State) : Nat := (s.popK).getD 40
/-- The values of L[39:k] that a range spans: the lowest, and how many. -/
def rangeUps (s : State) (k : Walk) : Nat × Nat :=
  let u := k.first / 2 ^ s.rangeK
  (u, (k.first + k.count - 1) / 2 ^ s.rangeK - u + 1)
/-- The line at a place of the range form in a slice: places rise with the set number, and in a set with the line (R57, R101). -/
def rangeLine (s : State) (k : Walk) (sl n : Nat) : LineNo :=
  let (u0, c) := rangeUps s k
  let u := u0 + n % c
  blockLine sl (u * 2 ^ (s.rangeK - 3) + (n / c ^^^ u))
/-- The next place of the range form in a slice at or after one: every line is visited, resident or not (R103), in ascending set order (R101). -/
def rangeNext (s : State) (k : Walk) (sl from_ : Nat) : Option Nat :=
  if k.count = 0 then none
  else
    let w := s.rangeK - 3
    let (u0, c) := rangeUps s k
    let last := k.first + k.count - 1
    let lo := k.first / 8 + (if (blockLine sl (k.first / 8)).toNat < k.first then 1 else 0)
    let hi := last / 8 + 1 - (if last < (blockLine sl (last / 8)).toNat then 1 else 0)
    let next := fun (i : Nat) =>
      let u := u0 + i
      let a := max lo (u * 2 ^ w)
      let b := min hi ((u + 1) * 2 ^ w)
      if b ≤ a then none
      else (leastXor w (from_ / c + (if i < from_ % c then 1 else 0)) u (a - u * 2 ^ w) (b - 1 - u * 2 ^ w)).map (fun j => j * c + i)
    let mid := if 2 ≤ from_ % c + 1 && from_ % c + 2 ≤ c then from_ % c else 1
    ([0, mid, c - 1].filter (fun i => decide (i < c))).foldl (fun a i => match a, next i with
      | some x, some y => some (min x y)
      | none, y => y
      | x, none => x) none
/-- The next visit of a walk in a slice (R101); none once a drain has stopped it (R103). -/
def walkNext (s : State) (k : Walk) (sl : Nat) : Option Nat :=
  let from_ := NMap.get 0 k.pos sl
  if k.stop then none else if k.byset then leastFrom from_ (walkPlaces s k sl) else rangeNext s k sl from_
/-- The walk that runs: the first that is not paused (R102, R103); step 4 of REGION_CLEAR waits for the walking commands taken before it. -/
def State.walk (s : State) : Option Walk :=
  match s.cache.walks.find? (fun k => !k.paused) with
  | some k => if k.behind.any (fun t => s.cp.taken.contains t) then none else some k
  | none => none
/-- Clean the line of a way: read, poison where it must be, one far write (R98, R364). -/
def cleanWay (sl set w : Nat) (e : ErrPat) (s : State) : State × Option Nat :=
  let l := s.wayLine set w
  let r := s.readLine set w e
  let (o, s) := lineOutcome set w l r (burstsNow (if s.held l then 0 else 3) set w l (decStat r) s)
  match o with
  | some (d, psn) =>
    let (s, id) := farWrite l d fullMask psn (.clean set w) (bursts 0 3 l s)
    (s, some id)
  | none => (s, none)
/-- The visit of a walk opens its line (R101), under a transaction that waits in a phase. -/
def visitOpen (sl : Nat) (k : Walk) (l : LineNo) (w : Nat) (ph : Ph) (s : State) : State × Nat :=
  let t := { newTxn s.nextId l .walk 0 0 (s.regionIx l) with walk := some k.cmd, way := some w, ph := ph }
  ({ s with nextId := s.nextId + 1 }.updSlice sl (fun h => { h with tt := h.tt ++ [t] }), t.id)
/-- The visit of a walk invalidates a line in its way and ends with the write's acceptance (R72, R77). -/
def visitDrop (sl : Nat) (k : Walk) (l : LineNo) (set w : Nat) (s : State) : State :=
  let (s, id) := visitOpen sl k l w .mcWrite s
  owe sl id set (invWay l set w s)
/-- The effect of a walk on a resident line (R94, R95, R98, R100, R382, R525): a dirty line stays open until its clean has ended. -/
def visitWay (sl : Nat) (k : Walk) (set w : Nat) (e : ErrPat) (s : State) : State :=
  let te := teOf (s.curTb set) w
  let l := s.wayLine set w
  let s := if k.op = 0x22 then s else sbDiscard sl l s
  if k.op = 0x25 then
    if k.byset && bit te 12 && (bit te 11 || (match s.cover l with | some (_, r) => Rg.dur r | none => false)) then
      updWalk k.cmd (fun k => { k with skipped := min 0xFFFFFF (k.skipped + 1) }) s
    else visitDrop sl k l set w s
  else if bit te 12 then
    let (s, id) := cleanWay sl set w e (visitOpen sl k l w .farWrite s).1
    updWalk k.cmd (fun k => { k with outs := k.outs ++ id.toList }) s
  else if k.op = 0x22 || k.op = 0x24 then s
  else evictUp l none (visitDrop sl k l set w s)
/-- Snoops a RECALL sends for a line (R196). -/
def reclSnoops (s : State) (op : Byte) (l : LineNo) : List (Nat × Byte) :=
  let e := s.dirOf l
  if op = 0x24 then (if e.st = 3 then [(e.port, 0x40)] else [])
  else if op = 0x26 then e.list.map (fun p => (p, 0x41)) else []
/-- Open a line for a recall of its agent copies; `up` also gives a remote line up (R40, R196). -/
def reclTxn (sl : Nat) (l : LineNo) (sn : List (Nat × Byte)) (up : Bool) (s : State) : State :=
  let t := { newTxn s.nextId l .recl 0 0 (s.regionIx l) with snoops := sn, stashTo := if up then some 0 else none }
  run sl t.id ({ s with nextId := s.nextId + 1 }.updSlice sl (fun h => { h with tt := h.tt ++ [t] }))
/-- Requests on a line stand before an access of the hub's own (R213). -/
def lineBusy (s : State) (sl : Nat) (l : LineNo) : Bool :=
  let h := s.slice sl
  h.isOpen l || h.lineQ.any (fun i => Hd.line i.h = l) || (h.vbOf l).isSome
/-- A line whose first clean failed is cleaned once more, after the failed write has ended; one that is no longer dirty is done with (R525). -/
def visitAgain (sl : Nat) (k : Walk) (x : Nat × Nat) (e : ErrPat) (s : State) : State :=
  let s := updWalk k.cmd (fun k => { k with again := k.again.erase x }) s
  let te := teOf (s.curTb x.1) x.2
  if bit te 13 && bit te 12 then
    let (s, id) := cleanWay sl x.1 x.2 e s
    updWalk k.cmd (fun k => { k with outs := k.outs ++ id.toList, retried := x :: k.retried }) s
  else visitEnd k x.1 x.2 (s.wayLine x.1 x.2) s
/-- Free TT entries of a slice: evictions and recalls hold none (R74, R214, R348). -/
def ttLeft (h : Slice) : Nat := 2048 - (h.tt.filter (fun t => t.kind ≠ .evict && t.kind ≠ .recl)).length - (h.lineQ.filter (fun i => i.ent ≠ 0)).length
/-- A far write of the line's recalled data, which counts for the walk, is still under way (R97). -/
def visitOut (s : State) (cmd : Nat) (l : LineNo) : Bool :=
  s.cache.walks.any (fun k => k.cmd = cmd && (s.links.reqs ++ s.links.waitq).any (fun r => r.line = l && k.outs.contains r.id))
/-- A walk's line that may act: it heads its line's queue, the line is closed and in no victim buffer (R83, R101), what its recall brought
has reached far memory, and a TT entry is free. -/
def walkReady (s : State) (sl cmd : Nat) : Option SliceIn :=
  let h := s.slice sl
  h.lineQ.find? (fun i => (i.walk.map (·.1)) = some cmd && decide ((h.lineQ.find? (fun j => Hd.line j.h = Hd.line i.h)) = some i) &&
    !h.isOpen (Hd.line i.h) && (h.vbOf (Hd.line i.h)).isNone && (i.ent ≠ 0 || (intPool s sl).isSome) && !visitOut s cmd (Hd.line i.h))
/-- The place a walk's line acts on: its way, where that still holds the line, or where the line is resident. -/
def walkPlace (s : State) (k : Walk) (i : SliceIn) : Option (Nat × Nat) :=
  let l := Hd.line i.h
  let n := (i.walk.map (·.2)).getD 0
  if !k.byset then s.resident l
  else if bit (teOf (s.curTb (n / 16)) (n % 16)) 13 && s.wayLine (n / 16) (n % 16) = l then some (n / 16, n % 16) else none
/-- The TT entry of a visit (R348): the one that has passed to it, else an internal one; a visit that opened nothing passes it on. -/
def visitEnt (sl : Nat) (l : LineNo) (ent : Nat) (s : State) : State :=
  let e := if ent = 0 then (intPool s sl).getD 1 else ent
  match (s.slice sl).tt.find? (fun t => t.line = l && t.kind = .walk && t.ent = 0) with
  | some t => updTxn sl t.id (fun u => { u with ent := e }) s
  | none => entPass sl l e s
/-- A walk's line goes through the pipeline (R101): its recall and its combining line first, then its tag block, then its effect. -/
def walkAct (sl : Nat) (k : Walk) (i : SliceIn) (e : ErrPat) (f : DirFault) (s : State) : State :=
  let l := Hd.line i.h
  let s := dirFix l (dirMeet 20 l (dirUpset l f s))
  let sn := if k.recl then reclSnoops s k.op l else []
  if !sn.isEmpty then reclTxn sl l sn false (updWalk k.cmd (fun k => { k with recs := k.recs ++ [s.nextId] }) s)
  else match s.combOf sl l with
    | some c => run sl s.nextId (closeCombine sl c s)
    | none =>
      let set := match walkPlace s k i with | some x => x.1 | none => s.setOf l
      let look := s.cache.enabled && s.popK.isSome && !s.retired set && (!k.byset || (walkPlace s k i).isSome)
      if look && (s.slice sl).lostSets.contains set then s
      else if look && !(s.tbcOf set).valid then
        if s.cache.mc.any (fun m => m.kind = .tag && m.sl = sl && m.set / 8 % 4096 = set / 8 % 4096) || (tbcVictim s sl set).isNone then s
        else mcReq sl .tag set 0 (bursts 2 0 l (monSys 6 1 (attrLine l) s))
      else
        let s := s.updSlice sl (fun h => { h with lineQ := h.lineQ.erase i })
        visitEnt sl l i.ent (match walkPlace s k i with
          | some (set, w) => visitWay sl k set w e s
          | none => if k.op = 0x22 then s else sbDiscard sl l s)
/-- A line of a walk, at its place, enters the line's queue (R101, R213, R488). -/
def walkPut (sl : Nat) (k : Walk) (n : Nat) (l : LineNo) (s : State) : State :=
  let i : SliceIn := ⟨12, Hd.mk 0 0 0 0 l 0 0, s.regionIx l, none, 0, false, BitVec.ofNat 64 s.cycle, none, false, 0, some (k.cmd, n), 0⟩
  let s := capWalk k.op sl l (b2n k.byset + 2 * b2n k.recl) n k.cmd (if lineTaken s sl l then s else capTouch sl 20 l s)
  (monSys 1 1 (attrLine l) s).updSlice sl (fun h => { h with lineQ := h.lineQ ++ [i], walkClk := 0 })
/-- The running walk's next place in a slice whose line can enter it: the line-conflict queue has room (R213), and a line in a way that an open fill has
reserved comes after that fill (R95). -/
def walkLineIn (s : State) (sl : Nat) (k : Walk) : Option Nat :=
  (walkNext s k sl).filter (fun n =>
    let h := s.slice sl
    !(decide (2048 ≤ h.lineQ.length + h.inq.length) || (k.byset && (h.resv s (n / 16)).testBit (n % 16))))
/-- The running walk's next line in a slice enters the line's queue (R101, R213). -/
def walkEnter (sl : Nat) (k : Walk) (s : State) : State :=
  match walkLineIn s sl k with
  | none => s
  | some n =>
    let l := if k.byset then s.wayLine (n / 16) (n % 16) else rangeLine s k sl n
    updWalk k.cmd (fun k => { k with pos := NMap.set 0 k.pos sl (n + 1) }) (walkPut sl k n l s)
/-- The line of a slice that is cleaned once more, with its walk: a walk that has paused finishes the line it is at (R103, R525). -/
def nextAgain (s : State) (sl : Nat) : Option (Walk × (Nat × Nat)) := s.cache.walks.findSome? (fun k => (k.again.find? (fun x => x.1 % 8 = sl)).map (fun x => (k, x)))
/-- One visit of the running walk in a slice (R101): a line cleaned once more, else a queued line whose turn has come, else its next line, but while
REC_START stops walks at a line boundary (R489). -/
def walkVisit (sl : Nat) (e : ErrPat) (f : DirFault) (s : State) : State :=
  match nextAgain s sl, s.walk with
  | some (k, x), _ => visitAgain sl k x e s
  | none, none => s
  | none, some k =>
    match walkReady s sl k.cmd with
    | some i => walkAct sl k i e f s
    | none =>
      if s.quiescing then s
      else
        let s := walkEnter sl k s
        match walkReady s sl k.cmd with
        | some i => walkAct sl k i e f s
        | none => s
/-- Class 4 of a slice's arbitration is ready (R75): the running walk has a line to enter, and 8 core clocks have passed since its last one did. The
rows that arbitration gives a slice count one clock each, the idle step its own (DESIGN CHOICE, log 92). -/
def walkDue (s : State) (sl : Nat) : Bool :=
  decide (8 ≤ (s.slice sl).walkClk) && !s.quiescing && (nextAgain s sl).isNone &&
    (match s.walk with | some k => (walkReady s sl k.cmd).isNone && (walkLineIn s sl k).isSome | none => false)
/-- A core clock of a slice's arbitration in which no walk's line enters (R75). -/
def arbTick (sl : Nat) (s : State) : State := s.updSlice sl (fun h => { h with walkClk := min 8 (h.walkClk + 1) })
/-- A far write is outstanding. -/
def State.farWrites (s : State) : Bool := (s.links.reqs ++ s.links.waitq).any (fun r => r.write)
/-- A line of a walk is queued or open in a slice, or its recall is. -/
def lineAtWork (s : State) (k : Walk) (sl : Nat) : Bool :=
  let h := s.slice sl
  h.lineQ.any (fun i => (i.walk.map (·.1)) = some k.cmd) || h.tt.any (fun t => t.walk = some k.cmd || k.recs.contains t.id)
/-- A transaction that is reading or writing the system cache, or has reserved a way there. -/
def Txn.filling (t : Txn) : Bool := t.reserved || t.ph = .lineRead || t.ph = .mcWrite
/-- The walk has visited every line of its sets or range, and its visits and far writes have ended; that of a CACHE_DISABLE and of a warm reset,
which leaves nothing dirty, outlasts every fill and write that had begun (R94). -/
def walkDone (s : State) (k : Walk) : Bool :=
  k.outs.isEmpty && k.again.isEmpty && (List.range 8).all (fun sl => (walkNext s k sl).isNone && !lineAtWork s k sl) &&
    !((k.op = 0x22 || k.op = 0x09) && !k.stop && (s.farWrites || (List.range 8).any (fun sl => (s.slice sl).tt.any Txn.filling)))
/-- CLEANED and SKIPPED as a result (R97). -/
def Walk.result (k : Walk) : Nat := k.cleaned % 2 ^ 40 + min 0xFFFFFF k.skipped * 2 ^ 40
/-- The command a walk belongs to. -/
def Walk.prog (s : State) (k : Walk) : Option Prog := s.cp.prog.find? (fun g => g.id = k.cmd)
/-- The sets of a retired set, bank or channel leave service, their tag blocks leave the chip (R89, R382). -/
def retireMark (k : Walk) (s : State) : State :=
  let s := (List.range 8).foldl (fun s sl => s.updSlice sl (fun h => { h with tbc := h.tbc.filter (fun e => !s.walkHas k e.1) })) s
  if k.op = 0x74 then { s with cache.retSets := s.cache.retSets ++ [k.first] }
  else if k.op = 0x75 then { s with cache.retBanks := s.cache.retBanks ++ [k.first] }
  else { s with cache.quar := s.cache.quar ++ [k.first] }
/-- A retirement joins the health page's list, written to the copy not in use (R382, R383). -/
def retireList (own : Option Nat) (op : Byte) (n : Nat) (s : State) : State :=
  healthJob own listOps { s with
    err.rlSets := if op = 0x74 then s.err.rlSets ++ [n] else s.err.rlSets
    err.rlBanks := if op = 0x75 then s.err.rlBanks ++ [n] else s.err.rlBanks
    err.rlGen := s.err.rlGen + 1, err.rlPop := BitVec.ofNat 8 s.popByte }
/-- Lines of the sets in use that INVALIDATE_ALL drops with PF set (R131). -/
def unusedPf (s : State) : Nat :=
  let sets := ((s.cache.tb.map (fun e => e.1)) ++ (List.range 8).flatMap (fun sl => (s.slice sl).tbc.map (fun e => e.1))).eraseDups
  ((sets.filter (fun n => !s.retired n)).map (fun n => ((List.range 14).filter (fun w => bit (teOf (s.curTb n) w) 13 && bit (teOf (s.curTb n) w) 9)).length)).sum
/-- INVALIDATE_ALL (R91): the tag-block caches are empty, every tag block that is not retired is formatted, INV_DONE is set. -/
def invalidateAll (s : State) : State :=
  let all := s.cache.retSets.isEmpty && s.cache.retBanks.isEmpty && s.cache.quar.isEmpty
  let s := cntPf 3 (unusedPf s) s
  let s := (List.range 8).foldl (fun s sl => s.updSlice sl (fun h => { h with tbc := [] })) s
  let s := { s with
    cache.tb := s.cache.tb.filter (fun e => s.retired e.1), cache.tbSent := s.cache.tbSent.filter (fun e => s.retired e.1)
    cache.formatted := s.cache.formatted || all, cache.fmtRepl := if all then s.pol.replInit else s.cache.fmtRepl
    cache.fmtLog := if all then [] else (s.pol.replInit, s.cache.retSets, s.cache.retBanks, s.cache.quar) :: s.cache.fmtLog
    cache.dirty := 0, cache.dirtyPlain := 0, cache.occ := [], cache.invDone := true }
  match s.err.inj with
  | some i =>
    let set := nbits i.opnd 25 0
    if i.kind = 2 && decide (set < s.nSets) && !s.retired set then writeRowTb set (fmtBlock s.pol.replInit) s else s
  | none => s
/-- The bitmap lines of a tracked region leave the bitmap cache: their numbers may come to mean other far lines (R49, R52). -/
def dropBitmap (e : Region) (l : List (LineNo × Line)) : List (LineNo × Line) :=
  if Rg.zt e then l.filter (fun b => !(decide (Rg.ztb e ≤ b.1.toNat) && decide (b.1.toNat < Rg.ztb e + Rg.ztn e))) else l
/-- The end of a walk that changes what the slices serve is recorded as an input of theirs (R484; log 26). -/
def capEnd (k : Walk) (s : State) : State :=
  if [0x11, 0x20, 0x22, 0x23, 0x74, 0x75, 0xF5].contains k.op && !k.stop then
    capCtrl (ctrlEntry k.op (if k.op = 0x11 then (k.prog s).elim 0 (fun g => g.p.target.toNat) else k.first) 0) s
  else s
/-- A walk ends: what its command does then. -/
def walkEnd (k : Walk) (s : State) : State :=
  let s := capEnd k s
  let s := { s with cache.walks := s.cache.walks.filter (fun j => j.cmd ≠ k.cmd && !((k.op = 0x20 || k.op = 0x22) && j.op = 0x23 && j.paused)) }
  let fin := fun (st : BitVec 16) (res : Nat) (s : State) => match k.prog s with | some g => finish g st res s | none => s
  if k.stop then
    fin St.drain_aborted k.result (if k.op = 0x23 then { s with cache.walks := { k with stop := false, paused := true } :: s.cache.walks } else s)
  else if k.op = 0x20 then fin St.ok 0 (invalidateAll s)
  else if k.op = 0x22 then
    if s.mode ≠ 3 then fin St.ok 0 s else fin St.ok k.cleaned (recompute (changeMode 2 2 { s with cache.enabled := false, cache.invDone := false, cache.disabling := false }))
  else if k.op = 0x11 then
    match k.prog s with
    | some g => finish g St.ok 0 { s with
        err.mirror := if s.err.mirror = some g.p.target.toNat then none else s.err.mirror
        str.log := if s.str.log = some g.p.target.toNat then none else s.str.log
        cache.bitmap := dropBitmap (s.region g.p.target.toNat) s.cache.bitmap
        regions := NMap.upd 0 s.regions g.p.target.toNat (fun e => e &&& ~~~(BitVec.ofNat 320 (2 ^ 63))) }
    | none => s
  else if k.op = 0x74 || k.op = 0x75 then
    let s := logErr 0x0007 1 3 (if k.op = 0x75 then k.first % 32 else s.chanOf k.first) 0 k.first (if k.op = 0x75 then 2 else 0) (retireMark k s)
    retireList (some k.cmd) k.op k.first (updProg k.cmd (fun g => { g with stage := 2 }) s)
  else if k.op = 0xF5 then recompute (retireMark k s)
  else if k.op = 0x09 then { s with drain.warm := 4 }
  else if k.op = 0x23 then fin St.ok 0 s
  else fin (if k.skipped ≠ 0 then St.durable_skipped else St.ok) k.result s
/-- End the running walk, and those behind it, while they are done. -/
def walkEnds : Nat → State → State
  | 0, s => s
  | n + 1, s => match s.walk with
    | some k => if walkDone s k then walkEnds n (walkEnd k s) else s
    | none => s
/-- Start a walking command: it is in progress and its walk joins the others, before a step 4 of REGION_CLEAR that it was taken before (R102). -/
def walkCmd (op : Byte) (p : Packet) (first count : Nat) (mask : BitVec 14) (byset recl : Bool) (s : State) : State :=
  let id := s.nextId
  let s := begin_ op p 1 0 0 s
  let k : Walk := ⟨id, op, first, count, mask, byset, recl, [], 0, 0, [], [], false, [], [], false, []⟩
  let before := s.cache.walks.takeWhile (fun j => !j.behind.contains (p.qp, p.entry op))
  { s with cache.walks := before ++ k :: s.cache.walks.drop before.length }
/-- A walk joins the walks in order (R102). -/
def walkStart (cmd : Nat) (op : Byte) (first count : Nat) (mask : BitVec 14) (byset recl : Bool) (s : State) : State :=
  { s with cache.walks := s.cache.walks ++ [⟨cmd, op, first, count, mask, byset, recl, [], 0, 0, [], [], false, [], [], false, []⟩] }

/-- The region command whose back-invalidation walk runs (R40). -/
def clearWalk (s : State) : Option (Nat × Region) :=
  match s.cp.prog.find? (fun g => g.op = 0x11 && g.stage = 3) with
  | some g => some (g.p.target.toNat, s.region g.p.target.toNat)
  | none => none
/-- Directory entries of a slice that a directory walk still has to visit: a lost port's, and those of the range being emptied. -/
def dirWork (s : State) (sl : Nat) : List (Nat × BitVec 64) :=
  let lost := (List.range 12).filter (fun p => (s.port p).purge)
  (s.slice sl).dir.filter (fun x =>
    let e := deOf x.2
    lost.any (fun p => e.holders.testBit p) ||
      (match clearWalk s with | some (_, r) => (e.holders ≠ 0 || e.up ≠ 0) && Rg.covers r (dirLine sl (x.1 / 16) e.tag).toNat | none => false))
/-- Every port whose purge walk has ended in every slice posts LOST_AGENT and logs it (R224). -/
def purgeEnds (s : State) : State :=
  if (List.range 8).any (fun sl => (s.slice sl).dirWalk.isSome) then s
  else (List.range 12).foldl (fun s p =>
    let q := s.port p
    if q.purge then
      postEvent 0x0103 [(0, p), (4, q.lostLines)] (logErr 0x0031 3 1 p 0 0 q.lostLines (s.updPort p (fun q => { q with purge := false })))
    else s) s
/-- The taken commands that a chapter or R411 holds behind a REGION_CLEAR in progress, directly or through one that is. -/
def heldBehind (g : Prog) (s : State) : List (BitVec 5 × BitVec 512) :=
  s.cp.taken.foldl (fun w t =>
    let op := bits t.2 7 0
    let same := fun (u : BitVec 5 × BitVec 512) =>
      let o := bits u.2 7 0
      (serialGroup o != 0 && serialGroup o = serialGroup op) || (walkOps.contains o && walkOps.contains op)
    if (bit (takenPacket t).flags 7 && (t.1 = g.p.qp || w.any (fun u => u.1 = t.1))) || serialGroup op = serialGroup g.op || w.any same then w ++ [t] else w) []
/-- Step 4 of R40 begins: the walk takes its place behind every walk taken by then (R102), but for those that wait for this very command: an ORDERED
one of its SQ is behind it by R411 (DESIGN CHOICE, log 99). -/
def clearStep4 (s : State) : State :=
  if (List.range 8).any (fun sl => (s.slice sl).dirWalk.isSome) then s
  else match s.cp.prog.find? (fun g => g.op = 0x11 && g.stage = 3) with
    | some g =>
      let e := s.region g.p.target.toNat
      let s := walkStart g.id 0x11 (Rg.base e) (Rg.size e) 0x3FFF false false (updProg g.id (fun g => { g with stage := 4 }) s)
      let s := updWalk g.id (fun k => { k with behind := s.cp.taken.filter (fun t => walkOps.contains (bits t.2 7 0) && !(heldBehind g s).contains t) }) s
      if s.mode = 5 then updWalk g.id (fun k => { k with paused := true }) s else s
    | none => s
/-- One visit of the directory walks in a slice (R40, R224): the lowest set with work on a line that no transaction has open (R389); its lost ports
are removed and its lines of the range back-invalidated; the walk of a slice with no work left ends. -/
def dirVisit (sl : Nat) (f : DirFault) (s : State) : State :=
  match (s.slice sl).dirWalk with
  | none => s
  | some _ =>
    match dirWork s sl with
    | [] => clearStep4 (purgeEnds (s.updSlice sl (fun h => { h with dirWalk := none })))
    | work =>
    let now := fun (x : Nat × BitVec 64) => !(s.slice sl).isOpen (dirLine sl (x.1 / 16) (deOf x.2).tag)
    match work.find? now with
    | none => s
    | some x =>
      let ds := x.1 / 16
      (work.filter (fun y => y.1 / 16 = ds && now y)).foldl (fun s y =>
        let l := dirLine sl ds (deOf y.2).tag
        let s := dirFix l (dirMeet 20 l s)
        let e := s.dirOf l
        match clearWalk s with
        | some (_, r) =>
          if Rg.covers r l.toNat && !lineBusy s sl l && (e.holders ≠ 0 || e.up ≠ 0) then
            reclTxn sl l (e.list.map (fun p => (p, 0x41))) true (capWalk 0x11 sl l 4 0 0 s) else s
        | none => s) (dirUpset (dirLine sl ds (deOf x.2).tag) f (s.updSlice sl (fun h => { h with dirWalk := some (ds + 1) })))
/-- Start the directory walks of every slice. -/
def dirWalks (s : State) : State := (List.range 8).foldl (fun s sl => s.updSlice sl (fun h => { h with dirWalk := some 0 })) s
/-- Step 2 of R40 has ended: no transaction is open on a line of the range; the directory walk begins. -/
def clearStep2 (s : State) : State :=
  match s.cp.prog.find? (fun g => g.op = 0x11 && g.stage = 2) with
  | some g =>
    let e := s.region g.p.target.toNat
    if (List.range 8).all (fun sl => let h := s.slice sl
        !h.tt.any (fun t => Rg.covers e t.line.toNat) && !h.inq.any (fun i => Rg.covers e (Hd.line i.h).toNat) && !h.lineQ.any (fun i => Rg.covers e (Hd.line i.h).toNat)) then
      dirWalks (updProg g.id (fun g => { g with stage := 3 }) s)
    else s
  | none => s
/-- The release of unresolved directory entries whose every candidate has been recalled (R374 step 4). -/
def dirBadEnds (sl : Nat) (s : State) : State :=
  let h := s.slice sl
  let open_ := fun (b : DirBad) => h.tt.any (fun t => t.kind = .recl && Hd.op t.h = 0 && dset t.line = b.dset)
  let done := h.dirBad.filter (fun b => b.left.isEmpty && !open_ b)
  done.foldl (fun s b => logErr 0x0011 1 0 sl 0 b.dset (b.bits + 256 * b.returned) (cntErr 5 1 s))
    (s.updSlice sl (fun h => { h with dirBad := h.dirBad.filter (fun b => !(b.left.isEmpty && !open_ b)) }))
/-- A ZT_INIT whose bitmap lines have all been written sets VALID (R49). -/
def ztInitEnd (s : State) : State :=
  match s.cp.prog.find? (fun g => g.op = 0x10 && g.stage = 2) with
  | some g =>
    if (s.links.reqs ++ s.links.waitq).any (fun r => r.purp = .ztInit) then s
    else finish g St.ok g.n { s with regions := NMap.upd 0 s.regions g.p.target.toNat (fun e => e ||| BitVec.ofNat 320 (2 ^ 63)) }
  | none => s

end Sys2Proof.Machine
end

