-- ==== Sys2Proof/Machine/DrainSteps.lean ====
section
/-! DEFINITION. Steps of a drain and of a warm reset that end as soon as what they wait for has ended (R261, R328, R332). -/
namespace Sys2Proof.Machine

/-- The record in flight of a stream waits at a DEAD far port (R306). -/
def heldRecord (s : State) (sid : Nat) : Bool := s.str.items.any (fun it => it.own && it.stream.toNat = sid && it.waitDead)
/-- Step 3 has ended (R328): no HASHED can advance, nor will one once a write that is on its way is visible (R275) or a gap record in flight is
persisted (R280). -/
def hashOver (s : State) : Bool :=
  !s.str.ctx.any (fun e => canHash e.2 || (e.2.gap.isSome && e.2.inFlight && !heldRecord s e.1)) && !s.links.writes.any (fun w => w.tracked && w.pt = 0)
/-- The seal log's region entry stands (R332). -/
def logStands (s : State) : Bool := match s.str.log with | some i => Rg.valid (s.region i) | none => false
/-- Every write and every written-back line of the flush is persisted, complete or lost (R328 step 4). -/
def flushEnded (s : State) : Bool :=
  s.drain.flushDat.all (fun e => e.2 = 0) &&
  s.drain.flush.all (fun i => !s.links.writes.any (fun w => w.id = i) && (List.range 8).all (fun sl => !(s.slice sl).wb.any (fun b => b.id = i)))
/-- Lines of the system cache with D set and DUR clear that no clean of step 6 is writing, by set and way, rising (R328 step 6). -/
def plainDirty (s : State) : List (Nat × Nat) :=
  if !s.cache.enabled then []
  else
    let sets := ((List.range 8).flatMap (fun sl => heldSets s sl)).eraseDups
    let busy := fun (st w : Nat) => (s.links.reqs ++ s.links.waitq).any (fun r => s.drain.extraOut.contains r.id && decide (r.purp = .clean st w))
    ((sets.filter (fun st => !s.retired st && !(s.slice (st % 8)).lostSets.contains st)).flatMap (fun st =>
      (List.range 14).filterMap (fun w =>
        let te := teOf (s.curTb st) w
        if bit s.hitWays w && bit te 13 && bit te 12 && !bit te 11 && !busy st w then some (st, w) else none)))
/-- A drain record or a manifest (R301, R310). -/
def drainItem (it : LogItem) : Bool := it.stream = 0xFFFFFFFF || (decide (it.stream.toNat < 2 ^ 18) && bit it.bytes 55)
/-- Steps 3 and 4 end (R328); with no seal log bound, or its region entry cleared, step 5 ends with them (R332). -/
def drainFlush (s : State) : State :=
  if s.drain.step ≠ 4 || !hashOver s then s
  else
    let s := { s with ao.rep.step := 3, drain.hashEnd := true }
    if !flushEnded s then s
    else if !logStands s then { s with ao.rep.step := 5, ao.rep.flags := s.ao.rep.flags ||| 32, drain.step := 6 }
    else { s with ao.rep.step := 4, drain.step := 5 }
/-- Step 5 ends (R328): the manifest and every drain record are persisted, or wait at a DEAD far port. -/
def drainRecords (s : State) : State :=
  if s.drain.step ≠ 5 || !s.drain.man then s
  else
    let l := s.str.items.filter drainItem
    if l.all (fun it => it.waitDead) then { s with
      ao.rep.step := 5, ao.rep.flags := if l.isEmpty then s.ao.rep.flags else s.ao.rep.flags ||| 64, drain.step := 6 }
    else s
/-- Step 6 ends (R328). -/
def drainExtra (s : State) : State :=
  if s.drain.step ≠ 6 || !s.drain.extraOut.isEmpty then s
  else if s.drain.extra = 0 || (plainDirty s).isEmpty then { s with ao.rep.step := 6, drain.step := 7 }
  else s
/-- Step 2 of a warm reset ends (R261, R291): no transaction is open and no stream can hash; step 3's walk joins the walks. -/
def warmGo (s : State) : State :=
  if s.drain.warm ≠ 1 then s
  else if !s.links.writes.isEmpty || s.str.ctx.any (fun e => canHash e.2) ||
      !(List.range 8).all (fun sl => let h := s.slice sl; h.tt.isEmpty && h.inq.isEmpty && h.lineQ.isEmpty) then s
  else
    let id := match s.cp.prog.find? (fun g => g.op = 0x09 || (g.op = 0x92 && g.stage = 9)) with | some g => g.id | none => s.nextId
    walkStart id 0x09 0 s.nSets 0x3FFF true false { s with nextId := s.nextId + 1, drain.warm := 3 }
/-- What a drain or a warm reset does as soon as it can. -/
def drainGo (s : State) : State := if s.drain.step = 0 then (if s.drain.warm = 1 then walkEnds 8 (warmGo s) else s) else drainExtra (drainRecords (drainFlush s))

end Sys2Proof.Machine
end

