-- ==== Sys2Proof/Machine/Ingress.lean ====
section
/-! DEFINITION. Agent REQ messages: when they may be taken, the ingress checks in the order of R527, stream offsets, split pairs, stride
detectors, acceptance and fences (02, 04, 06, 08, 09, 12, 13). -/
namespace Sys2Proof.Machine

/-- CAP_EFF (R349). -/
def capEff (s : State) (p c : Nat) : Nat :=
  let host := NMap.get 1024 s.regl.cap (5 * p + c)
  let g := NMap.get Guar.init s.regl.guar (5 * p + c)
  if g.on then min 1024 (max host g.rsv) else host
/-- The head of a port's REQ buffer is held back by its pair's cap (R346). -/
def capHeld (s : State) (p : Nat) (m : Msg) : Bool :=
  let c := (Hd.tc m.h).toNat
  decide (Hd.op m.h ≠ 0x19) && decide (c < 5) && decide (capEff s p c ≤ NMap.get 0 (s.port p).opn (5 * p + c))
/-- The head of a port's REQ buffer may be taken (R213, R252, R261, R346, R449); a Fence goes to no slice. -/
def takeable (s : State) (p : Nat) (m : Msg) : Bool :=
  (s.mode = 2 || s.mode = 3) && !s.quiescing && s.drain.warm = 0 && (s.port p).link = 3 && decide ((s.port p).fences.length < 64) &&
    (decide (Hd.op m.h = 0x19) || decide ((s.slice (homeSlice (Hd.line m.h))).lineQ.length + 16 ≤ 2048)) && !capHeld s p m

/-- AUX breaks R184 for its opcode. -/
def auxBad (h : Slot) : Bool :=
  let op := Hd.op h
  let a := (Hd.aux h).toNat
  if op = 0x16 || Hd.isStream h then false
  else if op = 0x17 then decide (4 < a % 8) || decide ((a / 8) % (8 * 2 ^ (a % 8)) ≠ 0) || decide (1024 ≤ a)
  else if op = 0x19 then decide (2 < a)
  else decide (a ≠ 0)
/-- Class and opcode disagree (R106, R107). -/
def classBad (h : Slot) : Bool :=
  let op := Hd.op h
  let c := Hd.tc h
  decide (4 < c.toNat) || ((c = 4) != (op = 0x17 || op = 0x18)) || (c = 2 && !(op = 0x14 || op = 0x15 || op = 0x19))
/-- SPLIT and SPLIT_ID break R183: the upper half follows its lower half at once and names the next line, class, identifier and stream. -/
def splitBad (s : State) (p : Nat) (h : Slot) : Bool :=
  let q := s.port p
  let sp := (Hd.split h).toNat
  let id := Hd.splitId h
  (sp = 3) || (sp = 0 && id ≠ 0) || (sp ≠ 0 && !(Hd.op h = 0x15 || Hd.op h = 0x18)) ||
    (match q.splits.head? with
      | some e => sp ≠ 2 || id ≠ e.id || Hd.line h ≠ e.line + 1 || decide (e.tc ≠ Hd.tc h) || (e.stream ≠ if Hd.isStream h then some (Hd.aux h) else none)
      | none => sp = 2 || (sp = 1 && s.links.writes.any (fun w => w.port = p && w.split ≠ 0 && w.splitId = id && !w.compSent)))
/-- A REQ from a hub peer whose receiver is not home-ward of the sender: its region is remote, and no port but the one the REQ came by leads to
REMOTE_HUB (R232). -/
def peerBad (s : State) (p : Nat) (h : Slot) : Bool :=
  (s.port p).cfg.peerHub = 1 && Hd.op h ≠ 0x19 &&
    (match s.coverNew (Hd.line h) with
      | some (_, e) => Rg.remote e && (match upPort s e with | some q => decide (q = p) | none => true)
      | none => false)
/-- A TAG is in use by an open transaction of the port, or by an eviction that its receive buffer still holds (R181, R183). A REQ that has not been
taken is no open transaction yet: its TAG does not count (DESIGN CHOICE, log 109). -/
def tagOpen (s : State) (p : Nat) (tag : BitVec 12) : Bool :=
  (s.port p).tags.contains tag || (s.port p).rxDat.any (fun m => (Hd.op m.h = 0x65 || Hd.op m.h = 0x89 || Hd.op m.h = 0x8A) && Hd.tag m.h = tag)
/-- SRC is not the port's peer, or DST is not the hub (R183); a hub peer sends with its own base. -/
def idsBad (s : State) (p : Nat) (h : Slot) : Bool := Hd.src h ≠ s.peer p || Hd.dst h ≠ s.links.base
/-- Check 2 of R527: what R201 asks without a region. -/
def malformed (s : State) (p : Nat) (h : Slot) : Bool :=
  decide (Hd.op h < 0x10) || decide (0x19 < Hd.op h) || decide (nbits h 127 126 ≠ 0) || classBad h || idsBad s p h ||
    tagOpen s p (Hd.tag h) || splitBad s p h || auxBad h || (Hd.op h = 0x19 && Hd.line h ≠ 0) || peerBad s p h
/-- The request needs the WR_MASK bit; otherwise the RD_MASK bit (R34). -/
def needsWr (op : Nat) : Bool := op ≠ 0x10 && op ≠ 0x12 && op ≠ 0x17
/-- The context of a stream write, as R29 and R266 see it: open, its region, its writer mask. A failed context counts as open with the
entry's own binding and mask (R376). -/
def streamView (c : Ctx) (i : Nat) (e : Region) : Bool × Nat × BitVec 12 :=
  if c.failed then (true, i, BitVec.ofNat 12 (nbits e 165 154)) else (c.state = 1, c.region.toNat, if c.state = 1 then c.wrMask else 0)
/-- The first check of R527 that a REQ breaks: the violation's kind (R385). -/
def ingressCheck (s : State) (p : Nat) (m : Msg) : Option Nat :=
  let h := m.h
  let op := Hd.op h
  if m.ovr then some 5
  else if malformed s p h then some 3
  else if op = 0x19 then none
  else match s.coverNew (Hd.line h) with
    | none => some 1
    | some (i, e) =>
      if !(if needsWr op then Rg.wr e p else Rg.rd e p) then some 1
      else if (Rg.pol e = 3) != (op = 0x17 || op = 0x18) then some 3
      else if Hd.isStream h then
        let c := s.ctx (Hd.aux h).toNat
        let (open_, reg, mask) := streamView c i e
        let r := (Hd.line h).toNat
        if Rg.smode e = 0 || (Rg.smode e = 1 && Rg.sid e ≠ (Hd.aux h).toNat) || (Rg.smode e = 2 && !(open_ && reg = i)) || Rg.smode e = 3 then some 3
        else if !c.failed && c.state = 1 && !(c.ringBase.toNat * 32 ≤ r && r < c.ringBase.toNat * 32 + c.ring) then some 1
        else if !bit mask p then some 2 else none
      else if needsWr op && Rg.smode e ≠ 0 then some 1
      else none

/-- A detector that holds nothing (R119). -/
def Det.init : Det := ⟨false, 0, 0, 0, 0, 0⟩
/-- The most recently used of some detectors. -/
def mruDet (l : List (Nat × Det)) : Option (Nat × Det) :=
  l.foldl (fun a x => match a with | some y => if y.2.used < x.2.used then some x else a | none => some x) none
/-- The detector that R119 touches for a line, as it then stands. -/
def detFor (q : Port) (l : LineNo) : Nat × Det :=
  let ds := (List.range 16).map (fun i => (i, NMap.get Det.init q.dets i))
  let dist := fun (d : Det) => (l.toNat : Int) - (d.last.toNat : Int)
  match mruDet (ds.filter (fun x => x.2.valid && x.2.stride ≠ 0 && dist x.2 = x.2.stride)) with
  | some (i, d) => (i, { d with conf := if d.conf = 3 then 3 else d.conf + 1, last := l })
  | none =>
    match mruDet (ds.filter (fun x => x.2.valid && dist x.2 ≠ 0 && decide ((dist x.2).natAbs ≤ 16))) with
    | some (i, d) => (i, { d with stride := dist d, conf := 1, front := l, last := l })
    | none =>
      let d : Det := ⟨true, l, 0, 0, l, 0⟩
      match ds.find? (fun x => !x.2.valid) with
      | some (i, _) => (i, d)
      | none => ((ds.foldl (fun (a : Nat × Det) x => if x.2.used < a.2.used then x else a) (0, NMap.get Det.init q.dets 0)).1, d)
/-- The candidates an active detector issues, within the region (R120): lines from FRONT on by STRIDE. -/
def detLines (d : Det) (depth lo hi : Nat) : List LineNo :=
  let target : Int := (d.last.toNat : Int) + depth * d.stride
  ((List.range 128).map (fun (k : Nat) => (d.front.toNat : Int) + (k + 1) * d.stride)).takeWhile (fun x =>
    decide ((lo : Int) ≤ x) && decide (x ≤ (hi : Int)) && (if 0 < d.stride then decide (x ≤ target) else decide (target ≤ x)))
    |>.map (fun x => BitVec.ofNat 40 x.toNat)
/-- A STRM ReadShared or ReadOnce feeds its port's detectors (R119, R120). -/
def detect (p : Nat) (l : LineNo) (i : Nat) (e : Region) (s : State) : State :=
  if !bit s.cache.spPorts p then s
  else
    let q := s.port p
    let (k, d) := detFor q l
    let active := d.valid && d.stride ≠ 0 && ((d.stride.natAbs = 1 && 1 ≤ d.conf.toNat) || 2 ≤ d.conf.toNat)
    let ls := if active then detLines d s.cache.spDepth (Rg.base e) (Rg.base e + Rg.size e - 1) else []
    let d := { d with front := ls.getLast?.getD d.front, used := q.detClk + 1 }
    let room := 32 - q.cand.length
    cntPf 5 (ls.length - room) (s.updPort p (fun q => { q with
      dets := NMap.set Det.init q.dets k d, detClk := q.detClk + 1, cand := q.cand ++ (ls.take room).map (fun x => (x, i)) }))

/-- The point at which a write's Comp is sent (R234, R246). -/
def ackPoint (e : Region) (op : Nat) : Nat :=
  if Rg.remote e then 2 else if op = 0x18 then (if Rg.early e then 0 else 2) else if Rg.early e then 1 else if Rg.dur e then 3 else 2
/-- The offset of a stream write and whether the stream tracks it (R267, R269); its effects on the offset (R269-R272). -/
def streamTake (sid : BitVec 18) (l : LineNo) (lower : Bool) (s : State) : State × Nat × Bool :=
  let c := s.ctx sid.toNat
  let n := c.offOf l.toNat
  let blk := n / 128
  let needs := !c.blocks.contains blk
  if c.failed || c.lim ≤ n || 2 ^ 48 - 1 ≤ n || (needs && 8192 ≤ s.str.blocks) then
    ({ s with str.overruns := s.str.overruns + 1 }, n, false)
  else
    let s := if needs then { s.updCtx sid.toNat (fun c => { c with blocks := c.blocks ++ [blk] }) with str.blocks := s.str.blocks + 1 } else s
    let redo := (c.off n).done
    let s := updOff sid.toNat n (fun o => { o with got := true, opn := o.opn + 1, split := o.split || lower }) s
    (if redo then offBad sid.toNat n 5 s else s, n, true)
/-- The write record of an accepted write, with its stream offset and its place in a split pair (R241, R257, R267-R272). -/
def acceptWrite (p : Nat) (h : Slot) (i : Nat) (e : Region) (s : State) : State × Nat :=
  let op := Hd.op h
  let sp := Hd.split h
  let low := if sp = 2 then (s.port p).splits.head?.bind (fun x => x.off) else none
  let (s, off, tracked) := if Hd.isStream h then streamTake (Hd.aux h) (Hd.line h) (sp = 1) s else (s, 0, false)
  let id := s.nextId
  let w : Wr := {
    id := id, port := p, tag := Hd.tag h, line := Hd.line h, region := i, tc := Hd.tc h, op := BitVec.ofNat 8 op, dur := (Rg.dur e),
    dev := decide (op = 0x18), remote := Rg.remote e, ack := ackPoint e op, pt := 0, lost := false, old := false, compSent := false, silent := false,
    stream := if Hd.isStream h then some (Hd.aux h) else none, off := off, tracked := tracked, split := sp, splitId := Hd.splitId h,
    low := low.map (fun x => x.2), bytes := 0, take := BitVec.ofNat 64 s.cycle }
  let s := { s with nextId := s.nextId + 1, links.writes := s.links.writes ++ [w] }
  (s.updPort p (fun q => { q with
    remoteWr := match if Rg.remote e then upPort s e else none with | some u => NMap.set 0 q.remoteWr u 7 | none => q.remoteWr
    splits := if sp = 1 then q.splits ++ [⟨Hd.splitId h, Hd.line h, Hd.tc h, if Hd.isStream h then some (Hd.aux h) else none,
        if tracked then some (Hd.aux h, off) else none⟩]
      else if sp = 2 then q.splits.drop 1 else q.splits }), id)
/-- Accept a REQ (R241): it is on its way to its home slice, holding its TAG and its place in O (R345). -/
def accept (p : Nat) (h : Slot) (i : Nat) (e : Region) (s : State) : State :=
  let op := Hd.op h
  let s := s.updPort p (fun q => { q with tags := q.tags ++ [Hd.tag h], opn := NMap.upd 0 q.opn (5 * p + (Hd.tc h).toNat) (· + 1) })
  let s := if Hd.tc h = 1 && (op = 0x10 || op = 0x12) then detect p (Hd.line h) i e s else s
  let isW := op = 0x14 || op = 0x15 || op = 0x16 || op = 0x18
  let (s, wr) : State × Option Nat := if isW then (let (s, id) := acceptWrite p h i e s; (s, some id)) else (s, none)
  let x : SliceIn := ⟨p, h, i, if Hd.isStream h then some (Hd.aux h) else none, 0, false, BitVec.ofNat 64 s.cycle, wr, false, 0, none,
    BitVec.ofNat 12 (nbits e 153 142)⟩
  s.updSlice (homeSlice (Hd.line h)) (fun g => { g with inq := g.inq ++ [x] })

/-- Close the combining lines that a condition picks (R248) and let them go on. -/
def closeCombines (f : WbLine → Bool) (s : State) : State :=
  (List.range 8).foldl (fun s sl =>
    ((s.slice sl).wb.filter (fun b => b.combining && f b)).foldl (fun s b => run sl s.nextId (closeCombine sl b s)) s) s
/-- The writes of a port that a fence covers (R251). -/
def coveredBy (s : State) (p : Nat) (f : Fence) : List Wr := s.links.writes.filter (fun w => w.port = p && f.covers w)
/-- The ports a fence of a kind goes to (R237): those the port has sent remote writes to since its last completed fence of the kind. -/
def fencePorts (s : State) (q : Port) (k : BitVec 2) : List Nat :=
  (List.range s.nPorts).filter (fun u => bit (NMap.get 0 q.remoteWr u) k.toNat || q.fences.any (fun f => f.kind = k && (f.toSend.contains u || f.ups.any (fun x => x.1 = u))))
/-- Take a Fence (R237, R251, R252): it closes combining lines that hold its writes (R248), is to go to each port towards a home hub that the
port's remote writes have gone to since its last fence of the kind, and ends at once when nothing holds it. -/
def takeFence (p : Nat) (h : Slot) (s : State) : State :=
  let k := Hd.kind h
  let q := s.port p
  let us := fencePorts s q k
  let f : Fence := ⟨Hd.tag h, k, [], if k = 0 then q.lostAll else if k = 1 then q.lostDur else q.lostDev, NMap.get 0 q.lostReg k.toNat, [], us, false,
    s.nextId, q.fenceAt.headD s.nextId⟩
  let ids := (coveredBy s p f).map (fun w => w.id)
  let s := closeCombines (fun b => b.writes.any (fun w => ids.contains w)) s
  let ids := ((coveredBy s p f).filter (fun w => decide (w.pt < w.fenced k))).map (fun w => w.id)
  fencesEnd p (s.updPort p (fun q => { q with
    tags := q.tags ++ [Hd.tag h], fences := q.fences ++ [{ f with ids := ids }]
    remoteWr := us.foldl (fun m u => NMap.upd 0 m u (fun b => b &&& ~~~(BitVec.ofNat 3 (2 ^ k.toNat)))) q.remoteWr }.fenceNext))

/-- A stash offer that is still open is closed as declined where its target is no longer up (R222, R225). -/
def stashEnds (s : State) : State :=
  (List.range 8).foldl (fun s sl =>
    ((s.slice sl).tt.filter (fun t => t.offer && (match t.stashTo with | some p => (s.port p).link ≠ 3 | none => false))).foldl
      (fun s t => kick sl (stashOver sl t s)) s) s
/-- A REQ leaves the receive buffer: its credit is free to be returned (R178, R282). -/
def reqGone (p : Nat) (s : State) : State :=
  s.updPort p (fun q => { q with rxReq := q.rxReq.drop 1, freed := NMap.upd 0 q.freed 0 (· + 1) })
/-- The stamp of a Fence that leaves the receive buffer without being taken goes with it. -/
def fenceGone (p : Nat) (h : Slot) (s : State) : State :=
  if Hd.op h = 0x19 then s.updPort p Port.fenceNext else s
/-- A REQ that is refused at the take: logged as its kind, answered with FrozenAbort; a lower half takes its upper half with it (R259, R386). -/
def refuseReq (p kind : Nat) (h : Slot) (s : State) : State :=
  let s := violate p kind h s
  let s := match (s.port p).splits.head? with | some e => if kind = 3 then s else tear p e s | none => s
  let s := if Hd.split h = 1 && (Hd.op h = 0x15 || Hd.op h = 0x18) && kind ≠ 3 then
      s.updPort p (fun q => { q with lowGone := some (Hd.splitId h, Hd.line h) }) else s
  frozenAbort p h s
/-- Take the REQ at the head of a port's receive buffer (R241, R345, R386, R527). -/
def takeReq (p : Nat) (m : Msg) (s : State) : State :=
  let h := m.h
  let s := monPort p 6 1 (reqGone p s)
  let gone := (s.port p).lowGone
  let s := s.updPort p (fun q => { q with lowGone := none })
  if !m.ovr && gone = some (Hd.splitId h, Hd.line h - 1) && Hd.split h = 2 then frozenAbort p h (fenceGone p h s)
  else match ingressCheck s p m with
    | some k => refuseReq p k h (fenceGone p h s)
    | none =>
      if Hd.op h = 0x19 then takeFence p h s
      else match s.coverNew (Hd.line h) with
        | some (i, e) => accept p h i e s
        | none => s
/-- Take REQ messages of a port while their head may be taken; a frozen port answers each with FrozenAbort (R386), as does a warm reset (R261). -/
def takeReqs : Nat → Nat → State → State
  | 0, _, s => s
  | n + 1, p, s =>
    match (s.port p).rxReq with
    | [] => s
    | m :: _ =>
      if s.frozen p || ((s.port p).link = 3 && 0 < s.drain.warm) then takeReqs n p (frozenAbort p m.h (fenceGone p m.h (reqGone p s)))
      else if takeable s p m then takeReqs n p (takeReq p m s)
      else s
/-- Take what every port's head allows. -/
def takeAll (s : State) : State := (List.range 12).foldl (fun s p => takeReqs 512 p s) s
/-- A REQ arrives (R178, R180, R187): it joins its port's receive buffer behind those before it. A lost port's is discarded (R227). -/
def reqArrive (p : Nat) (h : Slot) (s : State) : State :=
  let q := s.port p
  if p < s.nPorts && q.open_ then
    let cr := NMap.get 0 q.rxCr 0
    s.updPort p (fun q => { q with
      rxReq := q.rxReq ++ [⟨h, 0, 0, cr = 0⟩], rxCr := NMap.set 0 q.rxCr 0 (cr - 1), fenceAt := if Hd.op h = 0x19 then q.fenceAt ++ [s.nextId] else q.fenceAt })
  else s

end Sys2Proof.Machine
end

