-- ==== Sys2Proof/Machine/Answer.lean ====
section
/-! DEFINITION. Agent RSP and DAT messages: snoop answers, acknowledgements, evictions, write data, stash answers, and the loss of an agent
(06, 07, 08). -/
namespace Sys2Proof.Machine

/-- Slots of an RSP or DAT message leave the receive buffer and their credits go back at once (R178, R203). -/
def credit (p cls n : Nat) (s : State) : State :=
  flowCredits p (s.updPort p (fun q => { q with rxCr := NMap.upd 0 q.rxCr cls (· + n), crOwe := NMap.upd 0 q.crOwe cls (· + n) }))
/-- A message of a class consumes the peer's credits; false where it held too few (R180). -/
def spend (p cls n : Nat) (s : State) : State × Bool :=
  let have_ := NMap.get 0 (s.port p).rxCr cls
  (s.updPort p (fun q => { q with rxCr := NMap.set 0 q.rxCr cls (have_ - n) }), decide (n ≤ have_))
/-- A snoop of a line to a port that awaits its answer: slice, transaction, opcode (R193). -/
def snoopOn (s : State) (p : Nat) (l : LineNo) : Option (Nat × Txn × Nat) :=
  let sl := homeSlice l
  match (s.slice sl).tt.find? (fun t => t.line = l && t.ph = .snoops && t.snoops.any (fun x => x.1 = p)) with
  | some t => some (sl, t, ((t.snoops.find? (fun x => x.1 = p)).map (fun x => x.2.toNat)).getD 0)
  | none => none
/-- The answer of a port is in: its snoop is no longer pending (R193), and its transaction goes on. -/
def snoopIn (sl : Nat) (t : Txn) (p : Nat) (s : State) : State :=
  run sl t.id (updTxn sl t.id (fun u => { u with snoops := u.snoops.filter (fun x => x.1 ≠ p) }) s)
/-- A port leaves a line's directory entry (R194, R195). -/
def dirDrop (p : Nat) (l : LineNo) (s : State) : State := setDir l none ((s.dirOf l).drop p) s
/-- An owner that answers a sharing snoop stays as a sharer (R190, R194). -/
def dirShare (l : LineNo) (s : State) : State :=
  let e := s.dirOf l
  if e.st = 3 then setDir l none { e with st := 1, port := 0 } s else s

/-- A port's peer is home-ward for a line: it is the hub of a remote region towards which the port leads (R231, R232). -/
def homeAt (s : State) (p : Nat) (l : LineNo) : Bool :=
  match s.cover l with | some (_, e) => Rg.remote e && decide (upPort s e = some p) | none => false
/-- SRC of an RSP or DAT message is the port's peer, or for SnpData that a hub peer passes on any identifier of its range (R183, R231). -/
def srcOk (s : State) (p : Nat) (h : Slot) : Bool :=
  let c := (s.port p).cfg
  Hd.src h = s.peer p ||
    (c.peerHub = 1 && Hd.op h = 0x88 && Hd.grant h ≠ 0 && decide (c.peerId.toNat ≤ (Hd.src h).toNat) && decide ((Hd.src h).toNat < c.peerId.toNat + c.peerSize.toNat))
/-- The first violation of an RSP or DAT header without regard to what is pending (R201): opcode's sender, reserved bits, identifiers, fields. A
SnpData for a requester may name it or, where it is routed on, any identifier that a port leads to (R183, R231). For a line whose home hub is the peer,
the peer is no agent, and only such a SnpData may come from it (R232). -/
def answerBad (s : State) (p : Nat) (h : Slot) : Bool :=
  let op := Hd.op h
  let a := (Hd.aux h).toNat
  decide (nbits h 127 118 ≠ 0) || !srcOk s p h || (!(op = 0x88 && Hd.grant h ≠ 0) && homeAt s p (Hd.line h)) ||
    (if op = 0x88 then
      (let g := Hd.grant h
       decide (g = 1) || decide (4 < g) || decide (15 < a) ||
         (if g = 0 then Hd.dst h ≠ s.links.base else Hd.dst h ≠ s.links.base && (routeDst s (Hd.dst h).toNat).isNone))
     else Hd.dst h ≠ s.links.base || decide ((if 0x80 ≤ op then 2 else 1) ≤ a)) ||
    ((op = 0x89 || op = 0x8A) && (decide (4 < (Hd.tc h).toNat) || Hd.tc h = 2 || Hd.tc h = 4)) ||
    ((op = 0x65 || op = 0x89 || op = 0x8A) && tagOpen s p (Hd.tag h))
/-- A violation of an RSP or DAT message: it is discarded (R386). -/
def badAnswer (p kind : Nat) (h : Slot) (s : State) : State := stashEnds (violate p kind h s)

/-- The grant of a request's flow stands from its CompAck on, whatever writes of its fill are still to be accepted (R194; DEDUCED, log 96): an
eviction by the requester that follows finds it recorded. -/
def grantStands (sl : Nat) (t : Txn) (s : State) : State :=
  let x := t.gop = 0x82 || t.gop = 0x83 || t.gop = 0x60
  let pinned := match (s.slice sl).sbOf t.line with | some b => b.pinned | none => true
  updTxn sl t.id (fun u => { u with gop := 0 }) (dirClose t (if x && !pinned then sbDiscard sl t.line s else s))
/-- CompAck (R191, R194): the grant to the port on the line is acknowledged and its TAG free. -/
def compAck (p : Nat) (h : Slot) (s : State) : State :=
  let l := Hd.line h
  let sl := homeSlice l
  match (s.slice sl).tt.find? (fun t => t.line = l && t.grant = some p) with
  | some t =>
    let s := if t.port = p && t.kind = .req && Hd.op t.h < 0x14 then endRead sl t.id (freeTag p (Hd.tag t.h) s) else s
    let s := updTxn sl t.id (fun u => { u with grant := none }) s
    let s := if t.ph = .stash || !t.snoops.isEmpty then s else grantStands sl t s
    if t.ph = .stash then kick sl (closeTxn sl t s) else run sl t.id s
  | none => badAnswer p 4 h s
/-- RspI (R190, R194): the port holds nothing any more. -/
def rspI (p : Nat) (h : Slot) (s : State) : State :=
  match snoopOn s p (Hd.line h) with
  | some (sl, t, _) => if t.noFill || t.fwd then badAnswer p 4 h s else snoopIn sl t p (dirDrop p t.line s)
  | none => badAnswer p 4 h s
/-- RspS (R190, R194): the port keeps the line in S; only a sharing snoop is answered so. An answer that R190 does not list for the snoop that is
pending, or a second one to it, is an unexpected response (DESIGN CHOICE, log 90). -/
def rspS (p : Nat) (h : Slot) (s : State) : State :=
  match snoopOn s p (Hd.line h) with
  | some (sl, t, op) =>
    if (op = 0x40 || op = 0x42) && !t.noFill && !t.fwd then snoopIn sl t p (dirShare t.line s) else badAnswer p 4 h s
  | none => badAnswer p 4 h s
/-- RspFwd (R190, R194): data goes, or has gone, straight to the requester; the answer is whole once that data has been routed. To a snoop that
forwards nothing, or a second time, it is an unexpected response (DESIGN CHOICE, log 90). -/
def rspFwd (p : Nat) (h : Slot) (s : State) : State :=
  match snoopOn s p (Hd.line h) with
  | some (sl, t, op) =>
    if op ≠ 0x42 && op ≠ 0x43 || t.fwd then badAnswer p 4 h s
    else
      let s := if op = 0x43 then dirDrop p t.line s else s
      let s := updTxn sl t.id (fun u => { u with fwd := true }) s
      if t.noFill then snoopIn sl t p s else s
  | none => badAnswer p 4 h s

/-- Log and count a stale eviction (R35, R219). -/
def stale (p : Nat) (h : Slot) (s : State) : State := logErr 0x0032 1 1 p 0 (Hd.line h).toNat (Hd.op h) (cntErr 13 1 s)
/-- Log data that arrives poisoned (R367). -/
def poisonIn (p : Nat) (h : Slot) (s : State) : State := if Hd.psn h then logErr 0x0033 2 1 p 0 (Hd.line h).toNat (Hd.op h) s else s
/-- Comp for an eviction (R195). -/
def evictComp (p : Nat) (h : Slot) (s : State) : State := txMsg p 0x60 (Hd.tag h) (Hd.line h) 0 s
/-- EvictNote (R195, R214, R217): the sender leaves the entry at arrival. -/
def evictNote (p : Nat) (h : Slot) (s : State) : State :=
  let l := Hd.line h
  let s := dirFix l (dirMeet p l s)
  if (s.dirOf l).holders.testBit p then evictUp l none (evictComp p h (dirDrop p l s)) else evictComp p h (stale p h s)

/-- A REQ of a port for a line has been taken and waits (R222). -/
def askedFor (s : State) (p : Nat) (l : LineNo) : Bool :=
  let g := s.slice (homeSlice l)
  (g.inq ++ g.lineQ).any (fun i => i.port = p && Hd.line i.h = l)
/-- An open stash offer to a port on a line (R198). -/
def offerOn (s : State) (p : Nat) (l : LineNo) : Option (Nat × Txn) :=
  ((s.slice (homeSlice l)).tt.find? (fun t => t.line = l && t.offer && t.stashTo = some p)).map (fun t => (homeSlice l, t))
/-- StashDecline (R198): a late one is discarded. -/
def stashDecline (p : Nat) (h : Slot) (s : State) : State :=
  match offerOn s p (Hd.line h) with | some (sl, t) => kick sl (stashOver sl t s) | none => s
/-- StashAccept (R198, R222): DataE and the line's ownership, or STASH_EXPIRED. The data counts as delivered to the target's port, in the class of the
write (R356, R359; DESIGN CHOICE, log 137). -/
def stashAccept (p : Nat) (h : Slot) (s : State) : State :=
  let l := Hd.line h
  match offerOn s p l with
  | some (sl, t) =>
    if askedFor s p l then
      kick sl (stashOver sl t (txMsg p 0x60 (Hd.tag h) l 1 { s with links.stashConflicts := s.links.stashConflicts + 1 }))
    else
      let d := t.dat.getD (0, true)
      let s := txData p 0x82 (Hd.tag h) l (Hd.tc t.h).toNat 128 d.1 d.2 s
      let s := setDir l none { (s.dirOf l) with st := 3, port := p, holders := 2 ^ p } s
      updTxn sl t.id (fun u => { u with grant := some p, offer := false }) s
  | none => txMsg p 0x60 (Hd.tag h) l 1 s

/-- Reserved write-buffer lines of a port in use in a slice (R181). -/
def rsvUsed (h : Slice) (p : Nat) : Nat := (h.wb.filter (fun b => decide (2 ≤ b.kind) && b.port = p && !b.released)).length
/-- The silent record of durable data that came as WbData or SnpData (R282): the one made at arrival, or a new one. -/
def silentWr (p : Nat) (h : Slot) (s : State) : State × List Nat :=
  match s.cover (Hd.line h) with
  | some (i, e) =>
    if !Rg.dur e then (s, [])
    else match s.links.writes.find? (fun w => w.silent && w.port = p && w.line = Hd.line h && w.op.toNat = Hd.op h && w.pt = 0) with
      | some w => (s, [w.id])
      | none =>
        let w : Wr := {
          id := s.nextId, port := p, tag := Hd.tag h, line := Hd.line h, region := i, tc := Hd.tc h, op := BitVec.ofNat 8 (Hd.op h)
          dur := true, dev := false, remote := false, ack := 3, pt := 0, lost := false, old := false, compSent := true, silent := true, stream := none, off := 0
          tracked := false, split := 0, splitId := 0, low := none, bytes := 128, take := BitVec.ofNat 64 s.cycle }
        ({ s with nextId := s.nextId + 1, links.writes := s.links.writes ++ [w] }, [w.id])
  | none => (s, [])
/-- The record of discarded data ends, and no fence waits for it. -/
def dropSilent (p : Nat) (h : Slot) (s : State) : State :=
  match s.links.writes.find? (fun w => w.silent && w.port = p && w.line = Hd.line h && w.op.toNat = Hd.op h && w.pt = 0) with
  | some w =>
    fencesEnd p ({ s with links.writes := s.links.writes.filter (fun x => x.id ≠ w.id) }.updPort p
      (fun (q : Port) => { q with fences := q.fences.map (fun (f : Fence) => { f with ids := f.ids.erase w.id }) }))
  | none => s
/-- Data of an agent lands in a reserved line of its port (R181), on top of a combining line of its line (R243): visible at once, but beneath an
open write only with it. -/
def landed (sl p kind : Nat) (h : Slot) (d : Line) (tc : BitVec 3) (txn : Nat) (vis : Bool) (s : State) : State × Nat :=
  let (s, ids) := silentWr p h s
  let b : WbLine := {
    id := s.nextId, line := Hd.line h, data := if Hd.psn h then 0 else d, mask := fullMask, psn := Hd.psn h, kind := kind, port := p, tc := tc
    region := s.regionIx (Hd.line h), dur := !ids.isEmpty, hasData := true, visible := vis, gone := false, cached := false, under := false, combining := false
    writes := ids, txn := some txn, released := false }
  let s := { s with nextId := s.nextId + 1 }.updSlice sl (fun g => { g with wb := g.wb ++ [b] })
  let s := ids.foldl (fun s id => if b.psn then wrLose id 2 (wrPoint id 1 s) else wrPoint id 1 s) s
  (absorb sl txn b s, b.id)
/-- The open transaction of a line that takes written-back data in, as if it had been snooped (R214): one that has not yet had its answers. -/
def takesData (s : State) (sl : Nat) (l : LineNo) : Option Txn :=
  (s.slice sl).tt.find? (fun t => t.line = l && t.kind ≠ .evict && t.wb.isNone &&
    (t.ph = .start || t.ph = .setPark || t.ph = .dirWay || t.ph = .up || t.ph = .snoops) && decide (Hd.op t.h < 0x14 || t.kind ≠ .req))
/-- The open write of a line that an owner's data goes beneath (R194). -/
def writeOver (s : State) (sl : Nat) (l : LineNo) : Option Txn :=
  (s.slice sl).tt.find? (fun t => t.line = l && t.kind = .req && decide (0x14 ≤ Hd.op t.h) &&
    (t.ph = .start || t.ph = .setPark || t.ph = .dirWay || t.ph = .wbLine || t.ph = .snoops))
/-- An owner's data meets an open write of its line (R194): a full line that has come overwrites it, and the data is discarded, its record going on
with the write's; else it is held beneath the write in its own line. -/
def dataUnder (sl p kind : Nat) (h : Slot) (d : Line) (t : Txn) (s : State) : State :=
  match (s.wbLn t).filter (fun b => b.hasData && b.mask = fullMask) with
  | some b =>
    let (s, ids) := silentWr p h s
    updWb sl b.id (fun x => { x with writes := ids ++ x.writes }) (ids.foldl (fun s id => wrPoint id 1 s) s)
  | none => (landed sl p kind h d (if kind = 2 then Hd.tc h else Hd.tc t.h) t.id false s).1
/-- An owner's data comes in (R194, R214): into the transaction that has the line open, beneath an open write, or under a transaction of its own.
Snooped data has the class of the request whose transaction sent the snoop, 0 for any other transaction (R109). -/
def dataIn (p kind : Nat) (h : Slot) (d : Line) (s : State) : State :=
  let l := Hd.line h
  let sl := homeSlice l
  match takesData s sl l with
  | some t =>
    let (s, b) := landed sl p kind h d (if kind = 2 then Hd.tc h else Hd.tc t.h) t.id true s
    updTxn sl t.id (fun u => { u with wb := some b }) s
  | none =>
    match writeOver s sl l with
    | some t => dataUnder sl p kind h d t s
    | none =>
      let t := { newTxn s.nextId l .evict p (Hd.mk 0x14 0 0 0 l (Hd.tc h) 0) (s.regionIx l) with ph := .start }
      let s := { s with nextId := s.nextId + 1 }.updSlice sl (fun g => { g with tt := g.tt ++ [t] })
      let (s, b) := landed sl p kind h d (Hd.tc h) t.id true s
      run sl t.id (updTxn sl t.id (fun u => { u with wb := some b }) s)

/-- A DAT message that takes a reserved line may not be processed yet (R181). -/
def datWaits (s : State) (p : Nat) (h : Slot) : Bool :=
  let op := Hd.op h
  (op = 0x89 || op = 0x8A || (op = 0x88 && Hd.grant h = 0)) && decide (16 ≤ rsvUsed (s.slice (homeSlice (Hd.line h))) p)
/-- A line no valid entry covers any longer (R35). -/
def State.uncovered (s : State) (l : LineNo) : Bool := (s.cover l).isNone
/-- A GRANT that answers a forwarding snoop (R190). -/
def grantFits (op g : Nat) : Bool := if op = 0x42 then decide (g = 2) else if op = 0x43 then decide (g = 3) || decide (g = 4) else false
/-- SnpData to the hub under a pending snoop: the line's current data (R194). -/
def snpToHub (sl p op : Nat) (t : Txn) (h : Slot) (d : Line) (s : State) : State :=
  if s.uncovered t.line then snoopIn sl t p (stale p h (dirDrop p t.line s))
  else
    let s := if op = 0x40 || op = 0x42 then dirShare t.line s else dirDrop p t.line s
    let s := if t.kind = .recl && Hd.op t.h = 0 then s.updSlice sl (fun v => { v with
        dirBad := v.dirBad.map (fun b => if b.dset = dset t.line then { b with returned := b.returned + 1 } else b) }) else s
    snoopIn sl t p (dataIn p 3 h d (poisonIn p h s))
/-- The requester that a forwarding snoop named is lost: its transaction runs on without it (R225). -/
def Txn.orphan (t : Txn) : Bool := decide (t.kind = .recl) && !t.homeward
/-- SnpData with a GRANT goes straight to the requester, which then owes CompAck (R190, R191). For a lost requester, or under a table entry that failed
(R375), nothing is sent, and dirty data that the owner has given up is lost: the line is poisoned (R226; DESIGN CHOICE, log 108). -/
def snpRouted (sl p : Nat) (t : Txn) (h : Slot) (d : Line) (s : State) : State :=
  let s := poisonIn p h s
  let s := if t.orphan || t.dead then (if Hd.grant h = 4 then poisonLine t.line (dirDrop p t.line s) else s)
    else match routeDst s (Hd.dst h).toNat with
    | some q => readBytes q (Hd.tc t.h).toNat 128 (tx q h (if Hd.psn h then 0 else d) s)
    | none => s
  let owes := if t.kind = .req && !t.dead && (s.port t.port).open_ then some t.port else none
  let s := updTxn sl t.id (fun u => { u with noFill := true, grant := owes }) s
  if t.fwd then snoopIn sl t p s else s
/-- SnpData (R190, R194, R202): to the hub, the line's current data; with a GRANT, routed to the requester. With no snoop of the line pending to the port
it is an unexpected response (R202), also for a line that no valid entry covers, where R35 would have it discarded as a stale eviction (DESIGN CHOICE,
log 130). -/
def snpData (p : Nat) (h : Slot) (d : Line) (s : State) : State :=
  match snoopOn s p (Hd.line h) with
  | none => badAnswer p 4 h s
  | some (sl, t, op) =>
    if Hd.grant h = 0 then
      if t.fwd || t.noFill || (op = 0x43 && (s.port p).cfg.peerHub = 0) then badAnswer p 4 h s else snpToHub sl p op t h d s
    else if t.noFill || !grantFits op (Hd.grant h) || decide (Hd.dst h ≠ Hd.src t.h) then badAnswer p 4 h s
    else snpRouted sl p t h d s
/-- A line may be one that an unresolved directory entry records: its candidates hold it, and it has not been recalled (R374). -/
def unresolvedOn (s : State) (l : LineNo) : Option DirBad :=
  let g := s.slice (homeSlice l)
  g.dirBad.find? (fun b => b.dset = dset l && (b.left.contains l || g.tt.any (fun t => t.line = l && t.kind = .recl && Hd.op t.h = 0)))
/-- WbData that crosses the recall of an unresolved directory entry is what that recall is for: no dirty data of an agent is lost (R374). -/
def wbUnresolved (p : Nat) (h : Slot) (d : Line) (b : DirBad) (s : State) : State :=
  let l := Hd.line h
  let s := poisonIn p h s
  let s := s.updSlice (homeSlice l) (fun v => { v with dirBad := v.dirBad.map (fun x => if x = b then { x with returned := x.returned + 1 } else x) })
  match s.cover l with
  | some (_, r) =>
    if Rg.remote r && (takesData s (homeSlice l) l).isNone then
      let s := evictComp p h s
      match upPort s r with | some q => upPut q ⟨4, l, some (if Hd.psn h then 0 else d, Hd.psn h)⟩ s | none => s
    else evictComp p h (dataIn p 2 h d s)
  | none => evictComp p h (dataIn p 2 h d s)
/-- WbData (R35, R195, R214, R219): from the owner it is the line's current data; a remote line's goes home-ward (R236). -/
def wbData (p : Nat) (h : Slot) (d : Line) (s : State) : State :=
  let l := Hd.line h
  let s := dirFix l (dirMeet p l s)
  let e := s.dirOf l
  let drop := fun (s : State) => evictComp p h (stale p h (dropSilent p h s))
  if s.uncovered l then drop s
  else if !e.holders.testBit p then (match unresolvedOn s l with | some b => wbUnresolved p h d b s | none => drop s)
  else if e.st ≠ 3 then evictUp l none (drop (dirDrop p l s))
  else
    let s := poisonIn p h (dirDrop p l s)
    match s.cover l with
    | some (_, r) =>
      if Rg.remote r && (takesData s (homeSlice l) l).isNone then
        let s := match upPort s r with
          | some u => s.updPort p (fun q => { q with remoteWr := NMap.upd 0 q.remoteWr u (· ||| 2) })
          | none => s
        evictUp l (some (if Hd.psn h then 0 else d, Hd.psn h)) (evictComp p h s)
      else evictComp p h (dataIn p 2 h d s)
    | none => s
/-- The ways an EvictOffer may take where every condition of R88 but that of the write queue holds. -/
def offerWay (s : State) (p : Nat) (h : Slot) : Option Nat :=
  let l := Hd.line h
  let sl := homeSlice l
  let g := s.slice sl
  let t := newTxn 0 l .evict p (Hd.mk 0x10 0 0 0 l (Hd.tc h) 0) (s.regionIx l)
  let el := eligible s (s.setOf l) (s.part p ((Hd.tc h).toNat % 4)) true
  if mayAlloc s t && !Hd.psn h && (s.resident l).isNone && (g.vbOf l).isNone && !g.isOpen l && !g.wb.any (fun b => b.line = l) &&
      (s.tbcOf (s.setOf l)).valid && !g.lostSets.contains (s.setOf l) && el ≠ 0 then some el else none
/-- EvictOffer (R88, R195, R219). -/
def evictOffer (p : Nat) (h : Slot) (d : Line) (s : State) : State :=
  let l := Hd.line h
  let sl := homeSlice l
  let s := dirFix l (dirMeet p l s)
  if s.uncovered l || !(s.dirOf l).holders.testBit p then evictComp p h (stale p h s)
  else
    let s := evictComp p h (poisonIn p h (dirDrop p l s))
    match offerWay s p h with
    | none => evictUp l none s
    | some el =>
      let (n, s) := s.draw
      if Config.writeQueueFull (s.chanOf (s.setOf l)) n then evictUp l none s
      else
      let t := { newTxn s.nextId l .evict p (Hd.mk 0x10 0 0 0 l (Hd.tc h) 0) (s.regionIx l) with ph := .farRead, fillKind := 2, dat := some (d, false) }
      let b : WbLine := {
        id := s.nextId + 1, line := l, data := d, mask := 0, psn := false, kind := 4, port := p, tc := Hd.tc h, region := t.region, dur := false
        hasData := false, visible := false, gone := true, cached := false, under := false, combining := false, writes := [], txn := some t.id, released := false }
      let s := { s with nextId := s.nextId + 2 }.updSlice sl (fun g => { g with tt := g.tt ++ [t], wb := g.wb ++ [b] })
      run sl t.id (askVictim sl t el s)

/-- The write of a port whose WrPull is outstanding under a TAG (R197). -/
def pullOn (s : State) (p : Nat) (tag : BitVec 12) : Option (Nat × Txn) :=
  (List.range 8).findSome? (fun sl => ((s.slice sl).tt.find? (fun t => t.pull && t.kind = .req && t.port = p && Hd.tag t.h = tag)).map (fun t => (sl, t)))
/-- Write data counts at its arrival by the bytes it enables (R359). Its own TC field is zero (R183): the class is that of the request it belongs to
(DESIGN CHOICE, log 126). -/
def writeBytes (cls : Nat) (mask : Slot) (s : State) : State :=
  if s.mode = 4 then s else { s with regs.compWr := cntAdd s.regs.compWr cls (ones mask) }
/-- Write data (R197, R202, R329, R367): into the line reserved for its write; that of a write that has ended is discarded. -/
def wrData (p : Nat) (h : Slot) (mask : Slot) (d : Line) (s : State) : State :=
  match pullOn s p (Hd.tag h) with
  | none =>
    (match (s.port p).endedTags.find? (fun e => e.1 = Hd.tag h) with
    | some e => writeBytes e.2.toNat mask (s.updPort p (fun q => { q with endedTags := q.endedTags.erase e }))
    | none => badAnswer p 4 h s)
  | some (sl, t) =>
    let op := Hd.op t.h
    let ptl := op = 0x15 || op = 0x18
    if t.line ≠ Hd.line h || (Hd.op h = 0x8C) != ptl then badAnswer p 4 h s
    else
      let d := if Hd.psn h then 0 else d
      let cls := (Hd.tc t.h).toNat
      let s := poisonIn p h (writeBytes cls mask s)
      let s := match t.wr with | some id => updWr id (fun w => { w with bytes := ones mask }) s | none => s
      let s := match t.wb with
        | some b => updWb sl b (fun x => { x with data := d, mask := mask, psn := Hd.psn h, hasData := true }) s
        | none => s
      run sl t.id (updTxn sl t.id (fun u => { u with pull := false, dat := if op = 0x16 then some (d, Hd.psn h) else u.dat }) s)

/-- Process an RSP or DAT message whose fields are sound (R202, R214). -/
def applyAnswer (p : Nat) (h mask : Slot) (d : Line) (s : State) : State :=
  let op := Hd.op h
  let s := capAns p h mask d s
  if op = 0x61 then compAck p h s else if op = 0x62 then rspI p h s else if op = 0x63 then rspS p h s else if op = 0x64 then rspFwd p h s
  else if op = 0x65 then evictNote p h s else if op = 0x66 then stashDecline p h s else if op = 0x6A then stashAccept p h s
  else if op = 0x88 then snpData p h d s else if op = 0x89 then wbData p h d s else if op = 0x8A then evictOffer p h d s
  else if op = 0x8B then wrData p h fullMask d s else if op = 0x8C then wrData p h mask d s else badAnswer p 3 h s
/-- WbData and EvictOffer count at arrival (R359). -/
def arriveBytes (h : Slot) (s : State) : State :=
  if Hd.op h = 0x89 || Hd.op h = 0x8A then { s with regs.compWr := cntAdd s.regs.compWr (Hd.tc h).toNat 128 } else s

end Sys2Proof.Machine
end

