-- ==== Sys2Proof/Machine/Upward.lean ====
section
/-! DEFINITION. The proxy's side of a link to a hub nearer home: grants, Comps, pulls and snoops that come from there (R200, R231-R237). -/
namespace Sys2Proof.Machine

/-- The transaction that waits on an upward request of a port under a TAG (R234). -/
def upOn (s : State) (p : Nat) (tag : BitVec 12) : Option (Nat × Txn) :=
  (List.range 8).findSome? (fun sl => ((s.slice sl).tt.find? (fun t =>
    (t.ph = .up || t.ph = .upPull) && t.upTag = some tag && decide (upPort s (s.regOf t) = some p))).map (fun t => (sl, t)))
/-- The local flow goes on: from its start where the upward request came first, at the lookup where it came for data. -/
def upResume (sl : Nat) (t : Txn) (s : State) : State :=
  run sl t.id (updTxn sl t.id (fun u => { u with ph := if t.gop = 0 then .start else .tagBlock }) s)
/-- UP takes the state granted (R234). -/
def upGranted (l : LineNo) (up : Nat) (s : State) : State := setDir l none { (s.dirOf l) with up := up } s
/-- Data granted from upward (R191, R234): CompAck goes back, UP follows, the local flow has its data. SnpData grants what its GRANT names, DataNC
nothing; for a ReadDev it is the answer (R33). A dirty line that no requester waits for any longer goes back. -/
def upData (p : Nat) (h : Slot) (d : Line) (s : State) : State :=
  let op := Hd.op h
  match upOn s p (Hd.tag h) with
  | none => s
  | some (sl, t) =>
    if t.kind = .req && Hd.op t.h = 0x17 then devReadDone sl t (.inr (d, Hd.psn h)) s
    else
    let up := if op = 0x80 then 1 else if op = 0x81 then 2 else if op = 0x82 then 3 else if op = 0x83 then 4 else if op = 0x88 then Hd.grant h else 0
    let s := if up = 0 then s
      else upGranted t.line up (tx p (Hd.mk 0x61 s.links.base (s.peer p) (Hd.tag h) t.line 0 0) 0 s)
    let s := if t.kind ≠ .req && up = 4 then evictUp t.line (some (if Hd.psn h then 0 else d, Hd.psn h)) s else s
    let s := updTxn sl t.id (fun u => { u with
      dat := some (if Hd.psn h then 0 else d, Hd.psn h), upState := if up = 0 then u.upState else BitVec.ofNat 3 up }) s
    match s.txn sl t.id with | some t => upResume sl t s | none => s
/-- The writes of a line that its home hub did not take are lost; a WriteDev's Comp says DEV_ERROR (R199, R250, R369). -/
def upLose (b : WbLine) (s : State) : State :=
  b.writes.foldl (fun s id => wrLose id 1 (match s.wrOf id with | some w => if w.dev then sendComp id 2 s else s | none => s)) s
/-- A remote write's Comp from upward: visible and complete, or lost (R241, R242). -/
def upWrote (sl : Nat) (t : Txn) (ok : Bool) (s : State) : State :=
  let s := if ok then wrVisible sl t s else s
  match t.wb.bind (s.wbOf sl) with
  | some b =>
    let r := afterWrite sl { t with wb := none } (wbFree sl b.id (if ok then b.writes.foldl (fun s id => wrPoint id 2 s) s else upLose b s))
    if r.2 = .closed then kick sl r.1 else r.1
  | none => s
/-- Comp from upward (R234): an Upgrade is granted; a write is visible and complete, or lost (R241); an eviction's
Comp lets requests for its line go (R189). -/
def upComp (p : Nat) (h : Slot) (s : State) : State :=
  match upOn s p (Hd.tag h) with
  | none =>
    if (s.port p).upEv.any (fun e => e.1 = Hd.tag h) then
      kickAll (s.updPort p (fun q => { q with upEv := q.upEv.filter (fun e => e.1 ≠ Hd.tag h) }))
    else s
  | some (sl, t) =>
    if t.ph = .up then
      let s := upGranted t.line 3 (tx p (Hd.mk 0x61 s.links.base (s.peer p) (Hd.tag h) t.line 0 0) 0 s)
      upResume sl t (updTxn sl t.id (fun u => { u with upState := 3 }) s)
    else
      upWrote sl t (decide (Hd.status h = 0)) (upGranted t.line 0 s)
/-- WrPull from upward (R197, R234): the write's data follows. -/
def upPull (p : Nat) (h : Slot) (s : State) : State :=
  match upOn s p (Hd.tag h) with
  | none => s
  | some (sl, t) =>
    match t.wb.bind (s.wbOf sl) with
    | some b =>
      let full := decide (b.mask = fullMask) && t.upSplit.isNone && Hd.op t.h ≠ 0x18
      txMask p (Hd.mk (if full then 0x8B else 0x8C) s.links.base (s.peer p) (Hd.tag h) t.line 0 (if b.psn then 1 else 0))
        (if full then 0 else b.mask) (if b.psn then 0 else b.data) s
    | none => s
/-- An upward request has ended without effect (R200): the local request ends so too, a read with FrozenAbort, for it has been granted nothing and
UP covers nothing; a write is lost (DESIGN CHOICE, log 32). -/
def upAbort (sl : Nat) (t : Txn) (s : State) : State :=
  if t.ph = .upPull then
    match t.wb.bind (s.wbOf sl) with
    | some b => kick sl (closeTxn sl t (wbFree sl b.id (upLose b s)))
    | none => kick sl (closeTxn sl t s)
  else kick sl (closeTxn sl { t with gop := 0 } (freeTag t.port (Hd.tag t.h) (frozenAbort t.port t.h s)))
/-- FenceDone from upward, or the end of an upward fence with its losses unknown (R237): its TAG is free again, whether or not its agent still waits for
it (R203). -/
def upFence (p : Nat) (tag : BitVec 12) (lost : Bool) (s : State) : State :=
  let s := s.updPort p (fun q => { q with upFn := q.upFn.filter (fun t => t ≠ tag) })
  (List.range 12).foldl (fun s q => fencesEnd q (s.updPort q (fun x => { x with fences := x.fences.map (fun f =>
    if f.ups.contains (p, tag) then { f with ups := f.ups.erase (p, tag), upLost := f.upLost || lost } else f) }))) s
/-- Send a fence of port `q` towards a home hub by port `u` once a TAG is free there (R203, R237); a lost peer's losses are unknown. -/
def fenceUp (q : Nat) (f : Fence) (u : Nat) (s : State) : State :=
  let lost := !(s.port u).open_
  if !lost && (upFree s u).isNone then s
  else
  let tag := (upFree s u).getD 0
  let s := s.updPort q (fun x => { x with fences := x.fences.map (fun g => if g.tag = f.tag then { g with
    toSend := g.toSend.filter (fun v => v ≠ u), ups := if lost then g.ups else g.ups ++ [(u, tag)], upLost := g.upLost || lost } else g) })
  if lost then s
  else tx u (Hd.mk 0x19 s.links.base (s.peer u) tag 0 0 (f.kind.setWidth 18)) 0 (s.updPort u (fun x => { x with upTag := tag + 1, upFn := x.upFn ++ [tag] }))
/-- Fences whose own part is complete go towards the home hubs they concern (R237). -/
def fencesUp (s : State) : State :=
  (List.range 12).foldl (fun s q => fencesEnd q (((s.port q).fences.filter (fun f => f.ids.isEmpty)).foldl (fun s f =>
    f.toSend.foldl (fun s u => fenceUp q f u s) s) s)) s
/-- FrozenAbort from upward (R200). -/
def upFrozen (p : Nat) (h : Slot) (s : State) : State :=
  match upOn s p (Hd.tag h) with
  | some (sl, t) => upAbort sl t s
  | none => upFence p (Hd.tag h) true s
/-- A snoop from home-ward (R235): it stands on its line behind the local flow that has it open. -/
def homeSnoop (p : Nat) (h : Slot) (s : State) : State :=
  let l := Hd.line h
  let sl := homeSlice l
  let op := Hd.op h
  let req := if op = 0x42 || op = 0x43 then Hd.aux h else 0
  let s := dirMeet p l (capMsg p h 0 0 (capTouch sl p l s))
  let t := { newTxn s.nextId l .recl p (Hd.mk op req 0 (Hd.tag h) l 0 0) (s.regionIx l) with ph := .start }
  run sl t.id ({ s with nextId := s.nextId + 1 }.updSlice sl (fun g => { g with tt := g.tt ++ [t] }))
/-- A SNP message may come only from the hub peer that is home-ward for its line (R186, R232); TAG and AUX are zero but in a forwarding snoop, which
names its requester (R183, R184). -/
def snoopBad (s : State) (p : Nat) (h : Slot) : Bool :=
  let fwd := Hd.op h = 0x42 || Hd.op h = 0x43
  (s.port p).cfg.peerHub ≠ 1 || idsBad s p h || decide (nbits h 127 118 ≠ 0) ||
    (if fwd then decide (0x3D090 ≤ (Hd.aux h).toNat) else Hd.aux h ≠ 0 || Hd.tag h ≠ 0) ||
    (match s.cover (Hd.line h) with | some (_, e) => !Rg.remote e || decide (upPort s e ≠ some p) | none => true)
/-- A SNP message arrives (R179, R180, R232, R235): one from an agent is malformed, whatever its credits. -/
def snoopArrive (p : Nat) (h : Slot) (s : State) : State :=
  if !(decide (p < s.nPorts) && (s.port p).open_) then s
  else if (s.port p).cfg.peerHub ≠ 1 then badAnswer p 3 h s
  else
    let (s, paid) := spend p 1 1 s
    let s := credit p 1 1 s
    if !paid then badAnswer p 5 h s
    else if snoopBad s p h then badAnswer p 3 h s
    else if Hd.op h = 0x44 then tx p (Hd.mk 0x66 s.links.base (s.peer p) (Hd.tag h) (Hd.line h) 0 0) 0 s
    else homeSnoop p h s
/-- A sound message of a hub peer takes effect (R234, R237). -/
def hubApply (p : Nat) (h : Slot) (d : Line) (s : State) : State :=
  let op := Hd.op h
  if 0x80 ≤ op then upData p h d s
  else if op = 0x60 then upComp p h s
  else if op = 0x68 then upFence p (Hd.tag h) (decide (Hd.status h ≠ 0)) s
  else if op = 0x69 then upPull p h s
  else upFrozen p h s
/-- An RSP or DAT message that answers the hub as an agent of a hub nearer home (R186, R191): a hub's own, or SnpData that grants it a line. -/
def forAgent (s : State) (p : Nat) (h : Slot) : Bool :=
  let op := Hd.op h
  (op = 0x88 && Hd.grant h ≠ 0 && Hd.dst h = s.links.base && (s.port p).cfg.peerHub = 1) || op = 0x60 || op = 0x67 || op = 0x68 || op = 0x69 ||
    (0x80 ≤ op && op ≤ 0x84)
/-- A hub's RSP or DAT message breaks R183 or R184 (R8, R201): identifiers, reserved bits, STATUS and POISON. -/
def hubBad (s : State) (p : Nat) (h : Slot) : Bool :=
  let op := Hd.op h
  let a := (Hd.aux h).toNat
  !srcOk s p h || Hd.dst h ≠ s.links.base || decide (nbits h 127 118 ≠ 0) ||
    (if op = 0x60 then decide (3 < a) else if op = 0x68 then a ≠ 0 && a ≠ 0x10 else if op = 0x88 then decide (9 < a) || decide (Hd.grant h < 2)
      else decide ((if 0x80 ≤ op then 2 else 1) ≤ a))
/-- The peer is not home-ward for the line of a hub's message, so that it is no hub for it (R201, R232). Fences name no line. -/
def wrongSide (s : State) (p : Nat) (h : Slot) : Bool :=
  Hd.op h ≠ 0x68 && !(Hd.op h = 0x67 && Hd.line h = 0) && (s.cover (Hd.line h)).isSome && !homeAt s p (Hd.line h)
/-- A held message has been applied in `s`, which the flush of a drain may wait for: so it does for what the message began (R328). -/
def flushTook (p from_ : Nat) (s : State) : State :=
  if NMap.get 0 s.drain.flushDat p = 0 then s
  else { s with
    drain.flushDat := NMap.upd 0 s.drain.flushDat p (fun n => n - 1)
    drain.flush := s.drain.flush ++ (List.range (s.nextId - from_)).map (fun i => from_ + i) }
/-- A held DAT message, or a message that stood behind one, takes its effect. -/
def applyHeld (p : Nat) (m : Msg) (s : State) : State :=
  if forAgent s p m.h then hubApply p m.h m.data (capMsg p m.h 0 m.data s) else applyAnswer p m.h m.mask m.data s
/-- A message stands behind one that the port's receive buffer holds: a DAT message behind any (R181), an RSP message behind one of its line (R215). -/
def behind (s : State) (p : Nat) (h : Slot) : Bool :=
  (Hd.cls (Hd.op h) = 3 && !(s.port p).rxDat.isEmpty) || (s.port p).rxDat.any (fun m => Hd.line m.h = Hd.line h)
/-- A message joins those that the receive buffer holds, which keep their credits (R181). -/
def holdDat (p : Nat) (h mask : Slot) (d : Line) (s : State) : State := s.updPort p (fun q => { q with rxDat := q.rxDat ++ [⟨h, mask, d, false⟩] })
/-- DAT messages held for want of a reserved line, and what stands behind them, in order, as lines come free (R181, R215). -/
def datNext : Nat → Nat → State → State
  | 0, _, s => s
  | n + 1, p, s =>
    match (s.port p).rxDat with
    | [] => s
    | m :: rest =>
      if datWaits s p m.h then s
      else datNext n p (flushTook p s.nextId (applyHeld p m (credit p (Hd.cls (Hd.op m.h)) (Hd.len (Hd.op m.h)) (s.updPort p (fun q => { q with rxDat := rest })))))
/-- Held DAT messages of every port. -/
def datAll (s : State) : State := (List.range 12).foldl (fun s p => datNext 256 p s) s
/-- An RSP or DAT message arrives (R180, R181, R201, R202): counted, checked, and applied unless it waits behind a held one: a DAT message
behind any, an RSP message behind one of its line (R215). -/
def answerArrive (p : Nat) (h mask : Slot) (d : Line) (s : State) : State :=
  let op := Hd.op h
  let cls := Hd.cls op
  if !(decide (p < s.nPorts) && (s.port p).open_) then s
  else
    let n := Hd.len op
    let (s, paid) := spend p cls n s
    let s := monPort p (if cls = 3 then 9 else 8) 1 s
    if !paid then credit p cls n (badAnswer p 5 h s)
    else if answerBad s p h then credit p cls n (badAnswer p 3 h s)
    else
      let s := arriveBytes h s
      if behind s p h || (cls = 3 && datWaits s p h) then
        let s := if op = 0x89 && (s.dirOf (Hd.line h)).st = 3 && (s.dirOf (Hd.line h)).port = p then (silentWr p h s).1 else s
        holdDat p h mask d s
      else applyAnswer p h mask d (credit p cls n s)

/-- A hub's RSP or DAT message arrives from a port: sound only from a hub peer that is home-ward for its line (R186, R201, R232). It too stays in the
receive buffer behind a held DAT message (R181, R215). -/
def hubArrive (p : Nat) (h : Slot) (d : Line) (s : State) : State :=
  let op := Hd.op h
  let cls := Hd.cls op
  if !(decide (p < s.nPorts) && (s.port p).open_) then s
  else
    let n := Hd.len op
    let (s, paid) := spend p cls n s
    let s := monPort p (if cls = 3 then 9 else 8) 1 s
    if !paid then credit p cls n (badAnswer p 5 h s)
    else if (s.port p).cfg.peerHub ≠ 1 || hubBad s p h || wrongSide s p h then credit p cls n (badAnswer p 3 h s)
    else if behind s p h then holdDat p h 0 d s
    else hubApply p h d (capMsg p h 0 d (credit p cls n s))
/-- A request's header once nobody waits for its answer: all but its opcode, so that a forwarder's answer still fits it (R190) and what the snoops
bring has its class (R109). -/
def Hd.unasked (h : Slot) : Slot := putBits h 0 8 0
/-- A transaction goes on as one of the hub's own, which waits only for its snoops: its TT entry is free (R214, R348). -/
def ownNow (sl id : Nat) (f : Txn → Txn) (s : State) : State :=
  entFreed sl (updTxn sl id (fun u => f { u with kind := .recl, h := Hd.unasked u.h, gop := 0, ent := 0 }) (endRead sl id s))
/-- A write ends without data (R225, R329): lost with cause AGENT_LOST, its line freed. An owner's data that lay beneath it is the line's current
data, and a combining line that it had closed goes on. -/
def endPull (sl : Nat) (t : Txn) (s : State) : State :=
  let s := match t.wr with | some id => wrLose id 3 s | none => s
  let s := match t.wb with | some b => wbFree sl b s | none => s
  let under := underOf s sl t
  let s := match under, replaced s sl t.id t.line with
    | some c, _ => updWb sl c.id (fun x => { x with visible := true }) s
    | none, some c => if c.txn = some t.id then closeCombine sl c s else s
    | none, none => s
  let s := ownNow sl t.id (fun u => { u with
    pull := false, wr := none, wb := under.map (fun c => c.id), dat := none, ph := .snoops, snoops := if t.ph = .snoops then u.snoops else [] }) s
  kick sl (run sl t.id s)
/-- What a loss does to one transaction of the lost port (R225). -/
def loseTxn (sl p : Nat) (t : Txn) (s : State) : State :=
  let op := Hd.op t.h
  if 0x14 ≤ op && op ≠ 0x17 then
    if t.pull || t.ph = .start || t.ph = .dirWay || t.ph = .setPark || t.ph = .wbLine then
      endPull sl t (s.updSlice sl (fun h => { h with setQ := h.setQ.filter (fun i => i ≠ t.id) }))
    else s
  else if t.grant = some p || ((t.ph = .mcWrite || t.ph = .vict) && t.dat.isSome) then
    let s := updTxn sl t.id (fun u => { u with kind := .evict, grant := none, gop := 0, wr := none, ent := 0 }) (dirFix t.line (grantStands sl t s))
    run sl t.id (entFreed sl s)
  else if t.ph = .snoops && !t.snoops.isEmpty || t.wb.isSome || t.ph = .up then ownNow sl t.id id s
  else
    let s := s.updSlice sl (fun h => { h with setQ := h.setQ.filter (fun i => i ≠ t.id), vbWait := h.vbWait.filter (fun i => i ≠ t.id) })
    kick sl (closeTxn sl { t with gop := 0 } s)
/-- A snoop to the lost port is taken as RspI once its entry has been put right (R225); a forwarding answer that came whole stands. -/
def loseSnoop (sl p : Nat) (t : Txn) (s : State) : State :=
  let s := dirFix t.line s
  snoopIn sl t p (updTxn sl t.id (fun u => { u with fwd := u.noFill }) s)
/-- The port's agent is declared lost (R224, R225, R227, R259): what its receive buffer holds has arrived and is applied first, with no answer. Its
queued stream candidates go, its stride detectors stay (DESIGN CHOICE, log 82). -/
def declareLost (p : Nat) (s : State) : State :=
  let s := tearAll p s
  let held := (s.port p).rxDat
  let s := s.updPort p (fun q => { q with link := 4, rxDat := [], txQ := [] })
  let s := held.foldl (fun s m => applyHeld p m s) s
  let s := (s.port p).upQ.foldl (fun s x => if x.up = 0 then setDir x.line none { s.dirOf x.line with up := 0 } s else s) s
  let s := s.updPort p (fun q => { q with
    link := 6, purge := true, lostLines := 0, lossDue := false, rxReq := [], rxDat := [], txQ := [], cand := [], tags := [], fences := [], opn := []
    endedTags := [], lowGone := none, fenceAt := [], lateWb := [], upEv := [], upQ := [], upFn := [] })
  let s := { s with links.writes := s.links.writes.map (fun w => if w.port = p then { w with silent := true, old := true } else w) }
  let s := (List.range 8).foldl (fun s sl =>
    let mine := ((s.slice sl).inq ++ (s.slice sl).lineQ).filter (fun i => i.port = p)
    let ents := ((s.slice sl).lineQ.filter (fun i => i.port = p && i.ent ≠ 0)).map (fun i => (Hd.line i.h, i.ent))
    let s := s.updSlice sl (fun h => { h with
      inq := h.inq.filter (fun i => i.port ≠ p), lineQ := h.lineQ.filter (fun i => i.port ≠ p)
      tt := h.tt.map (fun t => if t.port = p then { t with counted := false } else t) })
    let s := ents.foldl (fun s x => entPass sl x.1 x.2 s) s
    let s := mine.foldl (fun s i => match i.wr with | some id => wrLose id 3 s | none => s) s
    let s := ((s.slice sl).tt.filter (fun t => t.kind = .req && t.port = p)).foldl (fun s t => match s.txn sl t.id with | some t => loseTxn sl p t s | none => s) s
    let s := ((s.slice sl).tt.filter (fun t => t.stashTo = some p && t.grant = some p)).foldl (fun s t =>
      let s := updTxn sl t.id (fun u => { u with grant := none }) (dirFix t.line s)
      if t.ph = .stash then kick sl (closeTxn sl { t with grant := none } s) else run sl t.id s) s
    ((s.slice sl).tt.filter (fun t => t.ph = .snoops && t.snoops.any (fun x => x.1 = p))).foldl (fun s t =>
      match s.txn sl t.id with | some t => loseSnoop sl p t s | none => s) s) s
  recompute (dirWalks (stashEnds s))
/-- A loss is declared, or recorded until RESUME while the hub drains (R333). -/
def loseAgent (p : Nat) (s : State) : State :=
  if s.drain.step ≠ 0 then s.updPort p (fun q => { q with lossDue := true })
  else if (s.port p).link = 6 then s else declareLost p s
/-- A transaction of a remote line that another slice or a link may let go on (R189, R234, R235). -/
def Txn.asksUp (t : Txn) (s : State) : Bool :=
  t.homeward && t.ph = .start || t.ph = .upHalf || (t.kind = .req && (t.ph = .start || t.ph = .tagBlock || (t.ph = .snoops && t.snoops.isEmpty && !t.pull)) && Rg.remote (s.regOf t))
/-- A transaction that an unsent eviction of its line holds up, and that does not hold it up: a request before its lookup or on its way home-ward. -/
def Txn.yields (t : Txn) : Bool := decide (t.kind = .req) && [Ph.start, .setPark, .dirWay, .wbLine, .tagBlock, .upHalf].contains t.ph
/-- Recall of the copies that stand in the way of dirty data's travel home-ward (R196, R236; DESIGN CHOICE, log 104). -/
def upRecall (l : LineNo) (s : State) : State :=
  let sl := homeSlice l
  let t := { newTxn s.nextId l .recl 0 0 (s.regionIx l) with snoops := (s.dirOf l).list.map (fun p => (p, (0x41 : Byte))), ph := .start }
  run sl t.id ({ s with nextId := s.nextId + 1 }.updSlice sl (fun h => { h with tt := h.tt ++ [t] }))
/-- An eviction towards a home hub goes on (R189, R203, R236): it is off where the line is held again; it waits for a local flow of its line, for a TAG
and for credits, and its copies are recalled first; once it is sent, UP is I. A WbData carries class PROC (DESIGN CHOICE, log 105). -/
def upGo (p : Nat) (x : UpEvict) (s : State) : State :=
  let l := x.line
  let e := s.dirOf l
  let q := s.port p
  let up := if x.up ≠ 0 then x.up else e.up
  let out := fun (s : State) => s.updPort p (fun q => { q with upQ := q.upQ.filter (fun y => y.line ≠ l) })
  let gone := fun (s : State) => if x.up = 0 then setDir l none { s.dirOf l with up := 0 } s else s
  if up = 0 || (x.dat.isNone && x.up = 0 && (e.holders ≠ 0 || (s.resident l).isSome)) then out s
  else if (s.slice (homeSlice l)).tt.any (fun t => t.line = l && !t.yields) then s
  else if x.up = 0 && e.holders ≠ 0 then upRecall l s
  else
    let s := match s.resident l with | some (set, w) => dropWay l set w s | none => s
    let d := x.dat.getD (0, true)
    let op := if x.dat.isSome || up = 4 then 0x89 else 0x65
    if up = 1 && x.dat.isNone || !q.open_ then gone (out s)
    else match upFree s p with
      | some tag =>
        if !q.canSend op && s.mode ≠ 4 then s
        else
          let s := (gone (out s)).updPort p (fun q => { q with upTag := tag + 1, upEv := q.upEv ++ [(tag, l)] })
          tx p (Hd.mk op s.links.base (s.peer p) tag l 0 (if op = 0x89 && d.2 then 1 else 0)) (if op = 0x89 && !d.2 then d.1 else 0) s
      | none => s
/-- Every eviction towards a home hub that has not been sent. -/
def upsGo (s : State) : State := (List.range 12).foldl (fun s p => (s.port p).upQ.foldl (fun s x => upGo p x s) s) s
/-- Home-ward snoops, remote requests and waiting evictions that may now go on (R203, R235). -/
def homeKick (s : State) : State :=
  let s := upsGo s
  (List.range 8).foldl (fun s sl => ((s.slice sl).tt.filter (fun t => t.asksUp s)).foldl (fun s t => run sl t.id s) s) s
/-- Upward requests and fences to a lost hub peer end (log 32). -/
def upLost (s : State) : State :=
  let s := (List.range 12).foldl (fun s q => fencesEnd q (s.updPort q (fun x => { x with fences := x.fences.map (fun f =>
    if f.ups.any (fun u => (s.port u.1).link = 6) then { f with ups := f.ups.filter (fun u => (s.port u.1).link ≠ 6), upLost := true } else f) }))) s
  (List.range 8).foldl (fun s sl => ((s.slice sl).tt.filter (fun t => (t.ph = .up || t.ph = .upPull) &&
    (match upPort s (s.regOf t) with | some p => decide ((s.port p).link = 6) | none => true))).foldl (fun s t => upAbort sl t s) s) s

/-- An opcode of a class (R186). -/
def opDefined (op : Nat) : Bool :=
  (0x10 ≤ op && op ≤ 0x19) || (0x40 ≤ op && op ≤ 0x44) || (0x60 ≤ op && op ≤ 0x6A) || (0x80 ≤ op && op ≤ 0x84) || (0x88 ≤ op && op ≤ 0x8C)
/-- Every message of the Walkan stream, by its opcode's class and sender (R186). One with no opcode of a class is malformed, is of no class that
credits are held for, and has no answer (R201, R386; log 51). -/
def message (p : Nat) (h mask : Slot) (d : Line) (s : State) : State :=
  let op := Hd.op h
  if !opDefined op then (if (s.port p).open_ && p < s.nPorts then badAnswer p 3 h s else s)
  else if op < 0x20 then reqArrive p h s
  else if 0x40 ≤ op && op ≤ 0x44 then snoopArrive p h s
  else if forAgent s p h then hubArrive p h d s
  else if (s.port p).open_ && p < s.nPorts then answerArrive p h mask d s else s

end Sys2Proof.Machine
end

