-- ==== Sys2Proof/Machine/Settle.lean ====
section
/-! DEFINITION. What follows at once from any row: far requests that fail at issue, held messages that may be taken, walks and region commands
whose last condition has come to hold. -/
namespace Sys2Proof.Machine

/-- Writes that wait for a shared write-buffer line receive it in the order of their step 5, while there is room (R247); one that waits no longer
leaves its place. -/
def wbNext : Nat → Nat → State → State
  | 0, _, s => s
  | n + 1, sl, s =>
    match (s.slice sl).wbWait with
    | [] => s
    | id :: rest =>
      match (s.txn sl id).filter (fun t => t.ph = .wbLine) with
      | none => wbNext n sl (s.updSlice sl (fun h => { h with wbWait := rest }))
      | some _ =>
        let u := run sl id s
        if (u.slice sl).wbWait.head? = some id then u else wbNext n sl u
/-- Waiting writes of every slice. -/
def wbAll (s : State) : State := (List.range 8).foldl (fun s sl => wbNext 4096 sl s) s
/-- A waiting access of the hub's own to a line has its turn: no transaction has the line open, and for the patrol no request of before it waits for
the line (R75, R377, R389). -/
def jobReady (s : State) (sl : Nat) : Job → Bool
  | .farFail _ _ l => !(s.slice sl).isOpen l
  | .patrol _ _ l _ a => !(s.slice sl).isOpen l && !(s.slice sl).lineQ.any (fun i => a.any i.same)
/-- Its effect: the copies of a failed far write, or the patrol's read of a way that still holds the line. -/
def jobDo (sl : Nat) (j : Job) (s : State) : State :=
  match j with
  | .farFail p f l => kick sl (farFix p f l s)
  | .patrol set w l e _ => patrolWay set w l e s
/-- The waiting accesses of a slice whose turn has come, in order. -/
def jobsGo (sl : Nat) (s : State) : State :=
  (s.slice sl).jobs.foldl (fun s j => if jobReady s sl j then jobDo sl j (s.updSlice sl (fun h => { h with jobs := h.jobs.erase j })) else s) s
/-- Waiting accesses of every slice. -/
def jobsAll (s : State) : State := (List.range 8).foldl (fun s sl => jobsGo sl s) s
/-- The agents' side: offers and upward requests that end, snoops and held data that may go on, REQ messages that may be taken. -/
def settleLinks (s : State) : State := takeAll (upsGo (wbAll (settleFar 64 (jobsAll (datAll (fencesUp (homeKick (upLost (stashEnds s)))))))))
/-- Release every directory way whose recall has ended (R374). -/
def dirBadsEnd (s : State) : State := (List.range 8).foldl (fun s sl => dirBadEnds sl s) s
/-- Let everything that follows at once happen: watermarks advance on all that the clock has marked, REQ messages that waited for a window go on, and
the notices are judged last (R277). -/
def settle (s : State) : State :=
  let s := wmAll (dirBadsEnd (ztInitEnd (walkEnds 8 (clearStep2 (settleLinks (slotsEnd (settleFar 64 s)))))))
  noticesAll (logLow (drainGo (streamsGo (wmAll (takeAll s)))))
/-- What follows from a row that turns `s` into `t`, and the order of the events of its core clock. -/
def rowEnd (s t : State) : State := evOrder s.cp.evSeq s.regs.evf.seq (settle t)
/-- A row outside the AO domain and what follows from it; nothing while only the AO domain runs (R340, R449). -/
def act (s : State) (t : State) : State := if s.off then s else rowEnd s t
/-- A row of a slice and what follows from it; nothing while the slices' clocks stand still (R338). -/
def clocked (s : State) (t : State) : State := if s.sliceOff then s else rowEnd s t

end Sys2Proof.Machine
end

