-- ==== Sys2Proof/Machine/Link.lean ====
section
/-! DEFINITION. The link layer of an agent port: flits, retry, Recovery, initialisation, and the port commands (R163-R180, R204-R207, R229-R232). -/
namespace Sys2Proof.Machine

/-- The LInitParam the hub sends on a port (R175, R177, R179, R230, R232). -/
def initParam (s : State) (p : Nat) : Slot :=
  let hub := decide ((s.port p).cfg.peerHub = 1)
  BitVec.ofNat 128 (0xF0 + 1 <<< 8 + 1 <<< 24 + s.links.base.toNat <<< 26 + (s.peer p).toNat <<< 44 + 512 <<< 62 +
    (if hub then 512 else 0) <<< 74 + 512 <<< 86 + 2304 <<< 98 + s.links.size.toNat <<< 110)
/-- A LINK message in a control flit (R167, R175). -/
def txLink (p : Nat) (m : Slot) (s : State) : State := ctrlFlit p m s
/-- LInitAck of revision 1 (R175, R176). -/
def initAck : Slot := 0x01F1
/-- LRetryReq with EXPECT = E (R170, R175). -/
def retryReq (e : BitVec 16) : Slot := BitVec.ofNat 128 (0xF2 + e.toNat <<< 8)

/-- Every PORT_RESET of a port completes when the port is up, held down or disabled (R206). -/
def resetDone (p : Nat) (s : State) : State :=
  (s.cp.prog.filter (fun g => g.op = 0xA1 && g.p.target.toNat = p && g.stage = 2)).foldl (fun s g => finish g St.ok 0 s) s
/-- A port is held down (R174, R176, R177, R179, R207). -/
def holdPort (p : Nat) (why : BitVec 3) (s : State) : State :=
  resetDone p (recompute (postEvent 0x0101 [(0, p), (1, why.toNat)] (s.updPort p (fun q => { q with link := 4, hold := why }))))
/-- A port that was up goes down: LINK_DOWN, and its agent is lost (R173, R224). -/
def linkDown (p : Nat) (s : State) : State :=
  let s := s.updPort p (fun q => { q with inRec := false })
  if (s.port p).link = 6 then s else loseAgent p (holdPort p 6 s)
/-- The PHY is directed into Recovery; the fourth entry within 1 s takes the port down (R173). -/
def recovery (p : Nat) (s : State) : State :=
  let now := s.ao.time.toNat
  let rs := ((s.port p).recs.filter (fun t => decide (now - t < secTicks))) ++ [now]
  let s := monPort p 0x10 1 (s.updPort p (fun q => { q with inRec := true, noProg := 0, recoveries := q.recoveries + 1, recs := rs }))
  if 4 ≤ rs.length then linkDown p s else s
/-- The replay buffer is sent again from a flit on (R172); the eighth replay of one flit without ACK progress asks for Recovery (R173). The flits leave
in one step, and the replay counts as running until the next AO clock, ACK progress or new flit (DESIGN CHOICE, log 63). -/
def replayFrom (p : Nat) (e : BitVec 16) (s : State) : State :=
  let fs := (s.port p).replay.dropWhile (fun x => x.1 ≠ e)
  let n := (s.port p).noProg + 1
  let s := monPort p 1 fs.length (monPort p 5 1 (s.updPort p (fun q => { q with replays := q.replays + 1, noProg := n, replayFrom := some e })))
  let s := fs.foldl (fun s x => let r := flitOut (s.port p) x.1 x.2
    (s.updPort p (fun _ => r.1)).put (.replayed p r.2)) s
  if 8 ≤ n then recovery p s else s
/-- An LRetryReq arrives (R172): one that names the flit a running replay started from is ignored. -/
def retryIn (p : Nat) (h : Slot) (s : State) : State :=
  let e := bits h 23 8
  let q := s.port p
  if q.replay.any (fun x => x.1 = e) then (if q.replayFrom = some e then s else replayFrom p e s)
  else if e = q.txSeq then s else recovery p s
/-- An ACK arrives (R171): it releases the flits up to it; one that names a flit never sent is a link error (R173), and so is one that names an older
flit than the last acknowledged one, which its distance does not tell from it (DESIGN CHOICE, log 133). -/
def ackIn (p : Nat) (a : BitVec 16) (s : State) : State :=
  let q := s.port p
  let oldest := match q.replay with | x :: _ => x.1 | [] => q.txSeq
  let d := (a.toNat + 1 + 65535 - oldest.toNat) % 65535
  if a = 0xFFFF then recovery p s
  else if d = 0 then s
  else if d ≤ q.replay.length then flushTx p (s.updPort p (fun q => { q with replay := q.replay.drop d, noProg := 0, replayFrom := none }))
  else recovery p s
/-- Cumulative credit returns arrive (R178). -/
def creditsIn (p : Nat) (f : Flit) (s : State) : State :=
  let q := s.port p
  let (cr, last) := (List.range 4).foldl (fun (a : NMap Nat × NMap Nat) c =>
    let n := nbits f (1920 + 8 * c + 7) (1920 + 8 * c)
    let d := (n + 256 - NMap.get 0 a.2 c) % 256
    (NMap.upd 0 a.1 c (· + d), NMap.set 0 a.2 c n)) (q.txCr, q.crIn)
  flushTx p (s.updPort p (fun q => { q with txCr := cr, crIn := last }))

/-- Initialisation is complete: both sides' LInitAck have gone (R174). -/
def initDone (p : Nat) (s : State) : State :=
  let q := s.port p
  if q.link = 2 && q.gotParam && q.gotAck = some 1 then
    resetDone p (recompute (s.updPort p (fun q => { q with
      link := 3, hold := 0, lostAll := 0, lostDur := 0, lostDev := 0, lostReg := [], lateWb := [], remoteWr := [] })))
  else s
/-- The peer's identity agrees with the configuration (R177, R230). -/
def identOk (s : State) (p : Nat) (h : Slot) : Bool :=
  let c := (s.port p).cfg
  decide (nbits h 25 24 = c.peerHub.toNat) && decide (bits h 43 26 = c.peerId) && decide (bits h 127 110 = c.peerSize) &&
    (!s.isUplink c || decide (bits h 61 44 = s.links.base))
/-- The peer advertises the minimums of R179 and R232. -/
def minsOk (s : State) (p : Nat) (h : Slot) : Bool :=
  decide ((if (s.port p).cfg.peerHub = 1 then 16 else 0) ≤ nbits h 73 62) && decide (32 ≤ nbits h 85 74) && decide (32 ≤ nbits h 97 86) && decide (36 ≤ nbits h 109 98)
/-- The peer's LInitParam (R174-R179): checked, its credits taken, answered with LInitAck. A port that is
already up ignores one (DESIGN CHOICE, log 111). -/
def paramIn (p : Nat) (h : Slot) (s : State) : State :=
  let q := s.port p
  if q.link ≠ 2 then s
  else
  let s := s.updPort p (fun q => { q with peerId := bits h 43 26, peerSize := bits h 127 110 })
  if !bit h 8 then holdPort p 1 s
  else if !identOk s p h then holdPort p 2 s
  else if !minsOk s p h then holdPort p 3 s
  else
    let hub := decide (q.cfg.peerHub = 1)
    let cr := fun (l : List Nat) => (l.zip (List.range 4)).foldl (fun (m : NMap Nat) x => NMap.set 0 m x.2 x.1) []
    let s := if q.gotParam then s else s.updPort p (fun q => { q with
      gotParam := true, rev := 1
      txCr := cr [nbits h 73 62, nbits h 85 74, nbits h 97 86, nbits h 109 98], rxCr := cr [512, if hub then 512 else 0, 512, 2304] })
    initDone p (txLink p initAck s)
/-- The peer's LInitAck (R174, R176). -/
def initAckIn (p : Nat) (h : Slot) (s : State) : State :=
  let r := bits h 15 8
  if (s.port p).link ≠ 2 then s
  else if r ≠ 1 then holdPort p 1 (s.updPort p (fun q => { q with gotAck := some r }))
  else initDone p (s.updPort p (fun q => { q with gotAck := some r }))
/-- A reserved bit of LInitAck or LRetryReq is set (R8, R175, R201); LInitParam has none. -/
def linkRsv (h : Slot) : Bool := (Hd.op h = 0xF1 && decide (nbits h 127 16 ≠ 0)) || (Hd.op h = 0xF2 && decide (nbits h 127 24 ≠ 0))
/-- A LINK message (R175). A malformed one is a violation like any other (R201, R386), in initialisation too, which it ends: the port is frozen (DEDUCED,
log 138). -/
def linkIn (p : Nat) (h : Slot) (s : State) : State :=
  let op := Hd.op h
  let q := s.port p
  if linkRsv h && (q.open_ && !q.inRec || decide (op = 0xF1 ∧ q.link = 2)) then resetDone p (badAnswer p 3 h s)
  else if op = 0xF0 then paramIn p h s else if op = 0xF1 then initAckIn p h s
  else if op = 0xF2 && q.open_ && !q.inRec then retryIn p h s else s
/-- L_INIT_PARAM (R177). -/
def execLInitParam (port : BitVec 4) (h : Slot) (s : State) : Ans := .next (act s (linkIn port.toNat (putBits h 0 8 0xF0) s))
/-- L_INIT_ACK (R176). -/
def execLInitAck (port : BitVec 4) (h : Slot) (s : State) : Ans := .next (act s (linkIn port.toNat (putBits h 0 8 0xF1) s))
/-- L_RETRY_REQ (R172). -/
def execLRetryReq (port : BitVec 4) (h : Slot) (s : State) : Ans := .next (act s (linkIn port.toNat (putBits h 0 8 0xF2) s))

/-- One slot of the delivered stream (R168): it continues a message or begins one; a whole message is processed. -/
def slotIn (p : Nat) (x : Slot) (s : State) : State :=
  let q := s.port p
  if q.asm.isEmpty && x = 0 then s
  else
    let a := q.asm ++ [x]
    let h := a.headD 0
    let op := Hd.op h
    if a.length < Hd.len op then s.updPort p (fun q => { q with asm := a })
    else
      let s := s.updPort p (fun q => { q with asm := [] })
      let body := a.drop (if op = 0x8C then 2 else 1)
      let d : Line := BitVec.ofNat 1024 (body.foldr (fun x n => x.toNat + n <<< 128) 0)
      if 0xF0 ≤ op then badAnswer p 3 h s else message p h (if op = 0x8C then a.getD 1 0 else 0) d s
/-- Slot i of a flit (R165). -/
def slotOf (f : Flit) (i : Nat) : Slot := BitVec.ofNat 128 (nbits f (128 * i + 127) (128 * i))
/-- FLIT_RECEIVED (R166-R171, R178): the ACK of a flit delivered is in the next flit that leaves, an IDLE one at the latest. -/
def flitIn (p : Nat) (f : Flit) (s : State) : State :=
  let q := s.port p
  if !(decide (p < s.nPorts) && (q.link = 2 || q.open_) && !q.inRec) then s
  else if (crc64 (leBytes 248 (nbits f 1983 0))).toNat ≠ nbits f 2047 1984 then
    txLink p (retryReq q.rxE) (monPort p 4 1 (s.updPort p (fun q => { q with crcErrors := q.crcErrors + 1, inRetry := true })))
  else
    let s := if q.open_ then ackIn p (bits f 1983 1968) (creditsIn p f s) else s
    let sq := bits f 1967 1952
    if sq = 0xFFFF then
      (List.range 15).foldl (fun s i => let x := slotOf f i
        if 0xF0 ≤ Hd.op x then linkIn p x s else s) s
    else if sq = (s.port p).rxE && (s.port p).open_ then
      let s := monPort p 2 1 (s.updPort p (fun q => { q with rxE := seqNext q.rxE, inRetry := false }))
      let s := (List.range 15).foldl (fun s i => slotIn p (slotOf f i) s) s
      if (s.port p).open_ && !(s.port p).inRec then ctrlFlit p 0 s else s
    else s
/-- FLIT_RECEIVED (R170). -/
def execFlitReceived (port : BitVec 4) (f : Flit) (s : State) : Ans := .next (act s (flitIn port.toNat f s))
/-- LRETRY_REQ_REPEAT (R170). -/
def execLretryReqRepeat (port : BitVec 4) (s : State) : Ans :=
  let p := port.toNat
  .next (act s (if (s.port p).inRetry && (s.port p).open_ && !(s.port p).inRec then txLink p (retryReq (s.port p).rxE) s else s))
/-- ACK_TIMEOUT (R172, R173): the oldest unacknowledged flit has been held for 4 µs. -/
def execAckTimeout (port : BitVec 4) (s : State) : Ans :=
  let p := port.toNat
  let q := s.port p
  .next (act s (match q.replay with
    | x :: _ => if q.open_ && !q.inRec then replayFrom p x.1 (s.updPort p (fun q => { q with ackTimeouts := q.ackTimeouts + 1 })) else s
    | [] => s))
/-- PHY_RECOVERY_END (R173): the link goes on where it stood, or is down. -/
def execPhyRecoveryEnd (port : BitVec 4) (up : Bool) (s : State) : Ans :=
  let p := port.toNat
  .next (act s (if !(s.port p).inRec then s
    else if up then recompute (flowCredits p (flushTx p (s.updPort p (fun q => { q with inRec := false, replayFrom := none })))) else linkDown p s))

/-- Everything of a port that its link holds, as initialisation starts (R174): the configuration stored last comes into use (R205). -/
def startInit (p : Nat) (rate : BitVec 2) (width : Byte) (s : State) : State :=
  let s := s.updPort p (fun q => { q with
    cfg := q.cfgNext
    link := 2, hold := 0, rate := rate, width := width, gotParam := false, gotAck := none, rev := 0, txSeq := 0, replay := [], noProg := 0, rxE := 0
    inRetry := false, asm := [], recs := [], inRec := false, txCr := [], crIn := [], rxCr := [], crOut := [], crOwe := [], freed := [], replayFrom := none })
  txLink p (initParam s p) s
/-- A port trains with the configuration stored for it, where that enables it (R205). -/
def trainPort (p : Nat) (s : State) : State :=
  s.updPort p (fun q => { q with cfg := q.cfgNext, link := if q.cfgNext.enable then 1 else 0, hold := 0 })
/-- PORT_L0_REACHED (R163, R174): the PHY of a training port has reached L0 at a rate within MAX_RATE and the cap of R507 and a
width of x4 or x8; a configuration stored meanwhile that disables the port is used instead (R205). -/
def execPortL0Reached (port : BitVec 4) (rate : BitVec 2) (width : Byte) (s : State) : Ans :=
  let p := port.toNat
  .next (act s (if (s.port p).link = 1 && (width = 4 || width = 8) && decide (rate.toNat ≤ (s.port p).cfg.maxRate.toNat) && decide (rate.toNat ≤ (s.port p).rateCap.toNat) then
    (if (s.port p).cfgNext.enable then startInit p rate width s else resetDone p (trainPort p s)) else s))
/-- L_INIT_PARAM_RESEND (R174). -/
def execLInitParamResend (port : BitVec 4) (s : State) : Ans :=
  let p := port.toNat
  .next (act s (if (s.port p).link = 2 then txLink p (initParam s p) s else s))
/-- INIT_TIMEOUT (R174). -/
def execInitTimeout (port : BitVec 4) (s : State) : Ans :=
  .next (act s (if (s.port port.toNat).link = 2 then holdPort port.toNat 5 s else s))
/-- INIT_RETRY (R174). -/
def execInitRetry (port : BitVec 4) (s : State) : Ans :=
  let p := port.toNat
  .next (act s (if (s.port p).link = 4 && (s.port p).hold = 5 && (s.port p).cfg.enable then trainPort p s else s))
/-- WIDTH_FAILED (R163): the link cannot reach x4 at 8 GT/s or more. -/
def execWidthFailed (port : BitVec 4) (s : State) : Ans :=
  .next (act s (if (s.port port.toNat).link = 1 then holdPort port.toNat 4 s else s))

/-- The range of a configuration fits the hierarchy (R229). -/
def rangeOk (s : State) (p : Nat) (c : PortCfg) : Bool :=
  let lo := c.peerId.toNat
  let hi := lo + c.peerSize.toNat
  let b := s.links.base.toNat
  let e := b + s.links.size.toNat
  let isUp := s.isUplink
  let down := decide (b + 1 ≤ lo) && decide (hi ≤ e) && decide (lo < hi) && (c.peerHub = 1 || c.peerSize = 1)
  let others := (List.range s.nPorts).filter (fun q => q ≠ p && (s.port q).cfgNext.enable)
  let meets := fun (d : PortCfg) => !isUp c && !isUp d && decide (lo < d.peerId.toNat + d.peerSize.toNat) && decide (d.peerId.toNat < hi)
  (down || isUp c) && !others.any (fun q => meets (s.port q).cfgNext) && !(isUp c && others.any (fun q => isUp (s.port q).cfgNext)) &&
    !(isUp c && s.links.depth = 1) && !(down && c.peerHub = 1 && s.links.depth = 6)
/-- PORT_CONFIG (R205, R229): stored, used at the port's next initialisation. ENABLE 1 for a disabled port starts no training by itself: PORT_RESET
does (DESIGN CHOICE, log 91). -/
def execPortConfig (p : Packet) (s : State) : Ans :=
  let n := p.target.toNat
  let b := p.par 0 16
  .next (cmd 0xA0 [mY, mC] 0 false p
    (fun s => [(p.rsv 16 0 false || s.nPorts ≤ n || portCfgBad b || !rangeOk s n (portCfgOf b), St.invalid_param)])
    (fun s => complete p St.ok 0 (s.updPort n (fun q => { q with cfgNext := portCfgOf b }))) s)
/-- All Walkan state of a port is cleared (R206 step 2); what its loss has started goes on, and its configuration stays. Its stride detectors are
invalid and its stream candidates gone after it (DESIGN CHOICE, log 82). -/
def clearPort (p : Nat) (s : State) : State :=
  s.updPort p (fun q => { Port.init with cfg := q.cfg, cfgNext := q.cfgNext, purge := q.purge, lostLines := q.lostLines, marginLow := q.marginLow, rateCap := q.rateCap })
/-- PORT_RESET steps 2 and 3 (R206), for every one whose purge of step 1 has ended. -/
def resetStep2 (s : State) : State :=
  (s.cp.prog.filter (fun g => g.op = 0xA1 && g.stage = 1 && !(s.port g.p.target.toNat).purge)).foldl (fun s g =>
    let n := g.p.target.toNat
    let s := recompute (trainPort n (clearPort n (updProg g.id (fun g => { g with stage := 2 }) s)))
    if (s.port n).link = 0 then resetDone n s else s) s
/-- PORT_RESET (R206): the directory presence of the port is purged as for a lost agent, then the port starts anew. -/
def execPortReset (p : Packet) (s : State) : Ans :=
  let n := p.target.toNat
  .next (act s (cmd 0xA1 [mY, mC] 0 false p
    (fun s => [(p.rsv 0 0 false || s.nPorts ≤ n, St.invalid_param), ((s.port n).link = 3, St.port_active)])
    (fun s =>
      let s := begin_ 0xA1 p 1 0 0 s
      let q := s.port n
      resetStep2 (if q.open_ then loseAgent n s else s)) s))
/-- The PORT_QUERY block (R207). -/
def portBlock (q : Port) : List Byte :=
  block 64 [(0, 1, q.link.toNat), (1, 1, q.rate.toNat), (2, 1, q.width.toNat), (3, 1, q.rev.toNat), (4, 1, q.hold.toNat), (8, 4, q.peerId.toNat),
    (12, 4, q.peerSize.toNat), (16, 8, q.crcErrors.toNat), (24, 8, q.replays.toNat), (32, 8, q.recoveries.toNat), (40, 8, q.ackTimeouts.toNat)]
/-- The port that PORT_QUERY shows: in REPLAY the agent ports stand idle as they were, whatever the replay feeds the slices (R493). -/
def portShown (s : State) (n : Nat) : Port :=
  match s.rec_.saved with
  | some v => if s.mode = 4 then NMap.get Port.init v.links.ports n else s.port n
  | none => s.port n
/-- PORT_QUERY (R207). -/
def execPortQuery (p : Packet) (s : State) : Ans :=
  let n := p.target.toNat
  .next (cmd 0xA2 [mY, mC, mR, mD] 0 false p
    (fun s => [(p.rsv 8 0 false || s.nPorts ≤ n || badBuf p.addr 64 64, St.invalid_param)])
    (fun s => completeBlock p (portBlock (portShown s n)) St.ok 0 s) s)

end Sys2Proof.Machine
end

