-- ==== Sys2Proof/Machine/Region.lean ====
section
/-! DEFINITION. Region commands (R37-R49, R524). -/
namespace Sys2Proof.Machine

/-- The entry in REGION_SET's parameters (R25), with the mask bits of absent ports ignored (R2) and VALID as written ignored. -/
def setEntry (s : State) (p : Packet) : Region :=
  let e : Region := p.params.setWidth 320 &&& ~~~(BitVec.ofNat 320 (2 ^ 63))
  if s.boot.small then putBits (putBits e 162 4 0) 150 4 0 else e
/-- A reserved bit or a reserved encoding of an entry (R25, R8). -/
def entryRsv (e : Region) : Bool :=
  decide (nbits e 62 40 ≠ 0) || decide (nbits e 127 104 ≠ 0) || decide (nbits e 191 186 ≠ 0) || decide (nbits e 141 136 ≠ 0) || bit e 130 ||
    bit e 254 || decide (nbits e 319 296 ≠ 0) || decide (Rg.smode e = 3) || decide (Rg.il e = 3)
/-- A row of R30 that an entry breaks, the bitmap conditions apart. -/
def entryBad (s : State) (e : Region) : Bool :=
  entryRsv e || decide (Rg.base e % 32 ≠ 0) || decide (Rg.off e % 32 ≠ 0) ||
    decide (Rg.size e = 0) || decide (Rg.size e % (32 * Rg.ways e) ≠ 0) || decide (2 ^ 40 < Rg.base e + Rg.size e) ||
    (decide (Rg.pol e = 3) && (Rg.dur e || Rg.comb e || Rg.zt e || decide (Rg.smode e ≠ 0))) ||
    (decide (Rg.smode e ≠ 0) && (!Rg.dur e || decide (2 ≤ Rg.pol e) || Rg.remote e)) ||
    (Rg.remote e && (Rg.dur e || Rg.zt e || decide (Rg.il e ≠ 0) || decide (Rg.fp e ≠ 0) || decide (Rg.off e ≠ 0))) ||
    (!Rg.remote e && decide (Rg.hub e ≠ 0)) || (decide (Rg.smode e ≠ 1) && decide (Rg.sid e ≠ 0)) ||
    (decide (Rg.il e = 1) && decide (Rg.fp e % 2 ≠ 0)) || (decide (Rg.il e = 2) && (decide (Rg.fp e ≠ 0) || s.boot.small)) ||
    (!Rg.remote e && decide (s.nFar < Rg.fp e + Rg.ways e)) || (!Rg.zt e && (decide (Rg.ztb e ≠ 0) || Rg.ztInit e))
/-- Two ranges of numbers overlap. -/
def meet (a n b m : Nat) : Bool := decide (a < b + m) && decide (b < a + n)
/-- The bitmap conditions of R48: one valid entry holds every bitmap line and meets each of them. -/
def bitmapBad (s : State) (e : Region) : Bool :=
  Rg.zt e && !s.regions.any (fun x =>
    Rg.valid x.2 && decide (Rg.base x.2 ≤ Rg.ztb e) && decide (Rg.ztb e + Rg.ztn e ≤ Rg.base x.2 + Rg.size x.2) &&
      decide (Rg.masks x.2 = 0) && decide (Rg.pol x.2 = 2) && !Rg.zt x.2 && !Rg.remote x.2 && (Rg.dur x.2 || !Rg.dur e))
/-- Far lines of an entry on a port: first and count (R32). -/
def farRange (e : Region) (p : Nat) : Nat × Nat :=
  if Rg.remote e || p < Rg.fp e || Rg.fp e + Rg.ways e ≤ p then (0, 0) else (Rg.off e, Rg.size e / Rg.ways e)
/-- REGION_OVERLAP (R31, R48). -/
def entryOverlaps (s : State) (e : Region) : Bool :=
  s.regions.any (fun x => Rg.valid x.2 && meet (Rg.base e) (Rg.size e) (Rg.base x.2) (Rg.size x.2)) ||
    (Rg.zt e && s.regions.any (fun x => Rg.valid x.2 && Rg.zt x.2 && meet (Rg.ztb e) (Rg.ztn e) (Rg.ztb x.2) (Rg.ztn x.2)))
/-- FAR_ALIAS (R31). -/
def farAlias (s : State) (e : Region) : Bool :=
  s.regions.any (fun x => Rg.valid x.2 && (List.range 4).any (fun p =>
    let a := farRange e p
    let b := farRange x.2 p
    decide (a.2 ≠ 0) && decide (b.2 ≠ 0) && meet a.1 a.2 b.1 b.2))
/-- TARGET_RANGE (R31): the range runs past the capacity that the device of a named port reported at enumeration; with no device trained none is
reported. -/
def targetRange (s : State) (e : Region) : Bool :=
  (List.range 4).any (fun p =>
    let a := farRange e p
    decide (a.2 ≠ 0) && decide ((s.farP p).cap.toNat < a.1 + a.2))
/-- A DURABLE entry names a device that is not persistent: one without a GPF DVSEC (R18, R28, R330; DEDUCED 11). -/
def notPersistent (s : State) (e : Region) : Bool :=
  Rg.dur e && (List.range 4).any (fun p => decide ((farRange e p).2 ≠ 0) && !(s.farP p).gpf)
/-- The checks of R524 on REGION_SET after MODE_REFUSED; none of them is made once the table is locked. -/
def regionSetChecks (p : Packet) (s : State) : List (Bool × BitVec 16) :=
  let e := setEntry s p
  if s.locked then []
  else [(p.rsv 40 0 false || decide (1023 < p.target.toNat) || entryBad s e || bitmapBad s e, St.invalid_param),
    (Rg.valid (s.region p.target.toNat), St.region_busy), (entryOverlaps s e, St.region_overlap), (farAlias s e, St.far_alias),
    (targetRange s e, St.target_range)]
/-- A command that would change the table after REGION_LOCK (R43). -/
def lockedOut (p : Packet) (s : State) : State := complete p St.region_locked 0 (lockViolation s)
/-- Zeros to every bitmap line of an entry (R49). -/
def zeroBitmap (e : Region) (s : State) : State :=
  (List.range (Rg.ztn e)).foldl (fun s k => (farWrite (BitVec.ofNat 40 (Rg.ztb e + k)) 0 fullMask false .ztInit s).1) s
/-- Write the entry; with ZT_INIT its bitmap is zeroed first and VALID follows (R49). -/
def regionWrite (p : Packet) (s : State) : State :=
  let e := setEntry s p
  let i := p.target.toNat
  let held := e &&& ~~~(BitVec.ofNat 320 (2 ^ 135))
  let s := { s with cache.bitmap := dropBitmap e s.cache.bitmap }
  let res := b2n (notPersistent s e)
  if Rg.ztInit e then
    zeroBitmap e (begin_ 0x10 p 2 res 0 { s with regions := NMap.set 0 s.regions i held })
  else complete p St.ok res { s with regions := NMap.set 0 s.regions i (held ||| BitVec.ofNat 320 (2 ^ 63)) }
/-- REGION_SET (R30, R31, R39, R48, R49, R524). -/
def execRegionSet (p : Packet) (s : State) : Ans :=
  .next (act s (cmd 0x10 [mY, mC] 0 false p (regionSetChecks p) (fun s => if s.locked then lockedOut p s else regionWrite p s) s))

/-- An open stream context is bound to the entry, or the entry holds the bitmap of a valid tracked region (R40, R48). -/
def entryHeld (s : State) (i : Nat) : Bool :=
  let e := s.region i
  s.str.ctx.any (fun c => decide (c.2.state ≠ 0) && decide (c.2.region.toNat = i)) ||
    s.regions.any (fun x => Rg.valid x.2 && Rg.zt x.2 && meet (Rg.ztb x.2) (Rg.ztn x.2) (Rg.base e) (Rg.size e))
/-- REGION_CLEAR (R40): its steps go on with the rows of the slices and the walks. -/
def execRegionClear (p : Packet) (s : State) : Ans :=
  let i := p.target.toNat
  .next (act s (cmd 0x11 [mY, mC] 0 false p
    (fun s => if s.locked then [] else
      [(p.rsv 0 0 false || decide (1023 < i), St.invalid_param), (!Rg.valid (s.region i), St.no_region), (entryHeld s i, St.region_busy)])
    (fun s => if s.locked then lockedOut p s else
      begin_ 0x11 p 2 0 0 (if s.replayable && decide (s.rec_.region = i) then recStop 4 s else s)) s))

/-- The masks of a REGION_PERM take effect (R38), both at one core clock. -/
def setPerm (p : Packet) (s : State) : State :=
  let m := fun (v : Nat) => if s.boot.small then v % 256 else v
  { s with regions := NMap.upd 0 s.regions p.target.toNat (fun e => putBits (putBits e 142 12 (m (p.par 0 2))) 154 12 (m (p.par 2 2))) }
/-- REGION_PERM (R38). -/
def execRegionPerm (p : Packet) (s : State) : Ans :=
  let i := p.target.toNat
  .next (act s (cmd 0x12 [mY, mC] 0 false p
    (fun s => if s.locked then [] else
      [(p.rsv 4 0 false || decide (1023 < i) || decide (0xFFF < p.par 0 2) || decide (0xFFF < p.par 2 2), St.invalid_param),
        (!Rg.valid (s.region i), St.no_region)])
    (fun s =>
      if s.locked then lockedOut p s
      else complete p St.ok 0 (setPerm p s)) s))

/-- The REGION_QUERY block (R38). -/
def regionBlock (e : Region) : List Byte := block 64 [(0, 40, (e &&& ~~~(BitVec.ofNat 320 (2 ^ 135))).toNat)]
/-- REGION_QUERY (R38). -/
def execRegionQuery (p : Packet) (s : State) : Ans :=
  .next (cmd 0x13 [mY, mC] 0 false p
    (fun _ => [(p.rsv 8 0 false || decide (1023 < p.target.toNat) || badBuf p.addr 64 64, St.invalid_param)])
    (fun s => completeBlock p (regionBlock (s.region p.target.toNat)) St.ok 0 s) s)

/-- The REGION_LOOKUP result for a line and the entry that covers it (R38). -/
def lookupResult (l : LineNo) (i : Nat) (e : Region) : Nat :=
  let f := if Rg.remote e then (0, 0) else Rg.far e l.toNat
  i + homeSlice l * 2 ^ 10 + b2n (Rg.remote e) * 2 ^ 13 + f.1 * 2 ^ 14 + f.2 * 2 ^ 16
/-- REGION_LOOKUP (R38). -/
def execRegionLookup (p : Packet) (s : State) : Ans :=
  .next (cmd 0x14 [mY, mC] 0 false p (fun _ => [(p.rsv 5 0 true, St.invalid_param)])
    (fun s =>
      let l : LineNo := BitVec.ofNat 40 (p.par 0 5)
      match s.cover l with
      | some (i, e) => complete p St.ok (lookupResult l i e) s
      | none => complete p St.no_region 0 s) s)

/-- REGION_LOCK (R43): a second one only sets LOCK_VIOLATION. -/
def execRegionLock (p : Packet) (s : State) : Ans :=
  .next (cmd 0x15 [mY, mC] 0 false p (fun _ => [(p.rsv 0 0 true, St.invalid_param)])
    (fun s => complete p St.ok 0 (if s.locked then lockViolation s else { s with trip.lock := Trip.all 1 })) s)

end Sys2Proof.Machine
end

