-- ==== Sys2Proof/Machine/Regul.lean ====
section
/-! DEFINITION. Regulation: its commands, samples and windows, and the capacities that change under it (R282, R345-R361). -/
namespace Sys2Proof.Machine

/-- The pair a target names: port in [3:0], class in [6:4] (R360), as 5p + c. -/
def pairOf (t : BitVec 32) : Nat := 5 * nbits t 3 0 + nbits t 6 4
/-- A target that names no pair (R2, R360). -/
def badPair (s : State) (t : BitVec 32) : Bool := decide (127 < t.toNat) || decide (s.nPorts ≤ nbits t 3 0) || decide (4 < nbits t 6 4)
/-- The guarantees with one of them replaced. -/
def withGuar (s : State) (k : Nat) (g : Guar) : NMap Guar := NMap.set Guar.init s.regl.guar k g
/-- The new guarantee charges nothing more than the old one, on any resource (R352). -/
def onlyLowers (s : State) (k : Nat) (g : Guar) : Bool :=
  resources.all (fun r => decide (charge s k g r ≤ charge s k (s.guar k) r))
/-- The first resource whose admission limit the charges pass, with the excess in MB/s, or in entries for resource 5 (R352). -/
def overcommit (s : State) (k : Nat) (g : Guar) : Option (Nat × Nat) :=
  if onlyLowers s k g then none
  else (resources.find? (fun r => decide (limitOf s r < chargeSum s (withGuar s k g) r))).map
    (fun r => (r.1, (chargeSum s (withGuar s k g) r - limitOf s r) / 100))
/-- The guarantee in REG_GUAR_SET's parameters; it keeps the pair's factor until R355 recomputes it. -/
def guarOf (s : State) (p : Packet) : Guar :=
  let old := s.guar (pairOf p.target)
  if p.par 0 8 = 0 then Guar.init else ⟨p.par 0 4, p.par 4 4, p.par 8 1, p.par 9 1, true, if old.on then old.f else 1024, 0, true, old.lim⟩
/-- REG_GUAR_SET (R350-R352). -/
def execRegGuarSet (p : Packet) (s : State) : Ans :=
  let k := pairOf p.target
  .next (act s (cmd 0x60 [mY, mC] 0 false p
    (fun s => [(badPair s p.target || p.rsv 10 0 false || decide (k % 5 = 4) || decide (26200 < p.par 0 4) || decide (26200 < p.par 4 4) ||
        decide (100 < p.par 8 1) || decide (100 < p.par 9 1), St.invalid_param)])
    (fun s =>
      let g := guarOf s p
      match overcommit s k g with
      | some (r, x) => complete p St.overcommit (r + x % 2 ^ 40 * 256) s
      | none => complete p St.ok 0 (recomputeRsv (rescale { s with regl.guar := withGuar s k g }).1)) s))
/-- REG_CAP_SET (R349). -/
def execRegCapSet (p : Packet) (s : State) : Ans :=
  .next (act s (cmd 0x61 [mY, mC] 0 false p
    (fun s => [(badPair s p.target || p.rsv 2 0 false || decide (1024 < p.par 0 2), St.invalid_param)])
    (fun s => complete p St.ok 0 { s with regl.cap := NMap.set 1024 s.regl.cap (pairOf p.target) (p.par 0 2) }) s))
/-- REG_FAR_PLAN (R353, R360). -/
def execRegFarPlan (p : Packet) (s : State) : Ans :=
  let n := p.target.toNat
  .next (act s (cmd 0x62 [mY, mC] 0 false p
    (fun s => [(p.rsv 8 0 false || decide (s.nFar ≤ n) || p.par 0 4 = 0 || decide (26200 < p.par 0 4) || p.par 4 4 = 0 || decide (26200 < p.par 4 4),
      St.invalid_param)])
    (fun s => complete p St.ok 0 (recompute (s.updFar n (fun f => { f with
      readPlan := BitVec.ofNat 32 (p.par 0 4), writePlan := BitVec.ofNat 32 (p.par 4 4) })))) s))
/-- REG_PARAM_SET (R350, R357, R360): windows restart. -/
def execRegParamSet (p : Packet) (s : State) : Ans :=
  .next (act s (cmd 0x63 [mY, mC] 0 false p
    (fun _ => [(p.rsv 4 0 true || decide (p.par 0 1 < 50) || decide (100 < p.par 0 1) || decide (p.par 1 1 < 16) || decide (64 < p.par 1 1) ||
      p.par 2 2 = 0 || decide (1000 < p.par 2 2), St.invalid_param)])
    (fun s => complete p St.ok 0 (recompute (windowStart { s with
      regl.admitPct := p.par 0 1, regl.margin := p.par 1 1, regl.window := p.par 2 2 }))) s))
/-- The REG_QUERY block (R361). FAR_WR of an STW pair is the value given, not the 100 it is taken as (R351; DESIGN CHOICE, log 135). -/
def regBlock (s : State) (k : Nat) : List Byte :=
  let g := s.guar k
  let c := NMap.get 1024 s.regl.cap k
  block 64 [(0, 4, g.rd), (4, 4, g.wr), (8, 8, g.farRd + g.farWr * 2 ^ 8 + g.f * 2 ^ 16 + c * 2 ^ 32 + capEff s (k / 5) (k % 5) * 2 ^ 48),
    (16, 8, g.rsv), (24, 8, s.latOf k), (32, 8, NMap.get 0 (s.port (k / 5)).opn k), (40, 8, (NMap.get 0 s.regl.stalls k).toNat),
    (48, 8, (NMap.get 0 s.regl.misses k).toNat), (56, 8, NMap.get 0 s.regl.delivLast k)]
/-- REG_QUERY (R361). -/
def execRegQuery (p : Packet) (s : State) : Ans :=
  let k := pairOf p.target
  .next (cmd 0x64 [mY, mC, mR, mD] 0 false p (fun s => [(badPair s p.target || p.rsv 8 1 false || badBuf p.addr 64 64, St.invalid_param)])
    (fun s => completeBlock p (regBlock s k) St.ok 0
      (if p.flag 0 then { s with regl.stalls := NMap.set 0 s.regl.stalls k 0, regl.misses := NMap.set 0 s.regl.misses k 0 } else s)) s)
/-- The REG_CAPACITY_QUERY block (R361): K_ref in bits [31:0] of its word and K_thr in [63:32], every quotient rounded down (DESIGN CHOICE, log 134). -/
def capacityBlock (s : State) : List Byte :=
  block 64 ((List.range 3).flatMap (fun r => [(8 * r, 4, capOf s (r, 0)), (8 * r + 4, 4, chargeSum s s.regl.guar (r, 0) / 100)]) ++
    [(24, 8, rsvSum s.regl.guar), (32, 4, kRef s * 1024 / 100), (36, 4, kThr s * 256)])
/-- REG_CAPACITY_QUERY (R361). -/
def execRegCapacityQuery (p : Packet) (s : State) : Ans :=
  .next (cmd 0x65 [mY, mC, mR, mD] 0 false p (fun _ => [(p.rsv 8 0 true || badBuf p.addr 64 64, St.invalid_param)])
    (fun s => completeBlock p (capacityBlock s) St.ok 0 s) s)

/-- U in bytes (R282): durable-class writes accepted and neither persisted nor lost, 128 bytes each. -/
def durableOpen (s : State) : Nat := 128 * (s.links.writes.filter (fun w => w.dur && !w.lost && decide (w.pt < 3))).length
/-- A port is a durable writer (R282). -/
def durWriter (s : State) (p : Nat) : Bool := s.regions.any (fun e => Rg.valid e.2 && Rg.dur e.2 && Rg.wr e.2 p)
/-- R_hold (R282). -/
def rHold (s : State) : Nat :=
  (((List.range 12).filter (durWriter s)).map (fun p => NMap.get 0 (s.port p).rxCr 0 + (s.port p).rxReq.length)).sum
/-- k REQ credits may go back to a port (R282). -/
def mayReturn (s : State) (p k : Nat) : Bool := !durWriter s p || decide (durableOpen s + 128 * (rHold s + k) ≤ s.budget * 2 ^ 20)
/-- The port is held back under R282: it is owed credits and not one may go. -/
def budgetHeld (s : State) (p : Nat) : Bool := decide (NMap.get 0 (s.port p).freed 0 ≠ 0) && !mayReturn s p 1
/-- CREDIT_RETURN (R178, R282): as many of the freed credits as the row names, where the budget allows them. -/
def creditReturn (p k : Nat) (s : State) : State :=
  let q := s.port p
  if k = 0 || NMap.get 0 q.freed 0 < k || !q.open_ || !mayReturn s p k then s
  else flowCredits p (s.updPort p (fun q => { q with
    freed := NMap.upd 0 q.freed 0 (· - k), rxCr := NMap.upd 0 q.rxCr 0 (· + k), crOwe := NMap.upd 0 q.crOwe 0 (· + k) }))
/-- CREDIT_RETURN (R282). -/
def execCreditReturn (port : BitVec 4) (k : Nat) (s : State) : Ans := .next (act s (creditReturn port.toNat k s))

/-- A pair shows demand (R356). -/
def demands (s : State) (k : Nat) : Bool :=
  let p := k / 5
  let q := s.port p
  (decide (NMap.get 0 q.opn k ≠ 0) || q.rxReq.any (fun m => decide ((Hd.tc m.h).toNat = k % 5))) && decide (q.link ≠ 5) && !budgetHeld s p
/-- GUAR_SAMPLE (R356). -/
def execGuarSample (s : State) : Ans :=
  .next (act s { s with
    regl.samples := s.regl.samples + 1
    regl.demand := (List.range 60).foldl (fun m k => if demands s k then NMap.upd 0 m k (· + 1) else m) s.regl.demand })
/-- Core clocks in one AO clock of 40 ns by core bin (R502). -/
def coreClocks (s : State) : Nat := 80 - 4 * s.age.bin.toNat
/-- LAT of every pair with at least 1,000 ends in the window (R350). -/
def windowLat (s : State) : NMap Nat :=
  s.regl.latSum.foldl (fun m e => if e.2.1 < 1000 then m else NMap.set 560000 m e.1 (e.2.2 * 40000 / (coreClocks s * e.2.1))) s.regl.lat
/-- A guaranteed pair missed its guarantee in the window (R356, R357). -/
def missed (s : State) (k : Nat) (g : Guar) : Bool :=
  let n := s.regl.samples
  let d := NMap.get 0 s.regl.demand k
  g.on && !g.changed && decide (n ≠ 0) && decide (n ≤ 2 * d) &&
    decide (NMap.get 0 s.regl.deliv k * 1024 * n < g.f * (g.rd + g.wr) * 1000 * s.regl.window * d)
/-- What a miss does (R357); its interrupt is the window end's. -/
def guarMissed (k : Nat) (g : Guar) (s : State) : State :=
  let d := NMap.get 0 s.regl.demand k * 1024 / s.regl.samples
  let s := { s with regs.guarMiss := s.regs.guarMiss ||| BitVec.ofNat 60 (2 ^ k), regl.misses := cntAdd s.regl.misses k 1 }
  postEvent 0x0601 [(0, pairCode k), (2, d), (4, g.f * (g.rd + g.wr) / 1024), (8, NMap.get 0 s.regl.deliv k)] s
/-- The end of a window (R350, R357): one interrupt where any GUAR_MISS bit is set (R405). -/
def windowEnd (s : State) : State :=
  let s := if s.mode = 2 || s.mode = 3 then
      let miss := s.regl.guar.filter (fun e => missed s e.1 e.2)
      let s := miss.foldl (fun s e => guarMissed e.1 e.2 s) s
      if miss.isEmpty then s else sendMsix 17 s
    else s
  let s := { s with regl.lat := windowLat s, regl.delivLast := s.regl.deliv }
  recomputeRsv (windowStart s)
/-- GUAR_WINDOW_END (R357). -/
def execGuarWindowEnd (s : State) : Ans := .next (act s (windowEnd s))

/-- FAR_LINK_STATE_CHANGE (R353, R355): a link comes up at a rate within the cap of R507. A retry of its link layer, which has no row of its own, is
logged as FAR_LINK (R394; log 116). -/
def execFarLinkStateChange (fp : BitVec 2) (link : FarLink) (rate : BitVec 2) (width : Byte) (s : State) : Ans :=
  let q := s.farP fp.toNat
  .next (act s (if s.nFar ≤ fp.toNat then s
    else if link = .retry then (if q.up then logErr 0x0024 0 2 fp.toNat 0 0 1 s else s)
    else if link = .up && !q.up && decide (q.rateCap.toNat < rate.toNat) then s
    else recompute (s.updFar fp.toNat (fun f => { f with up := link = .up, rate := rate, width := width }))))
/-- REFRESH_RATE_CHANGE (R353): a channel refreshes at 1, 2 or 4 times the normal rate. -/
def execRefreshRateChange (ch : BitVec 5) (mult : BitVec 3) (s : State) : Ans :=
  .next (act s (if (mult = 1 || mult = 2 || mult = 4) && decide (ch.toNat < s.nChan) then
    recompute { s with cache.refresh := NMap.set 1 s.cache.refresh ch.toNat mult.toNat } else s))

end Sys2Proof.Machine
end

