-- ==== Sys2Proof/Machine/Stream.lean ====
section
/-! DEFINITION. Stream commands, hashing and holes (R275, R284-R295). -/
namespace Sys2Proof.Machine

/-- A target above the last stream identifier (R292). -/
def badSid (t : BitVec 32) : Bool := decide (0x3FFFF < t.toNat)
/-- WR_MASK in a command's bytes. A region's WR_MASK lacks the bits of absent ports (R2), so a command that sets one is refused (R287, R290). -/
def wrMaskOf (v : Nat) : BitVec 12 := BitVec.ofNat 12 v
/-- WR_MASK of a region entry as 12 bits. -/
def regionWr (e : Region) : BitVec 12 := BitVec.ofNat 12 (nbits e 165 154)
/-- The refusals of STREAM_OPEN (R287, R298), in order. -/
def openChecks (p : Packet) (s : State) : List (Bool × BitVec 16) :=
  let r := p.par 0 2
  let w := wrMaskOf (p.par 2 2)
  let b := p.par 8 5
  let n := p.par 16 5
  let e := s.region r
  [(badSid p.target || p.rsv 26 0 false || p.par 4 4 ≠ 0 || p.par 13 3 ≠ 0 || p.par 21 3 ≠ 0 || decide (1023 < r) || decide (0xFFF < p.par 2 2) ||
      b % 32 ≠ 0 || n % 32 ≠ 0 || n = 0 || decide ((2 ^ 29 - 1) * 32 < n) || w = 0 || decide (23 < p.par 24 1) || decide (15 < p.par 25 1), St.invalid_param),
    (!Rg.valid e, St.no_region),
    (Rg.smode e = 0 || (Rg.smode e = 1 && decide (Rg.sid e ≠ p.target.toNat)) || decide (w &&& ~~~(regionWr e) ≠ 0), St.invalid_param),
    (decide (b < Rg.base e) || decide (Rg.base e + Rg.size e < b + n), St.range_exceeds),
    (decide ((s.ctx p.target.toNat).state ≠ 0), St.stream_busy),
    (s.str.ctx.any (fun c => decide (c.2.state ≠ 0) && meet b n (c.2.ringBase.toNat * 32) c.2.ring), St.ring_overlap)]
/-- A context as STREAM_OPEN leaves it, its open seal point pending (R286, R297). -/
def openCtx (p : Packet) : Ctx :=
  { Ctx.init with
    state := 1, sid := BitVec.ofNat 18 p.target.toNat, region := BitVec.ofNat 10 (p.par 0 2), wrMask := wrMaskOf (p.par 2 2)
    sealN := BitVec.ofNat 5 (p.par 24 1), signK := BitVec.ofNat 4 (p.par 25 1), ringBase := BitVec.ofNat 35 (p.par 8 5 / 32)
    ringLen := BitVec.ofNat 29 (p.par 16 5 / 32), sha := shaIV, pendF := 2 }
/-- STREAM_OPEN (R286, R287). -/
def execStreamOpen (p : Packet) (s : State) : Ans :=
  .next (act s (cmd 0x40 [mY, mC] 1 false p (openChecks p)
    (fun s => complete p St.ok 0 { s.updCtx p.target.toNat (fun _ => openCtx p) with
      str.items := s.str.items.map (fun it => if it.stream = p.target then { it with own := false } else it) }) s))
/-- STREAM_CLOSE (R288). -/
def execStreamClose (p : Packet) (s : State) : Ans :=
  .next (act s (cmd 0x41 [mY, mC] 1 false p
    (fun s => [(badSid p.target || p.rsv 0 0 false, St.invalid_param), ((s.ctx p.target.toNat).state = 0, St.stream_state)])
    (fun s => begin_ 0x41 p 1 0 0 (s.updCtx p.target.toNat (fun c => { c with state := 2 }))) s))
/-- The context in the layout of R264. -/
def ctxBytes (c : Ctx) : List Byte :=
  let spl := if c.state = 0 then c.shutSplit else c.splitOpen
  let cause := if c.state = 0 then c.shutCause else c.badCause
  block 96 ([(0, 8, c.sid.toNat * 2 ^ 46 + c.state.toNat * 2 ^ 43 + c.region.toNat * 2 ^ 33 + c.wrMask.toNat * 2 ^ 21 + b2n c.gapPend * 2 ^ 20 + b2n spl * 2 ^ 19 +
      cause.toNat * 2 ^ 15 + c.sealN.toNat * 2 ^ 10 + c.signK.toNat * 2 ^ 6 + c.blocks.length),
    (8, 8, c.ringBase.toNat * 2 ^ 29 + c.ringLen.toNat), (16, 8, c.wm + c.sealSeq.toNat % 65536 * 2 ^ 48), (24, 8, c.hashed + c.sealSeq.toNat / 65536 * 2 ^ 48)] ++
    (c.sha.zipIdx.map (fun h => (32 + 8 * h.2, 8, h.1.toNat))))
/-- ARRIVED (R294): the lowest tracked offset that is not DONE; where every one of the window is DONE, the first offset beyond the window (DESIGN
CHOICE, log 129). -/
def arrived (c : Ctx) : Nat := ((List.range 4224).map (· + c.bOff) |>.find? (fun n => !(c.off n).done)).getD c.bOff
/-- STREAM_QUERY (R294). -/
def execStreamQuery (p : Packet) (s : State) : Ans :=
  .next (cmd 0x42 [mY, mC, mR, mD] 1 false p
    (fun _ => [(badSid p.target || p.rsv 8 0 false || badBuf p.addr 128 128, St.invalid_param)])
    (fun s =>
      let c := s.ctx p.target.toNat
      completeBlock p (ctxBytes c ++ block 32 [(0, 8, arrived c), (8, 8, unpersisted s p.target.toNat)]) St.ok 0 s) s)
/-- STREAM_WRITERS (R290). -/
def execStreamWriters (p : Packet) (s : State) : Ans :=
  let sid := p.target.toNat
  .next (act s (cmd 0x43 [mY, mC] 1 false p
    (fun s =>
      let w := wrMaskOf (p.par 0 2)
      [(badSid p.target || p.rsv 2 0 false || decide (0xFFF < p.par 0 2) || w = 0 || decide (w &&& ~~~(regionWr (s.region (s.ctx sid).region.toNat)) ≠ 0),
        St.invalid_param), ((s.ctx sid).state ≠ 1, St.stream_state)])
    (fun s => complete p St.ok 0 (s.updCtx sid (fun c => { c with wrMask := wrMaskOf (p.par 0 2) }))) s))
/-- STREAM_ACK_GAP (R280, R293). -/
def execStreamAckGap (p : Packet) (s : State) : Ans :=
  let n := p.par 0 5
  .next (act s (cmd 0x44 [mY, mC] 1 false p
    (fun s =>
      let c := s.ctx p.target.toNat
      [(badSid p.target || p.rsv 5 0 false || n = 0, St.invalid_param), (c.state = 0, St.stream_state), (!c.gapPend, St.no_gap),
        (decide (2 ^ 48 - 2 < c.wm + n), St.range_exceeds)])
    (begin_ 0x44 p 1 n 0) s))
/-- STREAM_NOTIFY (R284, R285, R293): a slot armed at a mark already passed fires at the clock's end. -/
def execStreamNotify (p : Packet) (s : State) : Ans :=
  let k := p.target.toNat
  let sid := p.par 0 4
  .next (act s (cmd 0x45 [mY, mC] 1 false p
    (fun s => if !p.flag 0 then [(decide (4095 < k), St.invalid_param)] else
      [(decide (4095 < k) || p.rsv 22 1 false || decide (0x3FFFF < sid) || p.par 4 4 ≠ 0 || p.par 14 2 ≠ 0, St.invalid_param),
        ((s.ctx sid).state ≠ 1, St.stream_state)])
    (fun s =>
      let s := { s with str.notices := NMap.upd Notice.init s.str.notices k (fun n =>
        if p.flag 0 then { n with armed := true, stream := BitVec.ofNat 18 sid, mark := p.par 8 6, step := p.par 16 6 } else { n with armed := false }) }
      complete p St.ok 0 s) s))
/-- A notice slot as STREAM_NOTIFY_QUERY writes it (R294). -/
def noticeBytes (n : Notice) : List Byte :=
  block 32 [(0, 4, n.stream.toNat), (4, 4, n.crossings.toNat), (8, 8, n.mark), (16, 8, n.step), (24, 1, b2n n.armed + 2 * b2n n.fired)]
/-- STREAM_NOTIFY_QUERY (R285, R294). -/
def execStreamNotifyQuery (p : Packet) (s : State) : Ans :=
  let k := p.target.toNat
  .next (cmd 0x46 [mY, mC, mR, mD] 1 false p (fun _ => [(decide (4095 < k) || p.rsv 8 1 false || badBuf p.addr 32 32, St.invalid_param)])
    (fun s => completeBlock p (noticeBytes (NMap.get Notice.init s.str.notices k)) St.ok 0
      (if p.flag 0 then { s with str.notices := NMap.upd Notice.init s.str.notices k (fun n => { n with fired := false, crossings := 0 }) } else s)) s)
/-- STREAM_GLOBAL_SET (R283, R293). -/
def execStreamGlobalSet (p : Packet) (s : State) : Ans :=
  .next (act s (cmd 0x47 [mY, mC] 1 false p
    (fun _ => [(p.rsv 8 0 true || p.par 2 2 ≠ 0 || p.par 0 2 = 0 || decide (4096 < p.par 0 2) || decide (p.par 4 4 < 10) || decide (1000000 < p.par 4 4), St.invalid_param)])
    (fun s => complete p St.ok 0 { s with trip.budget := Trip.all (BitVec.ofNat 13 (p.par 0 2)), str.holeTo := p.par 4 4 }) s))
/-- The STREAM_GLOBAL_QUERY block (R295). -/
def globalBlock (s : State) : List Byte :=
  block 64 [(0, 8, s.budget), (8, 8, durableOpen s), (16, 8, rHold s), (24, 8, openStreams s), (32, 8, s.str.blocks), (40, 8, s.str.overruns.toNat),
    (48, 8, s.str.gaps.toNat), (56, 8, s.str.holeTo)]
/-- STREAM_GLOBAL_QUERY (R295). -/
def execStreamGlobalQuery (p : Packet) (s : State) : Ans :=
  .next (cmd 0x48 [mY, mC, mR, mD] 1 false p (fun _ => [(p.rsv 8 1 true || badBuf p.addr 64 64, St.invalid_param)])
    (fun s => completeBlock p (globalBlock s) St.ok 0 (if p.flag 0 then { s with str.overruns := 0, str.gaps := 0 } else s)) s)

/-- A seal engine's far read of a line (R366): sent and ended within the row (DESIGN CHOICE, log 88); no data where it fails or is poisoned. -/
def hashGet (l : LineNo) (o : FarEnd) (s : State) : State × Option Line :=
  let (s, id) := farSend (s.farOf l).1 (s.farOf l).2 l false 0 0 false .hash (monSys 0x0E 1 (attrLine l) s)
  match s.links.reqs.find? (fun r => r.id = id) with
  | none => (s, none)
  | some r =>
    let s := { s with links.reqs := s.links.reqs.filter (fun q => q.id ≠ id) }
    if r.atIssue then (logFarRead r 2 0 s, none)
    else
      let x : (Nat ⊕ (Line × Bool)) × State := match o with
        | .timeout => (.inl 1, farDead r.port { s with links.late := s.links.late ++ [id] })
        | .error => injRead r (.inl 0) s
        | .data d p => injRead r (.inr (d, p)) s
      let s := monSys 0x10 0 (attrLine l) (capFarEnd r x.1 x.2)
      match x.1 with
      | .inl c => (logFarRead r c 0 s, none)
      | .inr (_, true) => (logFarPoison r 0 s, none)
      | .inr (d, false) => (s, some d)
/-- What lies beneath the buffered writes of a line that is not on chip: zeros in a granule whose bit is 0, whose bitmap line is read first where it
is not on chip (R50, R52, R249); nothing is allocated (R366). -/
def hashBase (l : LineNo) (far : HashFar) (s : State) : State × Line × Bool :=
  let get := fun (s : State) => let r := hashGet l far.line s; (r.1, r.2.getD 0, r.2.isNone)
  match s.cover l with
  | some (_, e) =>
    if !Rg.zt e then get s
    else match ztBit s e l with
      | some b => if b then get s else (s, 0, false)
      | none =>
        let r := hashGet (ztLine e l) far.map s
        match r.2 with
        | none => (r.1, 0, true)
        | some d =>
          let s := ztPut (ztLine e l) d r.1
          if ztBit s e l = some false then (s, 0, false) else get s
  | none => get s
/-- The line a seal engine reads (R275): the write buffer on top of the system cache, the victim buffer or far memory. -/
def hashRead (l : LineNo) (far : HashFar) (e : ErrPat) (s : State) : State × Line × Bool :=
  let sl := homeSlice l
  let r : State × Line × Bool :=
    if coversAll s l then (s, 0, false)
    else match s.resident l, (s.slice sl).vbOf l with
      | some (set, w), _ =>
        let o := lineOutcome set w l (s.readLine set w e) (burstsNow 3 set w l (decStat (s.readLine set w e)) s)
        match o.1 with
        | some (d, p) => (o.2, d, p)
        | none => hashBase l far o.2
      | none, some v => (s, vbData s v)
      | none, none => hashBase l far s
  let g := overBuffered r.1 l r.2.1 r.2.2
  (r.1, g.1, g.2)
/-- The tag block of the line's set comes on chip for a hashing read's lookup (R71, R77). -/
def hashLook (l : LineNo) (s : State) : State :=
  if s.cache.enabled && s.setUsable l then tagNow (homeSlice l) (s.setOf l) l s else s
/-- A hashing read of a line and what the slice sends of it (R275, R487). -/
def hashServe (l : LineNo) (far : HashFar) (e : ErrPat) (s : State) : State × Line × Bool :=
  let r := hashRead l far e s
  (capOut 21 (homeSlice l) (intDesc 0xCA l.toNat 0 0) (if r.2.2 then [] else wordBytes 128 r.2.1) r.1, r.2)
/-- HASH_LINE (R265, R275): offset HASHED is absorbed, or becomes BAD where its line reads poisoned. Nothing is read of a lost set (R371). -/
def hashLine (sid : Nat) (far : HashFar) (e : ErrPat) (s : State) : State :=
  let c := s.ctx sid
  if !canHash c then s
  else
    let n := c.hashed
    let l := c.lineOfOff n
    let s := hashLook l (capIn 21 (homeSlice l) (intDesc 0xCA l.toNat 0 0) 0 [] s)
    if s.cache.enabled && (s.slice (homeSlice l)).lostSets.contains (s.setOf l) then s
    else
    let r := hashServe l far e s
    if r.2.2 then offBad sid n 2 r.1
    else
      let s := (monSys 0x14 1 ⟨none, none, none, none⟩ r.1).updCtx sid (fun c => { c with sha := shaBlock c.sha (wordBytes 128 r.2.1) })
      let s := releaseOff sid (hashedAt sid (n + 1) s)
      s.updCtx sid (fun c => { c with hole := c.theHole })
/-- HASH_LINE (R275); once the drain records form HASHED is final (R331). -/
def execHashLine (stream : BitVec 18) (far : HashFar) (e : ErrPat) (s : State) : Ans := .next (clocked s (if 5 ≤ s.drain.step then s else hashLine stream.toNat far e s))
/-- HOLE_TIMEOUT (R274, R288): the hole is a missing offset, and a STREAM_CLOSE that waited for it waits for no other. -/
def execHoleTimeout (stream : BitVec 18) (s : State) : Ans :=
  .next (act s (match (s.ctx stream.toNat).hole with | some n => offBad stream.toNat n 4 (closeWaited stream.toNat s) | none => s))

end Sys2Proof.Machine
end

