-- ==== Sys2Proof/Machine/Keys.lean ====
section
/-! DEFINITION. Seal-log commands, keys, roles and the cryptographic module (R305-R322). -/
namespace Sys2Proof.Machine

/-- SEAL (R297, R321): it ends when its record is persisted. -/
def execSeal (p : Packet) (s : State) : Ans :=
  let sid := p.target.toNat
  .next (act s (cmd 0x50 [mY, mC] 1 false p
    (fun s => [(badSid p.target || p.rsv 0 0 false, St.invalid_param), ((s.ctx sid).state ≠ 1, St.stream_state)])
    (fun s => begin_ 0x50 p 1 0 0 (sealPoint sid 8 s)) s))
/-- TIME_ANCHOR (R309). -/
def execTimeAnchor (p : Packet) (s : State) : Ans :=
  let sid := p.target.toNat
  .next (act s (cmd 0x51 [mY, mC] 1 false p
    (fun s => [(p.rsv 8 1 false || decide (2 ^ 63 ≤ p.par 0 8) || (!p.flag 0 && badSid p.target), St.invalid_param),
      (!p.flag 0 && decide ((s.ctx sid).state ≠ 1), St.stream_state)])
    (fun s =>
      let s := { s with ao.anchor := p.addr - 40 * s.ao.time }
      let all := (s.str.ctx.filter (fun e => e.2.state = 1)).map (·.1)
      complete p St.ok 0 (if p.flag 0 then all.foldl (fun s k => sealPoint k 32 s) s else sealPoint sid 32 s)) s))
/-- An entry that may hold the seal log (R305). -/
def logOk (e : Region) : Bool :=
  Rg.valid e && Rg.dur e && decide (Rg.pol e = 2) && decide (Rg.masks e = 0) && !Rg.zt e && !Rg.remote e && decide (131104 ≤ Rg.size e)
/-- SEAL_LOG_SET (R305): with KEY_STATE READY the certificate goes to index 0. -/
def execSealLogSet (p : Packet) (s : State) : Ans :=
  let i := p.target.toNat
  .next (act s (cmd 0x52 [mY, mC] 1 false p
    (fun s => [(p.rsv 0 0 false || decide (1023 < i) || !logOk (s.region i), St.invalid_param), (openStreams s ≠ 0, St.log_busy)])
    (fun (s : State) =>
      let gone := fun (r : FarReq) => match r.purp with | .slot _ => { r with purp := .headTable } | _ => r
      let s : State := { s with links.reqs := s.links.reqs.map gone, links.waitq := s.links.waitq.map gone }
      let s : State := { s with str.log := some i, str.logWrite := 0, str.logRead := 0, str.unpersisted := [], str.items := [], str.lowPosted := false }
      complete p St.ok 0 (if s.keySt = 2 then addItem 0xFFFFFFFE s.keys.cert false s else s)) s))
/-- SEAL_LOG_ACK (R306). -/
def execSealLogAck (p : Packet) (s : State) : Ans :=
  let v := p.par 0 8
  .next (act s (cmd 0x53 [mY, mC, mD] 1 false p
    (fun s => [(p.rsv 8 0 true || decide (v < s.str.logRead) || decide (logPersisted s < v), St.invalid_param)])
    (fun s => complete p St.ok 0 { s with str.logRead := v }) s))
/-- The SEAL_LOG_QUERY block (R322). -/
def sealLogBlock (s : State) : List Byte :=
  let pend := (s.str.ctx.filter (fun e => e.2.pendF ≠ 0)).length
  let sigs := (s.str.items.filter (fun it => it.wantSig && !it.placed)).length
  match s.str.log with
  | some i => block 64 [(0, 8, i), (8, 8, ringSlots s), (16, 8, s.str.logWrite), (24, 8, logPersisted s), (32, 8, s.str.logRead), (40, 8, pend), (48, 8, sigs)]
  | none => block 64 [(0, 8, 0xFFFF), (40, 8, pend), (48, 8, sigs)]
/-- SEAL_LOG_QUERY (R322). -/
def execSealLogQuery (p : Packet) (s : State) : Ans :=
  .next (cmd 0x54 [mY, mC, mR, mD] 1 false p (fun _ => [(p.rsv 8 0 true || badBuf p.addr 64 64, St.invalid_param)])
    (fun s => completeBlock p (sealLogBlock s) St.ok 0 s) s)
/-- SEAL_RECORD_FORM (R299, R307): a stream with pending seal points and no record in flight, while the log has room; in DRAIN
pending points wait for the drain record (R310) or for a log bound after RESUME (R332). -/
def execSealRecordForm (stream : BitVec 18) (s : State) : Ans :=
  let c := s.ctx stream.toNat
  .next (act s (if s.mode = 5 || c.pendF = 0 || c.inFlight || c.state = 0 || !logRoom s c then s else formRecord stream.toNat false s))
/-- A signature over bytes 0-159 of an item (R303, R313), under the seal key its record was formed with (log 78). -/
def signItem (it : LogItem) (s : State) : State :=
  let sig := ecdsaSign it.key (sha384 ((wordBytes 256 it.bytes).take 160)) s.free
  placeItems { s with
    free := s.free + 1
    str.items := s.str.items.map (fun x => if x = it then { x with wantSig := false, bytes := putBits x.bytes 1280 768 sig.toNat } else x) }
/-- SEAL_SIGNATURE_DONE (R296): signatures are made in request order. -/
def execSealSignatureDone (s : State) : Ans :=
  .next (act s (match s.str.items.find? (fun it => it.wantSig && !it.placed) with | some it => signItem it s | none => s))
/-- The slot write of an index ends (R306): its far writes end as any far write does, with an armed injection and the FLUSHED count (R341, R398), and with
the last of them the item is persisted, or placed again. -/
def slotWritten (idx : Nat) (ok : Bool) (s : State) : State :=
  let rs := (s.links.reqs ++ s.links.waitq).filter (fun r => r.purp = .slot idx)
  let s := rs.foldl (fun s r => farEnd r (if ok then .inr (r.data, r.psn) else .inl 0) s) { s with links.waitq := s.links.waitq.filter (fun r => r.purp ≠ .slot idx) }
  let lost := s.str.items.any (fun it => it.placed && decide (it.idx = idx) && it.lost)
  slotDone idx (ok && !lost) s
/-- SEAL_SLOT_WRITE_DONE (R306): both lines of the slot are written, or the slot write has an error completion. -/
def execSealSlotWriteDone (idx : Nat) (ok : Bool) (s : State) : Ans := .next (act s (slotWritten idx ok s))

/-- Write all three copies of KEY_STATE's STATE (R315). -/
def setKeySt (v : BitVec 2) (s : State) : State := { s with trip.key := Trip.all (putBits s.keyState 0 2 v.toNat) }
/-- The cryptographic error state is entered (R320): the failed test is posted; waiting signatures are abandoned. -/
def cryptoError (test : Nat) (s : State) : State :=
  postEvent 0x0404 [(0, test)] (abandonSigs true { s with keys.errState := true, keys.testsOk := false })
/-- A failed test the spec gives no number for (log 9). -/
def testFailed (s : State) : State := cryptoError (nbits (Config.freeWord s.free) 7 0) { s with free := s.free + 1 }
/-- The first 8 bytes of the digest of the identity public key (R312). -/
def identDigest (s : State) : Nat := leNat ((sha384 (wordBytes 96 s.keys.identPub)).take 8)
/-- KEY_GEN_IDENTITY (R312, R316): the key pair is drawn when the key area has been written. -/
def execKeyGenIdentity (p : Packet) (s : State) : Ans :=
  .next (act s (cmd 0x55 [mY] 2 false p
    (fun s => [(s.keySt = 0 && s.keys.errState, St.self_test_failed), (p.rsv 8 0 true || badBuf p.addr 1 96, St.invalid_param)])
    (fun s =>
      if s.keySt ≠ 0 then complete p St.ok (identDigest s) (lockViolation s)
      else if !p.ok then complete p St.self_test_failed 0 (testFailed s)
      else beginFlash 0x55 p keyOps s) s))
/-- The key area holds the identity key (R312, R316); where STATE is no longer EMPTY the command has no effect and sets LOCK_VIOLATION. What a
failed KEY_ZEROISE of before overwrote is not this key (R317). The error
state of R320, entered meanwhile, leaves it without effect too (DESIGN CHOICE, log 114). -/
def identityDone (g : Prog) (s : State) : State :=
  if s.keySt ≠ 0 then finish g St.ok (identDigest s) (lockViolation s)
  else if s.keys.errState then finish g St.self_test_failed 0 s
  else
  let k := Config.genWrapped s.free
  let s := setKeySt 1 { s with keys.identPub := publicOf k, keys.identPriv := k, keys.stored := 1, keys.wiped := s.cp.prog.any (fun g => g.op = 0x58), free := s.free + 1 }
  finishBlock g (wordBytes 96 s.keys.identPub) St.ok (identDigest s) s
/-- A certificate for the seal key, signed by the identity key (R313). -/
def certBytes (s : State) : BitVec 2048 :=
  let b : BitVec 2048 := pack 2048 [(0, 0x5EA1CE27), (4, 1), (8, 0xFFFFFFFE), (12, s.keys.serial.toNat), (16, s.keys.sealPub.toNat),
    (112, packBytes (sha384 (wordBytes 96 s.keys.identPub)))]
  putBits b 1280 768 (ecdsaSign s.keys.identPriv (sha384 ((wordBytes 256 b).take 160)) s.free).toNat
/-- KEY_GEN_SEAL (R313, R316): steps 1 to 3, then step 4 once the key area has been written. -/
def execKeyGenSeal (p : Packet) (s : State) : Ans :=
  .next (act s (cmd 0x56 [mY, mC] 2 false p
    (fun s => [(s.keySt ≠ 1 && s.keySt ≠ 2, St.key_state), (s.keys.errState, St.self_test_failed), (p.rsv 0 0 true, St.invalid_param)])
    (fun s =>
      if !p.ok then complete p St.self_test_failed 0 (testFailed s)
      else beginFlash 0x56 p keyOps s) s))
/-- Steps 4 and 5 of KEY_GEN_SEAL (R313). It has no effect where STATE has left IDENTITY and READY meanwhile, where the identity key that would sign
the certificate has been overwritten (R316, R317; log 78), or in the error state (R320; log 114). -/
def sealKeyDone (g : Prog) (s : State) : State :=
  if s.keySt ≠ 1 && s.keySt ≠ 2 || s.keys.wiped then finish g St.key_state 0 s
  else if s.keys.errState then finish g St.self_test_failed 0 s
  else
  let k := Config.genWrapped s.free
  let s := setKeySt 2 { s with
    keys.sealPub := publicOf k, keys.sealPriv := k, keys.serial := s.keys.serial + 1, keys.stored := 2, free := s.free + 1 }
  let c := certBytes s
  let s := { s with keys.cert := c, free := s.free + 1 }
  finish g St.ok 0 (if s.str.log.isSome then addItem 0xFFFFFFFE c false s else s)
/-- KEY_QUERY (R314). -/
def execKeyQuery (p : Packet) (s : State) : Ans :=
  .next (cmd 0x57 [mB, mY, mC, mD] 1 false p (fun _ => [(p.rsv 8 0 true || badBuf p.addr 1 256, St.invalid_param)])
    (fun s => completeBlock p (wordBytes 96 s.keys.identPub ++ wordBytes 160 s.keys.cert) St.ok 0 s) s)
/-- KEY_ZEROISE (R317): the role, then the arm, which it uses up (R436); signatures in progress are abandoned and both
private keys overwritten on chip. -/
def execKeyZeroise (p : Packet) (s : State) : Ans :=
  .next (act s (cmd 0x58 [mY, mC] 2 false p (fun s => [(!s.regs.zArm, St.not_armed), (p.rsv 0 0 true, St.invalid_param)])
    (fun s => abandonSigs true (beginFlash 0x58 p keyOps { s with keys.wiped := true, regs.zArm := false })) s))
/-- The key area is erased (R317 steps 3 and 4). -/
def zeroiseDone (g : Prog) (s : State) : State :=
  finish g St.ok 0 (setKeySt 3 { s with keys.identPriv := 0, keys.sealPriv := 0, keys.wiped := true, keys.stored := 3 })
/-- The officer's public key: the customer key record's, where it matches the OTP slot (R319, R460). -/
def officerKey (s : State) : Option (BitVec 768) :=
  if s.keys.custOn then s.boot.custRec.filter (fun k => sha384w (wordBytes 96 k) = s.keys.cust) else none
/-- AUTH_CHALLENGE (R319). -/
def execAuthChallenge (p : Packet) (s : State) : Ans :=
  let r := p.target.toNat
  .next (cmd 0x59 [mB, mY, mC] 0 false p
    (fun s => [(r = 0 && (officerKey s).isNone, St.no_officer_key), (s.keys.errState, St.self_test_failed),
      (p.rsv 8 0 false || decide (1 < r) || badBuf p.addr 1 48, St.invalid_param)])
    (fun s =>
      let c := Config.drbg s.free
      completeBlock p (wordBytes 48 c) St.ok 0 { s with
        free := s.free + 1, keys.chal := NMap.set 0 s.keys.chal r c, keys.chalOn := s.keys.chalOn ||| BitVec.ofNat 2 (2 ^ r) }) s)
/-- A response verifies under the role's key (R319). -/
def responseOk (s : State) (r : Nat) (sig : BitVec 768) : Bool :=
  let k := if r = 0 then officerKey s else if s.keys.userOn then some s.keys.userPub else none
  bit s.keys.chalOn r && (match k with | some k => ecdsaVerify k (sha384w (wordBytes 48 (NMap.get 0 s.keys.chal r))) sig | none => false)
/-- AUTH_RESPONSE (R319): the signature is 96 bytes at the host address; a challenge serves one response (log 37). -/
def execAuthResponse (p : Packet) (s : State) : Ans :=
  let r := p.target.toNat
  .next (cmd 0x5A [mB, mY, mC] 0 true p
    (fun _ => [(p.rsv 56 0 false || decide (1 < r) || badBuf p.addr 1 96, St.invalid_param), (!p.readOk, St.host_read_failed)])
    (fun s =>
      let good := responseOk s r (BitVec.ofNat 768 (leNat (p.data.take 96)))
      let s := { s with keys.chalOn := s.keys.chalOn &&& ~~~(BitVec.ofNat 2 (2 ^ r)) }
      if good then complete p St.ok 0 { s with keys.roles := s.keys.roles ||| BitVec.ofNat 2 (2 ^ r), keys.fails := NMap.set 0 s.keys.fails r 0 }
      else
        let n := NMap.get 0 s.keys.fails r + 1
        let s := { s with keys.fails := NMap.set 0 s.keys.fails r n }
        complete p St.auth_failed 0 (if n % 5 = 0 then postEvent 0x0403 [(0, r), (4, n)] s else s)) s)
/-- AUTH_USER_SET (R319). -/
def execAuthUserSet (p : Packet) (s : State) : Ans :=
  .next (cmd 0x5B [mY, mC] 2 true p
    (fun _ => [(p.rsv 8 0 true || badBuf p.addr 1 96, St.invalid_param), (!p.readOk, St.host_read_failed)])
    (fun s => complete p St.ok 0 { s with keys.userPub := BitVec.ofNat 768 (leNat (p.data.take 96)), keys.userOn := true }) s)
/-- APPROVED_MODE (R318). -/
def execApprovedMode (p : Packet) (s : State) : Ans :=
  .next (cmd 0x5C [mY] 0 false p
    (fun s => [(!s.locked, St.region_unlocked), (s.keySt ≠ 2, St.key_state), (!s.keys.testsOk, St.self_test_failed), (s.keys.tapOpen, St.tap_open),
      (!s.keys.custOn, St.no_officer_key), (p.rsv 0 0 true, St.invalid_param)])
    (fun s => complete p St.ok 0 { s with trip.key := Trip.all (s.keyState ||| 4) }) s)
/-- SELF_TEST (R320): a failure has entered the error state. -/
def execSelfTest (p : Packet) (s : State) : Ans :=
  .next (act s (cmd 0x5D [mY, mC] 1 false p (fun _ => [(p.rsv 0 0 true, St.invalid_param)])
    (fun s => if p.ok then complete p St.ok 0 s else complete p St.self_test_failed 0 (testFailed s)) s))
/-- CONTINUOUS_HEALTH_TEST_FAIL (R320). -/
def execContinuousHealthTestFail (test : Byte) (s : State) : Ans := .next (act s (cryptoError test.toNat s))

end Sys2Proof.Machine
end

