-- ==== Sys2Proof/Machine/Alloc.lean ====
section
/-! DEFINITION. Partition and prefetch commands (R126-R131). -/
namespace Sys2Proof.Machine

/-- The partition map in PART_MAP_SET's bytes (R127): entry 4n + class in nibbles; bytes of absent ports are ignored (R2). -/
def mapOf (s : State) (v : Nat) : NMap (BitVec 4) :=
  (List.range (4 * s.nPorts)).foldl (fun m k => NMap.set 0 m k (BitVec.ofNat 4 (v >>> (4 * k)))) []
/-- The partition map of a PART_MAP_SET takes effect (R127). -/
def setMap (p : Packet) (s : State) : State := kickAll { s with cache.map := mapOf s (p.par 0 24) }
/-- PART_MAP_SET (R127). -/
def execPartMapSet (p : Packet) (s : State) : Ans :=
  .next (act s (cmd 0x30 [mY, mC] 0 false p (fun _ => [(p.rsv 24 0 true, St.invalid_param)])
    (fun s => complete p St.ok 0 (setMap p s)) s))
/-- The mask of a PART_MASK_SET takes effect (R128). -/
def setMask (p : Packet) (s : State) : State :=
  kickAll { s with cache.pmask := NMap.set 0x3FFF s.cache.pmask p.target.toNat (BitVec.ofNat 14 (p.par 0 2)) }
/-- PART_MASK_SET (R128). -/
def execPartMaskSet (p : Packet) (s : State) : Ans :=
  .next (act s (cmd 0x31 [mY, mC] 0 false p
    (fun _ => [(p.rsv 2 0 false || decide (15 < p.target.toNat) || decide (0x3FFF < p.par 0 2) || p.par 0 2 = 0, St.invalid_param)])
    (fun s => complete p St.ok 0 (setMask p s)) s))
/-- The PART_QUERY block (R129). -/
def partBlock (s : State) : List Byte :=
  block 192 ((List.range 24).map (fun n => (n, 1, (NMap.get 0 s.cache.map (2 * n)).toNat + 16 * (NMap.get 0 s.cache.map (2 * n + 1)).toNat)) ++
    (List.range 16).map (fun q => (24 + 2 * q, 2, (NMap.get 0x3FFF s.cache.pmask q).toNat)) ++
    (List.range 16).map (fun q => (64 + 8 * q, 8, NMap.get 0 s.cache.occ q % 2 ^ 40)))
/-- PART_QUERY (R129). -/
def execPartQuery (p : Packet) (s : State) : Ans :=
  .next (cmd 0x32 [mY, mC, mR, mD] 0 false p (fun _ => [(p.rsv 8 0 true || badBuf p.addr 128 192, St.invalid_param)])
    (fun s => completeBlock p (partBlock s) St.ok 0 s) s)

/-- PREFETCH_SET's parameters out of range (R130). -/
def prefetchBad (p : Packet) : Bool :=
  p.rsv 11 0 true || decide (0xFFF < p.par 0 2) || decide (0xFFF < p.par 2 2) || decide (256 < p.par 4 2) || decide (512 < p.par 6 2) ||
    p.par 8 1 = 0 || decide (32 < p.par 8 1) || p.par 9 2 = 0 || decide (1023 < p.par 9 2)
/-- The settings of a PREFETCH_SET take effect (R130): a port whose SP_PORTS bit clears loses its detectors and candidates; bits of absent ports are
ignored (R2). Those candidates are not counted in SP_DROPPED (DESIGN CHOICE, log 83). -/
def setPrefetch (p : Packet) (s : State) : State :=
  let m := fun (v : Nat) => BitVec.ofNat 12 (if s.boot.small then v % 256 else v)
  let sp := m (p.par 2 2)
  let s := (List.range 12).foldl (fun s n => if bit s.cache.spPorts n && !bit sp n then s.updPort n (fun q => { q with dets := [], cand := [] }) else s) s
  { s with
    cache.nlPorts := m (p.par 0 2), cache.spPorts := sp, cache.nlMax := p.par 4 2, cache.spMax := p.par 6 2, cache.spDepth := p.par 8 1
    cache.sbAge := p.par 9 2 }
/-- PREFETCH_SET (R130). -/
def execPrefetchSet (p : Packet) (s : State) : Ans :=
  .next (act s (cmd 0x33 [mY, mC] 0 false p (fun _ => [(prefetchBad p, St.invalid_param)]) (fun s => complete p St.ok 0 (setPrefetch p s)) s))
/-- PREFETCH_QUERY (R131): CLEAR zeroes the counters it has sampled. -/
def execPrefetchQuery (p : Packet) (s : State) : Ans :=
  .next (cmd 0x34 [mY, mC, mR, mD] 0 false p (fun _ => [(p.rsv 8 1 true || badBuf p.addr 128 128, St.invalid_param)])
    (fun s => completeBlock p (block 128 ((List.range 12).map (fun k => (8 * k, 8, (NMap.get 0 s.cache.pfCnt k).toNat)))) St.ok 0
      (if p.flag 0 then { s with cache.pfCnt := [] } else s)) s)

end Sys2Proof.Machine
end

