-- ==== Sys2Proof/Machine/Parity.lean ====
section
/-! DEFINITION. Parity errors of the on-chip stores (R375, R376) and what a lost set or a directory recall ends in (R371, R374). -/
namespace Sys2Proof.Machine

/-- A stream's context has failed (R376). -/
def ctxFail (sid : Nat) (s : State) : State :=
  let c := s.ctx sid
  let s := { s.updCtx sid (fun c => { c with state := 0, failed := true, st := [], blocks := [], hole := none, pendF := 0, gapPend := false }) with
    str.blocks := s.str.blocks - c.blocks.length
    str.notices := disarmNotices sid s.str.notices }
  postEvent 0x0306 [(0, sid)] (logErr 0x0016 3 7 0 0 sid (c.sealSeq.toNat % 2 ^ 24) s)
/-- A write ends before its data came, its table entry lost (R363, R375): data that is still on its way is discarded (R202; DESIGN CHOICE, log 110). -/
def cutWrite (sl : Nat) (t : Txn) (s : State) : State :=
  let s := if t.pull then s.updPort t.port (fun q => { q with endedTags := q.endedTags ++ [(Hd.tag t.h, Hd.tc t.h)] }) else s
  endPull sl t (s.updSlice sl (fun h => { h with setQ := h.setQ.filter (fun i => i ≠ t.id) }))
/-- A read ends with nothing sent (R363): one that awaits the answers to its snoops or to its upward request goes on as the hub's own. -/
def cutRead (sl : Nat) (t : Txn) (s : State) : State :=
  if t.grant.isSome || t.dat.isSome then s
  else if t.ph = .snoops && !t.snoops.isEmpty || t.wb.isSome || t.ph = .up then ownNow sl t.id id s
  else
    let s := s.updSlice sl (fun h => { h with setQ := h.setQ.filter (fun i => i ≠ t.id), vbWait := h.vbWait.filter (fun i => i ≠ t.id) })
    kick sl (closeTxn sl { t with gop := 0 } s)
/-- A transaction that has not had the answers its grant needs. -/
def Txn.early (t : Txn) : Bool := [Ph.start, .setPark, .dirWay, .up].contains t.ph || !t.snoops.isEmpty
/-- A transaction of the hub's own ends with its TT entry (R375): a prefetch or a walk's visit closes and allocates nothing; data that has come goes
on as poison, and a directory eviction takes the answers to its snoops. -/
def cutOwn (sl : Nat) (t : Txn) (s : State) : State :=
  if !t.snoops.isEmpty || t.wb.isSome then s
  else kick sl (closeTxn sl t (s.updSlice sl (fun h => { h with vbWait := h.vbWait.erase t.id })))
/-- The write of a transaction ends with no answer (R363): it leaves the open count (R345). -/
def silence (t : Txn) (s : State) : State :=
  match t.wr.bind s.wrOf with
  | some w =>
    let s := updWr w.id (fun w => { w with silent := true }) s
    if w.compSent || w.silent then s else endOpen w.port w.tc.toNat w.take s
  | none => s
/-- A transaction-table entry is lost (R375, R226): its line is poisoned; a read is answered poisoned, with the answers to its snoops where they are
out, a write is lost; `quiet`: nothing is sent (R363). A write whose data has come goes on as poison. -/
def txnLost (sl : Nat) (t : Txn) (quiet : Bool) (s : State) : State :=
  let s := if quiet then silence t s else s
  let s := poisonLine t.line s
  let s := match t.wr with | some id => wrLose id 2 s | none => s
  if t.kind ≠ .req then cutOwn sl t s
  else if t.wr.isSome then (if t.pull || [Ph.start, .setPark, .dirWay, .wbLine].contains t.ph then cutWrite sl t s else s)
  else if quiet then cutRead sl t s
  else if t.early then updTxn sl t.id (fun u => { u with dead := true }) s
  else if t.grant.isSome || t.dat.isSome then s
  else readPoisoned sl t s
/-- The stream offset a write's header aims at, with its stream. -/
def offsetOf (s : State) (h : Slot) : Option (Nat × Nat) :=
  let sid := (Hd.aux h).toNat
  let c := s.ctx sid
  if Hd.isStream h && c.state ≠ 0 then some (sid, c.offOf (Hd.line h).toNat) else none
/-- Commands in progress complete with MC_RESTART, those taken and not started among them; what the hub has begun for them goes on (R474). -/
def restartEnds (s : State) : State :=
  let s := s.cp.taken.foldl (fun s t => complete (takenPacket t) St.mc_restart 0 s) { s with cp.taken := [] }
  let s := s.cp.prog.foldl (fun s g => complete g.p St.mc_restart 0 s) s
  { s with cp.prog := s.cp.prog.map Prog.lose }
/-- The management controller restarts (R474): no command is taken until the firmware has started again. -/
def mcRestart (s : State) : State :=
  if !s.boot.fwRun then s
  else
    logErr 0x0041 5 5 0 0 0 0 { restartEnds s with boot.fwRun := false, boot.start := 2 }
/-- A parity error of another on-chip store, met by the lookup of a request (R375): by store code, on what the lookup touches. A lookup reads
neither the sequencer's memories nor the trace staging, codes 10 and 11. -/
def storeFault (sl code : Nat) (h : Slot) (s : State) : State :=
  let l := Hd.line h
  let set := s.setOf l
  let v := s.slice sl
  if code = 1 then
    if (s.tbcOf set).valid then cntTbc set (logSram 1 0 sl set s) else s
  else if code = 2 then
    let b := v.wb.filter (fun b => b.line = l && b.hasData && !b.released)
    if b.isEmpty then s
    else
      let s := s.updSlice sl (fun v => { v with wb := v.wb.map (fun b => if b.line = l && b.hasData && !b.released then { b with psn := true } else b) })
      let s := (b.filter (fun b => b.dur)).foldl (fun s b => b.writes.foldl (fun s id => wrLose id 2 s) s) s
      logSram 2 0 sl l.toNat s
  else if code = 3 then
    if (v.vbOf l).isNone then s
    else
      logSram 3 0 sl l.toNat (poisonDur l (vbPoison l s))
  else if code = 4 then
    if (v.sbOf l).isNone then s
    else logSram 4 0 sl l.toNat (cntPf 11 1 (s.updSlice sl (fun v => { v with sb := v.sb.filter (fun b => b.line ≠ l) })))
  else if code = 5 then
    match v.tt.find? (fun t => t.line = l && t.kind ≠ .evict && t.kind ≠ .recl) with
    | some t => txnLost sl t false (logSram 5 0 sl l.toNat s)
    | none => s
  else if code = 6 then logSram 6 0 sl l.toNat s
  else if code = 7 then
    match offsetOf s h with
    | some (sid, _) => ctxFail sid (logSram 7 7 0 sid s)
    | none => s
  else if code = 8 then
    match offsetOf s h with
    | some (sid, n) =>
      (List.range 128).foldl (fun s k =>
        let o := n / 128 * 128 + k
        if (s.ctx sid).bOff ≤ o && ((s.ctx sid).blocks.contains (o / 128)) then offBad sid o 2 s else s) (logSram 8 7 0 sid s)
    | none => s
  else if code = 9 then
    match s.str.notices.find? (fun e => e.2.armed && e.2.stream = Hd.aux h && Hd.isStream h) with
    | some e => logSram 9 7 0 e.1 { s with str.notices := NMap.erase s.str.notices e.1 }
    | none => s
  else if code = 13 then
    if s.err.rd < s.err.wr then logSram 13 5 0 0 { s with err.log := NMap.upd 0 s.err.log (s.err.rd % 4096) (fun r => putBits r 43 1 1) } else s
  else if code = 12 then mcRestart (logSram 12 5 sl 0 s)
  else s
where
  /-- The tag-block cache entry is discarded and fetched again where it is needed (R73). -/
  cntTbc (set : Nat) (s : State) : State := s.updSlice (set % 8) (fun v => { v with tbc := NMap.erase v.tbc set })

/-- A set is retired at once, every way of it being invalid (R89, R371): marked, logged as automatic, and listed where the list has room. -/
def retireAuto (set : Nat) (s : State) : State :=
  let s := { s with cache.retSets := s.cache.retSets ++ [set] }.updSlice (set % 8) (fun h => { h with tbc := NMap.erase h.tbc set })
  let s := logErr 0x0007 1 3 (s.chanOf set) 0 set 1 s
  if 4096 ≤ s.err.rlSets.length then postEvent 0x0504 [(0, set)] s else retireList none 0x74 set s
/-- The ways of a lost set leave OCCUPANCY and the count that R262 mirrors; DIRTY_LINES keeps them (R129, R372). -/
def dropOcc (b : TagBlock) (s : State) : State :=
  { s with
    cache.occ := (List.range 14).foldl (fun m w => if bit (teOf b w) 13 then NMap.upd 0 m (nbits (teOf b w) 7 4) (fun n => n - 1) else m) s.cache.occ
    cache.dirtyPlain := s.cache.dirtyPlain - ((List.range 14).filter (fun w => bit (teOf b w) 13 && bit (teOf b w) 12 && !bit (teOf b w) 11)).length }
/-- Log an error found at an earlier DEVICE_TIME. -/
def logErrAt (t : BitVec 64) (code sev unit index flags loc det : Nat) (s : State) : State :=
  { logErr code sev unit index flags loc det { s with ao.time := t } with ao.time := s.ao.time }
/-- The scan of a lost set has ended (R371 steps 3 to 6): offsets BAD, the record and event, a formatted tag block, and its read-back. -/
def scanEnd (set : Nat) (e : ErrPat) (s : State) : State :=
  let sl := set % 8
  let l := lostOffs s set
  let s := l.foldl (fun s x => offBad x.1 x.2 7 s) s
  let s := postEvent 0x0501 [(0, set), (4, l.length)] (logErrAt (NMap.get 0 (s.slice sl).lostAt set) 0x0006 3 0 sl 0 set l.length s)
  let s := writeRowTb set (fmtBlock s.pol.replInit) (dropOcc (s.sentTb set) s)
  let s := s.updSlice sl (fun h => { h with lostSets := h.lostSets.erase set, lostAt := NMap.erase h.lostAt set })
  let s := match tbDecode (s.rowTb set) e with
    | some (b, _) => if fmtOk b then tbcInstall sl set b s else retireAuto set s
    | none => retireAuto set (countUe set s)
  ((s.slice sl).tt.filter (fun t => (t.ph = .tagBlock || t.ph = .promote) && s.setOf t.line = set)).foldl (fun s t => run sl t.id s) s
/-- Recall the next candidate of an unresolved directory entry (R374 steps 1 to 3), in line-conflict order: SnpInv to every port that is up. -/
def recallNext (sl : Nat) (f : DirFault) (s : State) : State :=
  match (s.slice sl).dirBad.find? (fun b => !b.left.isEmpty) with
  | none => s
  | some b =>
    match b.left with
    | [] => s
    | l :: rest =>
      if lineBusy s sl l then s
      else
        let s := s.updSlice sl (fun h => { h with dirBad := h.dirBad.map (fun x => if x = b then { x with left := rest } else x) })
        let s := dirMeet 20 l (dirUpset l f s)
        if ((s.slice sl).dirWay l).isSome then s
        else
          let s := match s.cover l with
            | some (_, e) => if Rg.remote e then setDir l b.way { De.none with up := 3 } s else s
            | none => s
          reclTxn sl l (((List.range 12).filter (fun p => (s.port p).open_)).map (fun p => (p, 0x41))) true s

end Sys2Proof.Machine
end

