-- ==== Sys2Proof/Machine/Errors.lean ====
section
/-! DEFINITION. Error commands, the patrol scrubber, directory recall and the scan of a lost set (R370-R398). -/
namespace Sys2Proof.Machine

/-- Error records as ERR_LOG_READ writes them (R392, R396). -/
def logBytes (s : State) (n : Nat) : List Byte := ((List.range n).map (fun k => leBytes 32 (NMap.get 0 s.err.log ((s.err.rd + k) % 4096)).toNat)).flatten
/-- ERR_LOG_READ (R396): records from ERR_READ, at most COUNT, none beyond ERR_WRITE. -/
def execErrLogRead (p : Packet) (s : State) : Ans :=
  let c := p.par 8 4
  .next (cmd 0x70 [mY, mC, mR, mD] 0 false p
    (fun _ => [(p.rsv 12 0 true || c = 0 || decide (4096 < c) || badBuf p.addr 32 (32 * c), St.invalid_param)])
    (fun s =>
      let n := min c (s.err.wr - s.err.rd)
      completeBlock p (logBytes s n) St.ok n s) s)
/-- ERR_LOG_ACK (R392). -/
def execErrLogAck (p : Packet) (s : State) : Ans :=
  let v := p.par 0 8
  .next (cmd 0x71 [mY, mC, mR, mD] 0 false p
    (fun s => [(p.rsv 8 0 true || decide (v < s.err.rd) || decide (s.err.wr < v), St.invalid_param)])
    (fun s => complete p St.ok 0 { s with err.rd := v }) s)
/-- An entry that may hold the log mirror (R395). -/
def mirrorOk (e : Region) : Bool :=
  Rg.valid e && decide (Rg.pol e = 2) && decide (Rg.masks e = 0) && !Rg.zt e && !Rg.remote e && decide (32 ≤ Rg.size e)
/-- ERR_MIRROR_SET (R395). -/
def execErrMirrorSet (p : Packet) (s : State) : Ans :=
  let i := p.target.toNat
  .next (cmd 0x72 [mY, mC] 0 false p
    (fun s => [(p.rsv 0 0 false || (decide (i ≠ 0xFFFF) && (decide (1023 < i) || !mirrorOk (s.region i))), St.invalid_param)])
    (fun s => complete p St.ok 0 { s with err.mirror := if i = 0xFFFF then none else some i }) s)
/-- The ERR_QUERY block (R397). -/
def errBlock (s : State) : List Byte :=
  let m := match s.err.mirror with | some i => i + 4 * Rg.size (s.region i) % 2 ^ 40 * 2 ^ 16 | none => 0xFFFF
  block 160 ([(0, 8, s.err.wr), (8, 8, s.err.rd), (16, 8, m)] ++ (List.range 16).map (fun k => (32 + 8 * k, 8, (NMap.get 0 s.err.cnt k).toNat)))
/-- ERR_QUERY (R397). -/
def execErrQuery (p : Packet) (s : State) : Ans :=
  .next (cmd 0x73 [mY, mC, mR, mD] 0 false p (fun _ => [(p.rsv 8 1 true || badBuf p.addr 32 160, St.invalid_param)])
    (fun s => completeBlock p (errBlock s) St.ok 0 (if p.flag 0 then { s with err.cnt := [] } else s)) s)

/-- The retire list holds the set, or its bank, already (R382). -/
def setGone (s : State) (set : Nat) : Bool := s.cache.retSets.contains set || s.cache.retBanks.contains (s.bankOf set)
/-- RETIRE_SET (R382, R383). -/
def execRetireSet (p : Packet) (s : State) : Ans :=
  let n := p.target.toNat
  .next (act s (cmd 0x74 [mY, mC] 0 false p
    (fun s => [(p.rsv 0 0 false, St.invalid_param), (decide (s.nSets ≤ n), St.range_exceeds),
      (!setGone s n && decide (4096 ≤ s.err.rlSets.length), St.retire_full)])
    (fun s => if setGone s n then complete p St.ok 0 s else walkCmd 0x74 p n 1 0x3FFF true false s) s))
/-- RETIRE_BANK (R382, R383). -/
def execRetireBank (p : Packet) (s : State) : Ans :=
  let n := p.target.toNat
  .next (act s (cmd 0x75 [mY, mC] 0 false p
    (fun s => [(p.rsv 0 0 false, St.invalid_param), (decide (511 < n) || s.popK.isNone || decide (2 ^ s.popC ≤ n % 32), St.range_exceeds),
      (!s.cache.retBanks.contains n && decide (64 ≤ s.err.rlBanks.length), St.retire_full)])
    (fun s => if s.cache.retBanks.contains n then complete p St.ok 0 s else walkCmd 0x75 p n 0 0x3FFF true false s) s))
/-- The retire list without some entries, and the marks on chip without those; INV_DONE is clear (R384). A set retired on chip only stays so (R371). -/
def retireDrop (sets banks : Nat → Bool) (s : State) : State :=
  let sets := fun (x : Nat) => sets x && s.err.rlSets.contains x
  let banks := fun (x : Nat) => banks x && s.err.rlBanks.contains x
  { s with
    err.rlSets := s.err.rlSets.filter (fun x => !sets x), err.rlBanks := s.err.rlBanks.filter (fun x => !banks x), err.rlGen := s.err.rlGen + 1
    cache.retSets := s.cache.retSets.filter (fun x => !sets x), cache.retBanks := s.cache.retBanks.filter (fun x => !banks x)
    cache.invDone := false }
/-- RETIRE_CLEAR (R384): entries 0-4,095 name the sets of the list, entries from 4,096 its banks (log 35). -/
def execRetireClear (p : Packet) (s : State) : Ans :=
  let n := p.target.toNat
  let st := fun (s : State) => if n < 4096 then s.err.rlSets[n]? else none
  let bk := fun (s : State) => if n < 4096 then none else s.err.rlBanks[n - 4096]?
  .next (cmd 0x76 [mY] 0 false p
    (fun s => [(p.rsv 0 1 false || (!p.flag 0 && (st s).isNone && (bk s).isNone), St.invalid_param)])
    (fun s =>
      let s' := begin_ 0x76 p 2 0 0 s
      healthJob (some s.nextId) listOps (if p.flag 0 then retireDrop (fun _ => true) (fun _ => true) s'
        else retireDrop (fun x => st s = some x) (fun x => bk s = some x) s')) s)
/-- The current copy of the retire list, as the health page holds it (R383, R396). -/
def retireBytes (s : State) : List Byte :=
  let h := s.boot.health
  let l := block 16528 ([(0, 4, 0x7E715E75), (4, 4, h.rlGen.toNat), (8, 1, h.rlPop.toNat), (9, 2, h.rlSets.length), (11, 1, h.rlBanks.length)] ++
    h.rlSets.zipIdx.map (fun x => (16 + 4 * x.2, 4, x.1)) ++ h.rlBanks.zipIdx.map (fun x => (16400 + 2 * x.2, 2, x.1)))
  l ++ wordBytes 8 (crc64 l)
/-- RETIRE_QUERY (R396). -/
def execRetireQuery (p : Packet) (s : State) : Ans :=
  .next (cmd 0x77 [mY, mC, mR, mD] 0 false p (fun _ => [(p.rsv 8 0 true || badBuf p.addr 64 16536, St.invalid_param)])
    (fun s => completeBlock p (retireBytes s) St.ok 0 s) s)
/-- SCRUB_SET (R377, R380, R381). -/
def execScrubSet (p : Packet) (s : State) : Ans :=
  .next (cmd 0x78 [mY, mC] 0 false p
    (fun _ => [(p.rsv 5 0 true || decide (168 < p.par 0 1) || p.par 1 1 ≠ 0 || p.par 2 2 = 0 || p.par 4 1 = 0, St.invalid_param)])
    (fun s => complete p St.ok 0 { s with err.scrub := p.par 0 1, err.ceLimit := p.par 2 2, err.ueLimit := p.par 4 1 }) s)
/-- FAR_RECOVER (R370): it goes on with MEMORY_ACTIVE or MEMORY_ACTIVE_TIMEOUT. -/
def execFarRecover (p : Packet) (s : State) : Ans :=
  let n := p.target.toNat
  .next (cmd 0x79 [mY, mC] 0 false p
    (fun s => [(p.rsv 0 0 false || decide (s.nFar ≤ n), St.invalid_param), (!(s.farP n).dead, St.not_dead)])
    (begin_ 0x79 p 1 0 0) s)
/-- A port's freeze record (R387). -/
def freezeBlock (q : Port) : List Byte :=
  block 32 [(0, 16, q.frzHdr.toNat), (16, 1, q.frzKind.toNat), (24, 8, q.frzTime.toNat + q.frzLater.toNat * 2 ^ 56)]
/-- FREEZE_QUERY (R387). -/
def execFreezeQuery (p : Packet) (s : State) : Ans :=
  .next (cmd 0x7A [mY, mC, mR, mD] 0 false p
    (fun s => [(p.rsv 8 0 false || decide (s.nPorts ≤ p.target.toNat) || badBuf p.addr 32 32, St.invalid_param)])
    (fun s => completeBlock p (freezeBlock (s.port p.target.toNat)) St.ok 0 s) s)

/-- A kind or an operand of ERR_INJECT that INVALID_PARAM refuses (R398). -/
def injBad (s : State) (k : Nat) (o : BitVec 64) : Bool :=
  if k ≤ 1 then decide (nbits o 63 40 ≠ 0)
  else if k = 2 then decide (nbits o 63 26 ≠ 0)
  else if k = 3 then decide (nbits o 19 19 ≠ 0) || decide (nbits o 23 22 ≠ 0) || decide (nbits o 63 28 ≠ 0) || decide (nbits o 21 20 = 0) ||
    decide (nbits o 21 20 = 3) || decide (49152 ≤ nbits o 15 0)
  else if k = 4 then decide (nbits o 63 40 ≠ 0)
  else if k = 5 then decide (nbits o 63 2 ≠ 0) || decide (s.nFar ≤ nbits o 1 0)
  else true
/-- ERR_INJECT (R398). -/
def execErrInject (p : Packet) (s : State) : Ans :=
  let k := p.par 0 1
  let o := BitVec.ofNat 64 (p.par 8 8)
  .next (cmd 0x7B [mY, mC] 0 false p
    (fun s => [(s.approved, St.inject_locked), (s.err.inj.isSome, St.inject_busy),
      (p.rsv 16 0 true || p.par 1 7 ≠ 0 || injBad s k o, St.invalid_param), (k = 2 && decide (s.nSets ≤ nbits o 25 0), St.range_exceeds)])
    (fun s => complete p St.ok 0 { s with err.inj := some ⟨k, o⟩ }) s)

/-- A patrol visit reads the valid lines of enabled ways (R377, R378), each in its place in the line's order (R389): one that is taken waits. -/
def patrolLines (set : Nat) (le : List (Nat × ErrPat)) (s : State) : State :=
  (List.range 14).foldl (fun s w =>
    let l := s.wayLine set w
    let e := ((le.find? (fun x => x.1 = w)).map (·.2)).getD []
    if !(bit s.cache.ways w && bit (teOf (s.curTb set) w) 13) then s
    else if lineTaken s (set % 8) l then s.updSlice (set % 8) (fun h => { h with jobs := h.jobs ++ [.patrol set w l e (h.lineQ.filter (fun i => Hd.line i.h = l))] })
    else patrolWay set w l e s) s
/-- The last set that is not retired (R377): banks and channels recur every 512 sets. -/
def lastSet (s : State) : Option Nat :=
  ((List.range (512 + s.cache.retSets.length)).find? (fun i => decide (i < s.nSets) && !s.retired (s.nSets - 1 - i))).map (fun i => s.nSets - 1 - i)
/-- The patrol goes on from a set; where no later one is to be visited, a pass has ended (R377). -/
def patrolAt (set : Nat) (s : State) : State :=
  if (lastSet s).any (fun l => set ≤ l) then { s with cache.patrol := set } else cntErr 15 1 { s with cache.patrol := 0 }
/-- What a patrol visit reads and does (R377-R379): the tag block in the row, then the lines. -/
def patrolSet (set : Nat) (te : ErrPat) (le : List (Nat × ErrPat)) (s : State) : State :=
  let r := tbDecode (s.rowTb set) te
  let s := burstsNow 2 set 14 (s.wayLine set 0) (decStat r) s
  match r with
  | some (b, n) =>
    if !fmtOk b then setLost set s
    else patrolLines set le (if n = 0 then s else bursts 0 2 (s.wayLine set 0) <| countCe set n <| logErr 0x0005 0 0 (set % 8) 0 set n (cntErr 2 1 s))
  | none => setLost set s
/-- PATROL_VISIT (R377-R379): the tag block in the row, then the lines; after the last set, or where that has been retired meanwhile, a pass has
ended. -/
def patrol (set : Nat) (te : ErrPat) (le : List (Nat × ErrPat)) (s : State) : State :=
  if s.mode ≠ 3 || s.quiescing || s.err.scrub = 0 || s.nSets ≤ set || s.retired set || (s.slice (set % 8)).lostSets.contains set then s
  else
    let s := capWalk 0x78 (set % 8) 0 0 set 0 s
    patrolSet set te le (patrolAt (set + 1) (patrolAt s.cache.patrol s))
/-- PATROL_VISIT (R377). -/
def execPatrolVisit (set : BitVec 26) (te : ErrPat) (le : List (Nat × ErrPat)) (s : State) : Ans := .next (clocked s (patrol set.toNat te le s))
/-- DIR_RECALL_CANDIDATE (R374). -/
def execDirRecallCandidate (sl : DirSlice) (s : State) : Ans := .next (clocked s (recallNext sl.sl.toNat sl.fault s))
/-- SET_LOST_SCAN_END (R371). -/
def execSetLostScanEnd (set : BitVec 26) (e : ErrPat) (s : State) : Ans :=
  .next (clocked s (if (s.slice (set.toNat % 8)).lostSets.contains set.toNat then scanEnd set.toNat e s else s))

end Sys2Proof.Machine
end

