-- ==== Sys2Proof/Machine/Policy.lean ====
section
/-! DEFINITION. Policy images: their checks, their load into the sequencers, the end of INIT, and the policy commands (05, 16). -/
namespace Sys2Proof.Machine

/-- A policy image as its header gives it (R153). -/
structure PolImage where
  code : List (BitVec 64)
  data : List SWord
  entry : NMap (BitVec 16)
  repl : BitVec 256
  pid : BitVec 64
  version : BitVec 32
deriving DecidableEq, Repr

/-- Eight-byte little-endian words of a byte list. -/
def words64 : Nat → List Byte → List (BitVec 64)
  | 0, _ => []
  | k + 1, b => BitVec.ofNat 64 (leNat (b.take 8)) :: words64 k (b.drop 8)
/-- CODE_WORDS and DATA_WORDS of an image (R153). -/
def imgCode (b : List Byte) : Nat := leAt b 12 2
/-- DATA_WORDS (R153). -/
def imgData (b : List Byte) : Nat := leAt b 14 2
/-- An ENTRY address (R153). -/
def imgEntry (b : List Byte) (k : Nat) : Nat := leAt b (16 + 2 * k) 2
/-- An image that R154 makes invalid. Bits [63:40] of a data word are not among its conditions; they are dropped (DEDUCED, log 79). -/
def imgInvalid (b : List Byte) : Bool :=
  let c := imgCode b
  let d := imgData b
  leAt b 0 4 ≠ 0x7E51A0C3 || leAt b 8 4 ≠ 256 + 8 * (c + d) + 96 || c = 0 || 2048 < c || 8176 < d || imgEntry b 0 = 0xFFFF ||
    (List.range 5).any (fun k => k ≠ 0 && imgEntry b k ≠ 0xFFFF && decide (c ≤ imgEntry b k)) ||
    leAt b 6 2 ≠ 0 || leAt b 26 6 ≠ 0 || leAt b 76 180 ≠ 0
/-- ABI 1.0 (R155). -/
def imgAbiBad (b : List Byte) : Bool := leAt b 5 1 ≠ 1 || leAt b 4 1 ≠ 0
/-- A signature over the bytes before the last 96 verifies under the vendor key, or under a valid customer key record for an image that may carry it (R461). -/
def signedBy (s : State) (len : Nat) (b : List Byte) (cust : Bool) : Bool :=
  let dg := sha384w (b.take (len - 96))
  let sg := BitVec.ofNat 768 (leNat ((b.drop (len - 96)).take 96))
  ecdsaVerify Config.vendorKey dg sg || (cust && match s.boot.custRec with | some k => ecdsaVerify k dg sg | none => false)
/-- The checks of steps 1 to 3 of R158 on an image of a given length. -/
def imgChecks (s : State) (len : Nat) (b : List Byte) : List (Bool × BitVec 16) :=
  [(len ≠ leAt b 8 4 || imgInvalid b, St.image_invalid), (imgAbiBad b, St.abi_mismatch), (!signedBy s len b true, St.auth_failed)]
/-- An image that passes its checks. -/
def imgOf (b : List Byte) : PolImage :=
  ⟨words64 (imgCode b) (b.drop 256), (words64 (imgData b) (b.drop (256 + 8 * imgCode b))).map (·.setWidth 40),
    (List.range 5).foldl (fun m k => NMap.set 0xFFFF m k (BitVec.ofNat 16 (imgEntry b k))) [],
    BitVec.ofNat 256 (leAt b 32 32), BitVec.ofNat 64 (leAt b 64 8), BitVec.ofNat 32 (leAt b 72 4)⟩
/-- The built-in default image (R156): a valid image (R154) with VICTIM, HIT and FILL entries, no PFTRIG entry, and REPL_INIT, POLICY_ID and
POLICY_VERSION zero; its words are log 6's. -/
def defaultImage : PolImage :=
  let n := Config.defaultPolicyLen 0 % 2048 + 1
  ⟨(List.range n).map Config.defaultPolicyCode, (List.range (min 8176 (Config.defaultPolicyLen 1))).map Config.defaultPolicyData,
    [0, 1, 2, 4].foldl (fun m k => NMap.set 0xFFFF m k (let a := Config.defaultPolicyEntry k
      if k = 4 && a = 0xFFFF then a else BitVec.ofNat 16 (a.toNat % n))) [], 0, 0, 0⟩

/-- The nodes of the default pseudo-LRU tree, N0 to N12, in the order of their REPL bits: the ways of the lower and of the upper side (R114). -/
def treeNodes : List (Nat × BitVec 14 × BitVec 14) :=
  [(0, 0x00FF, 0x3F00), (1, 0x000F, 0x00F0), (2, 0x0003, 0x000C), (3, 0x0030, 0x00C0), (4, 0x0001, 0x0002), (5, 0x0004, 0x0008),
    (6, 0x0010, 0x0020), (7, 0x0040, 0x0080), (8, 0x0F00, 0x3000), (9, 0x0300, 0x0C00), (10, 0x0100, 0x0200), (11, 0x0400, 0x0800),
    (12, 0x1000, 0x2000)]
/-- The walk of R113 from the root, the ways still in question as a mask: each node's bit selects a side, the other one where the selected side
holds no eligible way. The mask of the leaf reached. -/
def treeWalk (repl : BitVec 13) (elig : BitVec 14) : BitVec 14 :=
  treeNodes.foldl (fun m (b, lo, hi) =>
    if m = lo ||| hi then
      let (x, y) := if repl.getLsbD b then (hi, lo) else (lo, hi)
      if x &&& elig = 0 then y else x
    else m) 0x3FFF
/-- Every node on a way's path points away from it (a touch), or towards it (a weak insertion) (R115). -/
def treePoint (weak : Bool) (way : Nat) (repl : BitVec 13) : BitVec 13 :=
  treeNodes.foldl (fun r (b, lo, hi) =>
    if lo.getLsbD way then putBits r b 1 (b2n (!weak)) else if hi.getLsbD way then putBits r b 1 (b2n weak) else r) repl
/-- The default policy's victim (R113): the lowest eligible way that is invalid, else the leaf of the walk. -/
def defaultVictim (repl : BitVec 13) (free elig : BitVec 14) : Nat :=
  (lowBit 14 (if free = 0 then treeWalk repl elig else free).toNat).getD 0
/-- The default policy's REPL after an event (R114, R115): a demand hit, a demand fill and a promotion touch the way, a prefetch fill and an
accepted offer insert it weakly, a victim choice leaves the tree; the rest of REPL is zero. A line that WbData or SnpData allocates, which R115
does not name, is touched as a demand fill (DESIGN CHOICE, log 84). -/
def defaultRepl (kind fillKind way : Nat) (repl : BitVec 13) : BitVec 256 :=
  (if kind = 1 then treePoint false way repl
    else if kind = 2 then treePoint (fillKind = 1 || fillKind = 2) way repl else repl).setWidth 256
/-- The default image is in force: no image was loaded over it (R159, R160). -/
def defaultOn (s : State) : Bool := s.pol.loaded && (s.pol.st = 0 || s.pol.st = 3)
/-- The image is on the running firmware's TESTED list (R463). -/
def imgTested (s : State) (i : PolImage) : Bool := s.boot.tested.contains (i.pid, i.version)

/-- A victim choice reaches the transaction that waits for it (R80, R151): a way, or the fallback; with no way left the line is not allocated
by a read and a write waits for one. -/
def victimGive (sl : Nat) (e : SeqEv) (way : Option Nat) (s : State) : State :=
  match e.txn.bind (s.txn sl) with
  | some t =>
    if t.ev ≠ some e.id then s
    else
      let el := eligBy s e.pmask (s.setOf t.line) (e.fillKind = 2)
      let (s, r) := match way with
        | some w => (s, some w)
        | none =>
          if el = 0 then (s, none)
          else
            let (s, w) := fallbackWay sl el (el &&& (0x3FFF - validMask (s.curTb (s.setOf t.line)))) s
            (s, some w)
      run sl t.id (updTxn sl t.id (fun u => { u with
        ev := none, way := r, reserved := r.isSome, noFill := u.noFill || r.isNone, ph := if r.isNone && u.ph = .victim then .noWay else u.ph }) s)
  | none => s
/-- A fallback counted under `k` and by the monitor (R150, R151, R479). -/
def victimFallback (sl k : Nat) (e : SeqEv) (s : State) : State := victimGive sl e none (monSys 0x16 1 (attrLine e.line) (cntPol k 1 s))

/-- Step 4 of R158: dispatch stops; queued update events are dropped and counted, queued victim choices take the fallback uncounted. -/
def polStop (s : State) : State :=
  (List.range 8).foldl (fun s sl =>
    let q := s.seq sl
    let s := cntPol 8 q.uq.length (s.updSeq sl (fun q => { q with uq := [], vq := [] }))
    q.vq.foldl (fun s e => victimGive sl e none s) s) { s with pol.stopped := true }
/-- Every sequencer is between events. -/
def seqsIdle (s : State) : Bool := (List.range 8).all (fun sl => (s.seq sl).run.isNone)
/-- A sequencer with an image in it (step 5 of R158): its rotation pointer, clock and queues stay. Instruction words at and above CODE_WORDS are
zero (DESIGN CHOICE, log 85). -/
def seqLoad (i : PolImage) (q : Seq) : Seq :=
  { q with
    g := [], p := [], pend := [], fbuf := none, target := none, slot := false
    imem := (List.range i.code.length).foldl (fun m k => NMap.set 0 m k (i.code.getD k 0)) []
    dmem := (List.range i.data.length).foldl (fun m k => NMap.set 0 m (k + 16) (i.data.getD k 0)) [] }
/-- An INIT event (R143, R147): every frame word is zero. -/
def initEvent (s : State) : SeqEv := ⟨s.nextId, 4, 0, 0, false, 0, 0, 0, 0, 0, 0, s.now, none, false⟩
/-- Steps 5 and 6 of R158: the image in every sequencer, its counters zero (R160), INIT queued in every slice that has an INIT entry. -/
def polInstall (i : PolImage) (st : Byte) (s : State) : State :=
  let ini := NMap.get 0xFFFF i.entry 4 ≠ 0xFFFF
  let s := { s with
    pol.code := i.code, pol.data := i.data, pol.entry := i.entry, pol.replInit := i.repl, pol.pid := i.pid, pol.version := i.version
    pol.st := st, pol.loaded := true, pol.stopped := true, pol.faultSeen := false, pol.cnt := [], pol.initLeft := if ini then 0xFF else 0 }
  (List.range 8).foldl (fun s sl =>
    let e := initEvent s
    ({ s with nextId := s.nextId + 1 }).updSeq sl (fun q => { seqLoad i q with uq := if ini then [e] else [] })) s
/-- A command in progress that loads a policy image. -/
def loadsPolicy (g : Prog) : Bool := g.op = 0x35 || g.op = 0x37 || (g.op = 0x92 && g.p.target = 2)
/-- The command that loads an image, if one does. -/
def polCmd (s : State) : Option Prog := s.cp.prog.find? loadsPolicy
/-- The UNTESTED_COMBINATION event (R463). -/
def postUntested (s : State) : State :=
  postEvent 0x0003 [(0, s.pol.pid.toNat), (8, s.pol.version.toNat), (12, s.fwVersion.toNat % 2 ^ 32)] s
/-- Step 7 of R158: dispatch resumes and the load ends; at a boot, a failed INIT is posted (R464). -/
def polEnd (s : State) : State :=
  let s := { s with pol.stopped := false }
  let fb := s.pol.fallback
  let s := if s.pol.st = 2 then postUntested s else s
  match polCmd s with
  | some g =>
    finish g (if fb then St.init_failed else if s.pol.st = 2 then St.untested_combination else St.ok) 0 { s with pol.fallback := false }
  | none => if fb then postEvent 0x0001 [(4, 0x0404)] { s with pol.fallback := false } else s
/-- A slice's INIT has ended (R158): the last one ends the load; a failed one loads the default image in its place, once, at the same clock: the INIT
events of the other slices, waiting or running, are cut (DESIGN CHOICE, log 132). -/
def initEnd (sl : Nat) (ok : Bool) (s : State) : State :=
  if ok || s.pol.fallback then
    let s := { s with pol.initLeft := s.pol.initLeft &&& ~~~(BitVec.ofNat 8 (2 ^ sl)) }
    if s.pol.initLeft = 0 then polEnd s else s
  else
    let s := polInstall defaultImage 3 { s with pol.fallback := true }
    let s := (List.range 8).foldl (fun s k => s.updSeq k (fun q => { q with run := none })) s
    if s.pol.initLeft = 0 then polEnd s else s
/-- Load an image now (steps 5 to 7). -/
def polLoad (i : PolImage) (st : Byte) (s : State) : State :=
  let s := polInstall i st s
  if s.pol.initLeft = 0 then polEnd s else s
/-- The image a load command carries, with the STATE it gives. -/
def polImageOf (s : State) (g : Prog) : PolImage × Byte :=
  if g.op = 0x37 then (defaultImage, 0)
  else
    let i := imgOf (if g.op = 0x35 then g.p.data else s.boot.polArea)
    (i, if imgTested s i then 1 else 2)
/-- A load that waits for running events (step 4) goes on when the last of them has ended. -/
def polWait (s : State) : State :=
  match polCmd s with
  | some g =>
    if g.stage = 1 && seqsIdle s then
      let (i, st) := polImageOf s g
      polLoad i st (updProg g.id (fun g => { g with stage := 2 }) s)
    else s
  | none => s
/-- Start a load for a command. -/
def polBegin (op : Byte) (p : Packet) (s : State) : State :=
  polWait (polStop (begin_ op p 1 0 0 (if s.replayable then recStop 4 s else s)))

/-- POLICY_LOAD (R158). -/
def execPolicyLoad (p : Packet) (s : State) : Ans :=
  let len := p.par 8 4
  .next (cmd 0x35 [mY, mC] 2 true p
    (fun s => [(p.rsv 12 0 true || badBuf p.addr 8 len, St.invalid_param), (!p.readOk, St.host_read_failed)] ++ imgChecks s len (p.data.take len))
    (polBegin 0x35 p) s)
/-- POLICY_DEFAULT (R159): never refused in its modes, whatever its reserved fields hold. -/
def execPolicyDefault (p : Packet) (s : State) : Ans :=
  .next (cmd 0x37 [mY, mC] 0 false p (fun _ => []) (polBegin 0x37 p) s)
/-- The POLICY_QUERY block (R160). -/
def polBlock (s : State) : List Byte :=
  block 128 ([(0, 8, s.pol.pid.toNat), (8, 4, s.pol.version.toNat), (12, 1, 0), (13, 1, 1), (14, 1, s.pol.st.toNat)] ++
    (List.range 13).map (fun k => (16 + 8 * k, 8, (NMap.get 0 s.pol.cnt k).toNat)))
/-- POLICY_QUERY (R160). -/
def execPolicyQuery (p : Packet) (s : State) : Ans :=
  .next (cmd 0x36 [mY, mC, mR, mD] 0 false p (fun _ => [(p.rsv 8 1 true || badBuf p.addr 128 128, St.invalid_param)])
    (fun s => completeBlock p (polBlock s) St.ok 0 (if p.flag 0 then { s with pol.cnt := [] } else s)) s)
/-- The checks of R161 on a word range. -/
def dataRange (p : Packet) (wr : Bool) : List (Bool × BitVec 16) :=
  let w := p.par 8 2
  let n := p.par 10 2
  [(p.rsv 12 0 false || n = 0 || (wr && w < 16) || badBuf p.addr 1 (8 * n), St.invalid_param), (0x2000 < w + n, St.range_exceeds)]
/-- POLICY_DATA_READ (R161): between two events of the slice; it waits for a running one. -/
def execPolicyDataRead (p : Packet) (s : State) : Ans :=
  .next (cmd 0x38 [mY, mC, mR] 0 false p
    (fun _ => (7 < p.target.toNat, St.invalid_param) :: dataRange p false)
    (fun s => completeBlock p (((List.range (p.par 10 2)).map (fun k =>
        leBytes 8 (NMap.get 0 (s.seq p.target.toNat).dmem (p.par 8 2 + k)).toNat)).flatten) St.ok 0 s) s)
/-- POLICY_DATA_WRITE (R161): between two events of every slice it names. -/
def execPolicyDataWrite (p : Packet) (s : State) : Ans :=
  .next (cmd 0x39 [mY, mC] 0 true p
    (fun _ => (p.target.toNat = 0 || 255 < p.target.toNat, St.invalid_param) :: dataRange p true ++ [(!p.readOk, St.host_read_failed)])
    (fun s =>
      let ws := words64 (p.par 10 2) p.data
      complete p St.ok 0 ((List.range 8).foldl (fun s sl =>
        if bit p.target sl then s.updSeq sl (fun q => { q with
          dmem := (List.range ws.length).foldl (fun m k => NMap.set 0 m (p.par 8 2 + k) ((ws.getD k 0).setWidth 40)) q.dmem })
        else s) (if s.replayable then recStop 4 s else s))) s)

end Sys2Proof.Machine
end

