-- ==== Sys2Proof/Machine/Prefetch.lean ====
section
/-! DEFINITION. Prefetch candidates, the ageing of the side buffers, and the visits of the walks (03, 04, 07). -/
namespace Sys2Proof.Machine

/-- A candidate for a line of region entry i is dropped at step 2 (R117, R121). Remote lines are never prefetched (log 34). -/
def candDropped (s : State) (kind : TK) (l : LineNo) (i p cls : Nat) : Bool :=
  let e := s.region i
  let sl := homeSlice l
  let h := s.slice sl
  let stream := decide (kind = .stream)
  let open_ := (h.tt.filter (fun t => t.kind = kind)).length
  !Rg.covers e l.toNat || decide (Rg.pol e = 3) || (!stream && decide (Rg.pol e = 2)) || Rg.remote e ||
    (Rg.zt e && decide (ztBit s e l ≠ some true)) || h.isOpen l || (s.resident l).isSome || h.wb.any (fun b => b.line = l) ||
    (h.vbOf l).isSome || (h.sbOf l).isSome || decide ((s.dirOf l).st = 3) ||
    decide ((if stream then s.cache.spMax else s.cache.nlMax) ≤ open_) || decide (ttLeft h < 256) || (intPool s sl).isNone ||
    !(s.allocates || (stream && s.mode = 2)) ||
    noWayFor s l (s.part p cls)
/-- A candidate enters its slice: dropped and counted, or a transaction of its own (R116, R117, R121). Its lookup counts as one started (R479; DEDUCED,
log 124). -/
def candidate (kind : TK) (l : LineNo) (i p cls : Nat) (s : State) : State :=
  let s := dirMeet p l (monSys 1 1 ⟨none, some l, some cls, none⟩ s)
  if candDropped s kind l i p cls then cntPf (if kind = .stream then 5 else 1) 1 s
  else
    let sl := homeSlice l
    let t := { newTxn s.nextId l kind p (Hd.mk 0x10 0 0 0 l (BitVec.ofNat 3 cls) 0) i with ph := .tagBlock, fillKind := if kind = .stream then 0 else 1, ent := (intPool s sl).getD 1 }
    run sl t.id ({ s with nextId := s.nextId + 1 }.updSlice sl (fun h => { h with tt := h.tt ++ [t] }))
/-- NEXT_LINE_CANDIDATE (R75, R116, R117): the slice's oldest candidate, behind a walk's line that is due and every REQ that is ready there. Its PF_CAND record has AUX 1 (R484, log
26). In REPLAY candidates come from the trace (R493). -/
def execNextLineCandidate (sl : BitVec 3) (s : State) : Ans :=
  let n := sl.toNat
  .next (clocked s (match if s.quiescing || s.mode = 4 || walkDue s n || (nextReq s n).isSome then [] else (s.slice n).nl with
    | [] => s
    | (l, i, p, c) :: rest => candidate .nextLine l i p c.toNat (capIn p n (intDesc 0xC9 l.toNat 0 1) 0 [] (arbTick n (s.updSlice n (fun h => { h with nl := rest }))))))
/-- STREAM_CANDIDATE_ISSUE (R75, R120, R121): the port's oldest candidate goes to its home slice, behind a walk's line that is due and every REQ that is
ready there. -/
def execStreamCandidateIssue (port : BitVec 4) (s : State) : Ans :=
  let p := port.toNat
  .next (clocked s (match if s.quiescing || s.mode = 4 then [] else (s.port p).cand with
    | [] => s
    | (l, i) :: rest =>
      if walkDue s (homeSlice l) || (nextReq s (homeSlice l)).isSome then s
      else candidate .stream l i p 1 (capIn p (homeSlice l) (intDesc 0xC9 l.toNat 0 0) 0 [] (arbTick (homeSlice l) (s.updPort p (fun q => { q with cand := rest }))))))
/-- One tick of age in a slice's side buffer (R124): a pinned entry is passed over. -/
def ageSlice (sl : Nat) (s : State) : State :=
  let sb := (s.slice sl).sb.map (fun b => if b.pinned then b else { b with age := b.age + 1 })
  let keep := sb.filter (fun b => b.pinned || decide (b.age < s.cache.sbAge))
  cntPf 8 (sb.length - keep.length) (s.updSlice sl (fun h => { h with sb := keep }))
/-- SIDE_BUFFER_AGE_TICK (R124). -/
def execSideBufferAgeTick (s : State) : Ans := .next (clocked s ((List.range 8).foldl (fun s sl => ageSlice sl s) s))

/-- MAINTENANCE_WALK_LINE (R75, R101): the running walk's next visit in a slice; the line it reads shows the given symbols in error, its directory
set the given entries. The row says that its clock has come, the 8 clocks of R75 being over (log 92). -/
def execMaintenanceWalkLine (sl : BitVec 3) (e : WalkRead) (s : State) : Ans := .next (clocked s (walkVisit sl.toNat e.way e.dir s))
/-- DIRECTORY_WALK_SET (R40, R224): the next visit of a purge or back-invalidation walk; PORT_RESET goes on once its purge has ended (R206). -/
def execDirectoryWalkSet (sl : DirSlice) (s : State) : Ans := .next (clocked s (resetStep2 (dirVisit sl.sl.toNat sl.fault s)))

end Sys2Proof.Machine
end

