-- ==== Sys2Proof/Machine/SliceRows.lean ====
section
/-! DEFINITION. The rows of a slice: lookups, queue resumptions, memory-controller returns (03, 07, 13). -/
namespace Sys2Proof.Machine

/-- A request that a slice looks up (R484). -/
def capLookup (sl : Nat) (i : SliceIn) (s : State) : State := if s.recording then capIn i.port sl i.h 0 [] s else s
/-- Data of a memory controller enters a slice (R486, R487). -/
def capMcData (m : McReq) (e : ErrPat) (s : State) : State :=
  if !s.recording then s
  else
    let slot := match m.kind with | .line w => w | .vict _ w => w | _ => 14
    let st := if slot = 14 then decStat (tbDecode m.raw e) else decStat (m.decoded e)
    capIn (16 + s.chanOf m.set / 8) m.sl (intDesc 0xC2 m.set (Config.ttIndex ((s.slice m.sl).tt.findIdx (fun t => t.id = m.txn))).toNat
      (slot + 16 * (if slot = 14 then 2 else 3))) st (wordBytes 128 m.raw) s
/-- A write acceptance enters a slice (R487). -/
def capMcAccept (m : McReq) (s : State) : State :=
  if !s.recording then s
  else capIn (16 + s.chanOf m.set / 8) m.sl (intDesc 0xC3 m.set (Config.ttIndex ((s.slice m.sl).tt.findIdx (fun t => t.id = m.txn))).toNat (14 + 16 * 2)) 0 [] s
/-- Pipeline step 3 of a lookup (R74, R362, R373, R375): its directory set is read, and what the stores it reads show is handled. -/
def lookFaults (sl : Nat) (f : LookFault) (i : SliceIn) (s : State) : State :=
  let s := dirRead sl (dset (Hd.line i.h)) f.dir (capTouch sl i.port (Hd.line i.h) s)
  if f.store = 5 then s else storeFault sl f.store.toNat i.h s
/-- Pipeline step 2 (R74, R375): the transaction table is read, and only a request that goes on reads anything more. -/
def stepTwo (sl : Nat) (f : LookFault) (i : SliceIn) (s : State) : State :=
  let s := if f.store = 5 then storeFault sl 5 i.h s else s
  if stopsAt2 s sl i then s else lookFaults sl f i s
/-- SLICE_LOOKUP (R74, R75): arbitration picks a walk's line that is due, otherwise the REQ whose turn it is. What the first three classes hold acts at
its own row and with what follows from it, so it comes before; prefetch candidates come after. -/
def execSliceLookup (sl : BitVec 3) (f : LookFault) (s : State) : Ans :=
  let n := sl.toNat
  .next (clocked s (if walkDue s n then walkVisit n [] f.dir s else match nextReq s n with
    | none => arbTick n s
    | some i =>
      let s := arbTick n (s.updSlice n (fun h => { h with inq := h.inq.erase i, rr := i.port }))
      arbitrate n i (stepTwo n f i (if stopsAt2 s n i then capLookup n i s else capLookup n i (capTouch n i.port (Hd.line i.h) s)))))
/-- A queued request has a TT entry, or finds one that no request before it waits for (R348). -/
def entReady (s : State) (sl : Nat) (i : SliceIn) : Bool :=
  i.ent ≠ 0 || (ttFree s sl i.port (Hd.tc i.h).toNat &&
    !((s.slice sl).lineQ.takeWhile (fun j => j ≠ i)).any (fun j => j.needTT && decide (j.ent = 0) && ttFree s sl j.port (Hd.tc j.h).toNat))
/-- LINE_QUEUE_RESUME (R213, R348): the head of a line's queue resumes at step 3 when the line is closed and a TT entry has passed to it or is free.
A visit of a walk at the head is the walk's own. -/
def execLineQueueResume (sl : BitVec 3) (q : Queued) (s : State) : Ans :=
  let n := sl.toNat
  let h := s.slice n
  .next (clocked s (match h.lineQ.find? (fun i => Hd.line i.h = q.line) with
    | none => s
    | some i =>
      if i.walk.isSome || h.isOpen q.line || !entReady s n i then s
      else admitIn n i (lookFaults n q.fault i (s.updSlice n (fun h => { h with lineQ := h.lineQ.erase i })))))
/-- SET_QUEUE_RESUME (R216): the oldest parked transaction whose directory set has a way again makes its choice of R212; the
queue is in parking order, so it heads its set's queue. -/
def execSetQueueResume (sl : BitVec 3) (s : State) : Ans :=
  let n := sl.toNat
  let h := s.slice n
  .next (clocked s (match h.setQ.find? (fun i => match s.txn n i with | some t => wayRoom s n t | none => true) with
    | none => s
    | some id =>
      let s := s.updSlice n (fun h => { h with setQ := h.setQ.erase id })
      run n id (updTxn n id (fun u => { u with ph := .start, queued := false }) s)))

/-- MC_DATA_RETURN (R74, R362): the oldest-issued read of that identifier returns with its symbols in error. In REPLAY the controllers have no request of
a slice (R493). -/
def execMcDataReturn (id : Nat) (e : ErrPat) (s : State) : Ans :=
  .next (clocked s (match s.cache.mc.find? (fun m => s.mode ≠ 4 && m.id = id && m.kind ≠ .accept) with
    | none => s
    | some m =>
      let s := capMcData m e { s with cache.mc := s.cache.mc.filter (fun x => x.id ≠ id) }
      match m.kind with
      | .tag => kick m.sl (tagReturn m e s)
      | .line w => (match (s.txn m.sl m.txn).filter (fun t => t.ph = .lineRead) with | some t => lineReturn m.sl t w (m.decoded e) s | none => s)
      | .vict l w => victReturn m l w e s
      | .accept => s))
/-- MC_WRITE_ACCEPT (R72, R526). -/
def execMcWriteAccept (id : Nat) (s : State) : Ans :=
  .next (clocked s (match s.cache.mc.find? (fun m => s.mode ≠ 4 && m.id = id && m.kind = .accept) with
    | none => s
    | some m =>
      let s := capMcAccept m { s with cache.mc := s.cache.mc.filter (fun x => x.id ≠ id) }
      kick m.sl (run m.sl m.txn (updTxn m.sl m.txn (fun u => { u with accepts := u.accepts - 1 }) s))))

end Sys2Proof.Machine
end

