-- ==== Sys2Proof/Machine/Monitor.lean ====
section
/-! DEFINITION. Monitor, recording and replay commands, and the rows of the recorder and of a replay (R476-R498). -/
namespace Sys2Proof.Machine

/-- MON_PORT_SET (R478, R481): event numbers of counters 0 to 3 in bytes 0 to 3 (log 39). -/
def execMonPortSet (p : Packet) (s : State) : Ans :=
  let n := p.target.toNat
  .next (cmd 0x80 [mY, mC, mR] 0 false p
    (fun s => [(p.rsv 4 0 false || decide (s.nPorts ≤ n) || (List.range 4).any (fun i => decide (0x10 < p.par i 1)), St.invalid_param)])
    (fun s => complete p St.ok 0 { s with
      regs.monPE := (List.range 4).foldl (fun m i => NMap.set 0 m (4 * n + i) (BitVec.ofNat 8 (p.par i 1))) s.regs.monPE }) s)
/-- MON_SYS_SET's fields that must be zero or in range (R480): the event in bytes 0 and 1 (log 39). -/
def monSysBad (p : Packet) : Bool :=
  decide (0x16 < p.par 0 2) || decide (15 < p.par 2 1) || p.par 3 1 ≠ 0 || decide (2 ^ 18 ≤ p.par 4 4) || decide (2 ^ 18 ≤ p.par 8 4) || p.par 12 4 ≠ 0 ||
    decide (2 ^ 40 ≤ p.par 16 8) || decide (2 ^ 40 ≤ p.par 24 8) || decide (31 < p.par 32 1) || decide (1 < p.par 33 1) || decide (p.par 24 8 < p.par 16 8)
/-- MON_SYS_SET (R480, R481). -/
def execMonSysSet (p : Packet) (s : State) : Ans :=
  .next (cmd 0x81 [mY, mC, mR] 0 false p
    (fun _ => [(p.rsv 34 0 false || decide (7 < p.target.toNat) || monSysBad p, St.invalid_param)])
    (fun s => complete p St.ok 0 { s with regs.monSE := NMap.set 0 s.regs.monSE p.target.toNat (BitVec.ofNat 272 (p.par 0 34)) }) s)
/-- The MON_QUERY block (R497). -/
def monBlock (s : State) : List Byte :=
  (List.range 48).map (fun k => NMap.get 0 s.regs.monPE k) ++ List.replicate 16 0 ++
    ((List.range 8).map (fun j => leBytes 48 (NMap.get 0 s.regs.monSE j).toNat)).flatten
/-- MON_QUERY (R497). -/
def execMonQuery (p : Packet) (s : State) : Ans :=
  .next (cmd 0x82 [mY, mC, mR, mD] 0 false p (fun _ => [(p.rsv 8 0 true || badBuf p.addr 64 448, St.invalid_param)])
    (fun s => completeBlock p (monBlock s) St.ok 0 s) s)

/-- A region that may hold a trace (R485). -/
def traceOk (e : Region) : Bool :=
  Rg.valid e && decide (Rg.pol e = 2) && decide (Rg.masks e = 0) && !Rg.dur e && !Rg.zt e && !Rg.remote e
/-- REC_CONFIG (R485). -/
def execRecConfig (p : Packet) (s : State) : Ans :=
  let r := p.par 2 2
  .next (cmd 0x83 [mY, mC] 0 false p
    (fun s => [(p.rsv 16 7 true || decide (1 < p.par 0 1) || p.par 1 1 ≠ 0 || p.par 4 4 ≠ 0 || decide (2 ^ 40 ≤ p.par 8 8) || p.par 8 8 = 0 || decide (1023 < r) ||
        !traceOk (s.region r) || (p.flag 0 && (p.par 0 1 = 1 || p.flag 1)), St.invalid_param),
      (decide (Rg.size (s.region r) < p.par 8 8), St.range_exceeds), (s.recording || s.quiescing, St.rec_active)])
    (fun s => complete p St.ok 0 { s with
      rec_.configured := true, rec_.region := r, rec_.limit := p.par 8 8
      rec_.cfg := BitVec.ofNat 4 (p.par 0 1 + 2 * b2n (p.flag 0) + 4 * b2n (p.flag 1) + 8 * b2n (p.flag 2)) }) s)

/-- The START body (R489). -/
def startBody (s : State) : List Byte :=
  block 64 [(0, 4, 0x7E512EC0), (4, 1, 1), (5, 1, s.rec_.cfg.toNat % 8), (6, 1, s.boot.stepping.toNat), (7, 1, s.popByte), (8, 8, s.fwVersion.toNat),
    (16, 8, s.pol.pid.toNat), (24, 4, s.pol.version.toNat), (28, 2, 0x0100), (30, 2, s.deviceId), (32, 8, s.cycle), (40, 4, s.ao.bootCount.toNat),
    (44, 8, s.ao.time.toNat)]
/-- A number in an 8-byte word. -/
def w8 (n : Nat) : List Byte := leBytes 8 n
/-- One slice's part of the snapshot (R490): its size is 82,072 bytes (log 40). -/
def snapSlice (h : Slice) : List Byte :=
  ((List.range 2048).map (fun k => w8 (NMap.get 0 h.seq.imem k).toNat)).flatten ++ ((List.range 8192).map (fun k => w8 (NMap.get 0 h.seq.dmem k).toNat)).flatten ++
    ((List.range 16).map (fun k => w8 (NMap.get 0 h.seq.g k).toNat)).flatten ++
    w8 ((List.range 4).map (fun k => b2n (NMap.get false h.seq.p k) * 2 ^ k)).sum ++ w8 h.seq.rot.toNat ++ w8 h.dirPtr.toNat
/-- The snapshot (R490), padded to whole SNAP bodies; the bytes each value takes are log 40's. -/
def snapBytes (s : State) : List Byte :=
  let c := s.cache
  let b := ((List.range 8).map (fun sl => snapSlice (s.slice sl))).flatten ++ ((List.range 1024).map (fun i => wordBytes 40 (s.region i))).flatten ++
    (List.range 48).map (fun k => (NMap.get 0 c.map k).setWidth 8) ++ ((List.range 16).map (fun k => leBytes 2 (NMap.get 0x3FFF c.pmask k).toNat)).flatten ++
    w8 c.ways.toNat ++ w8 c.nlPorts.toNat ++ w8 c.spPorts.toNat ++ w8 c.nlMax ++ w8 c.spMax ++ w8 c.spDepth ++ w8 c.sbAge ++
    w8 s.regs.combine.toNat ++ w8 s.regs.snpTo.toNat ++ w8 s.regs.farTo.toNat ++
    w8 c.retSets.length ++ (c.retSets.map w8).flatten ++ w8 c.retBanks.length ++ (c.retBanks.map w8).flatten
  b ++ List.replicate ((240 - b.length % 240) % 240) 0
/-- Cut bytes into pieces of 240. -/
def snapPieces : Nat → List Byte → List (List Byte)
  | 0, _ => []
  | k + 1, b => if b.isEmpty then [] else b.take 240 :: snapPieces k (b.drop 240)
/-- T0 (R489): the counts start anew, START is recorded, and for a REPLAYABLE recording the snapshot. -/
def recBegin (s : State) : State :=
  let s := { s with
    rec_.st := 2, rec_.reason := 0xFF, rec_.startIdx := 0, rec_.records := 0, rec_.units := 0, rec_.lines := 0, rec_.staging := [], rec_.peak := 0
    rec_.t0 := s.cycle, rec_.poisoned := 0, rec_.touched := [] }
  let s := recRaw 20 0 9 0 (startBody s) s
  if s.replayable then (snapPieces 3100 (snapBytes s)).foldl (fun s b => recRaw 20 0 8 0 b s) s else s
/-- No slice has an open transaction and every write buffer, victim buffer and sequencer queue is empty (R489). -/
def slicesIdle (s : State) : Bool :=
  (List.range 8).all (fun sl =>
    let h := s.slice sl
    h.tt.isEmpty && h.inq.isEmpty && h.lineQ.isEmpty && h.wb.isEmpty && h.vb.isEmpty && h.seq.vq.isEmpty && h.seq.uq.isEmpty && h.seq.run.isNone)
/-- Step 1 of R489: side-buffer entries are freed as by ageing; ingress, prefetchers, walks and patrol stand still while STATE is quiescing. -/
def freeSides (s : State) : State :=
  (List.range 8).foldl (fun s sl =>
    let keep := (s.slice sl).sb.filter (fun b => b.pinned)
    cntPf 8 ((s.slice sl).sb.length - keep.length) (s.updSlice sl (fun h => { h with sb := keep }))) s
/-- REC_START (R489, R497). -/
def execRecStart (p : Packet) (s : State) : Ans :=
  .next (act s (cmd 0x84 [mY, mC] 0 false p
    (fun s => [(p.rsv 0 0 true || !s.rec_.configured, St.invalid_param), (s.recording || s.quiescing, St.rec_active)])
    (fun s => if s.replayable then freeSides { begin_ 0x84 p 1 0 0 s with rec_.st := 1 } else complete p St.ok 0 (recBegin s)) s))
/-- The REC_START in progress ends. -/
def recStartEnd (st : BitVec 16) (s : State) : State := match s.running 0x84 with | some g => finish g st 0 s | none => s
/-- REC_T0_REACHED (R489 steps 3 and 4). -/
def execRecT0Reached (s : State) : Ans :=
  .next (act s (if s.quiescing && slicesIdle s then recStartEnd St.ok (recBegin s) else s))
/-- REC_START gives up: ingress resumes (R489). -/
def quiesceFail (s : State) : State := if s.quiescing then recStartEnd St.quiesce_failed { s with rec_.st := 0 } else s
/-- REC_QUIESCE_TIMEOUT (R489). -/
def execRecQuiesceTimeout (s : State) : Ans := .next (act s (quiesceFail s))
/-- REC_STOP (R491, R497). -/
def execRecStop (p : Packet) (s : State) : Ans :=
  .next (cmd 0x85 [mY, mC, mD] 0 false p (fun _ => [(p.rsv 0 0 true, St.invalid_param)]) (fun s => complete p St.ok 0 (recStop 0 s)) s)
/-- The REC_QUERY block (R498). -/
def recBlock (s : State) : List Byte :=
  let r := s.rec_
  block 64 [(0, 1, r.st.toNat), (1, 1, r.cfg.toNat), (2, 1, r.reason.toNat), (4, 4, r.region), (8, 8, r.startIdx), (16, 8, r.records), (24, 8, r.lines),
    (32, 8, r.peak), (40, 8, r.t0), (48, 8, r.poisoned)]
/-- REC_QUERY (R498). -/
def execRecQuery (p : Packet) (s : State) : Ans :=
  .next (cmd 0x86 [mY, mC, mR, mD] 0 false p (fun _ => [(p.rsv 8 0 true || badBuf p.addr 1 64, St.invalid_param)])
    (fun s => completeBlock p (recBlock s) St.ok 0 s) s)
/-- The trace line the next spill goes to (R485). -/
def spillLine (s : State) : LineNo :=
  BitVec.ofNat 40 (Rg.base (s.region s.rec_.region) + (if bit s.rec_.cfg 2 then s.rec_.lines % s.rec_.limit else s.rec_.lines))
/-- One full line of staged units goes to the trace region (R491): what is left of a stopped recording is filled with zeros. -/
def spill (ok perr : Bool) (s : State) : State :=
  let r := s.rec_
  let full := !bit r.cfg 2 && decide (r.limit ≤ r.lines)
  if !(s.recording || r.st = 3) || r.staging.isEmpty || (s.recording && decide (r.staging.length < 128)) then s
  else if full then recStop 1 { s with rec_.staging := [] }
  else if !ok || !traceOk (s.region r.region) || deadAt s (spillLine s) then
    recStop 3 (logErr 0x0022 3 2 (s.farOf (spillLine s)).1 0 (spillLine s).toNat (if deadAt s (spillLine s) then 2 else 0) (cntErr 9 1 { s with rec_.staging := [] }))
  else
    let b := slice0 r.staging 0 128
    let s := if perr then logSram 11 5 0 0 s else s
    let s := { s with
      rec_.staging := s.rec_.staging.drop 128, rec_.lines := r.lines + 1, rec_.units := r.units + 8, rec_.poisoned := r.poisoned + b2n perr }.put (.trace (spillLine s) b perr)
    if !bit r.cfg 2 && s.rec_.limit ≤ s.rec_.lines then recStop 1 s else s
/-- REC_SPILL_WRITE (R491). -/
def execRecSpillWrite (ok perr : Bool) (s : State) : Ans := .next (act s (if s.mode = 4 then s else spill ok perr s))

/-- A trace record: unit, slice, kind, second head word, body, CYCLE (R486). -/
structure TRec where
  unit : Nat
  sl : Nat
  kind : Nat
  w1 : Nat
  body : List Byte
  cycle : Nat
deriving DecidableEq, Repr
/-- The descriptor of a record (R487). -/
def TRec.desc (r : TRec) : Slot := BitVec.ofNat 128 (leAt r.body 0 16)
/-- Records of a run of trace bytes (R486). -/
def recParse : Nat → List Byte → List TRec
  | 0, _ => []
  | k + 1, b =>
    if b.length < 16 then []
    else
      let h := leAt b 0 8
      let n := 16 * (h / 16 % 16)
      ⟨h / 2048 % 32, h / 256 % 8, h % 16, leAt b 8 8, (b.drop 16).take n, h / 65536⟩ :: recParse k (b.drop (16 + n))
/-- What a replay set aside comes back (R493). -/
def replayRestore (s : State) : State :=
  match s.rec_.saved with
  | some v => { s with
      cache := v.cache, links := v.links, regions := v.regions, slices := v.slices, regs.combine := v.combine, regs.snpTo := v.snpTo, regs.farTo := v.farTo
      rec_.saved := none, rec_.rOut := [] }
  | none => s
/-- Directory and tag-block caches empty (R493, R496). -/
def emptySlices (s : State) : State := (List.range 8).foldl (fun s sl => s.updSlice sl (fun h => { h with dir := [], dirBad := [], tbc := [], lostSets := [], lostAt := [], jobs := [] })) s
/-- The image of the policy area is loaded, or the default image where the area is empty or its image is refused (R464). -/
def bootPolicy (s : State) : State :=
  let b := s.boot.polArea
  let s := (List.range 8).foldl (fun s k => s.updSeq k (fun q => { q with run := none, vq := [], uq := [] })) { s with pol.fallback := false }
  if b.isEmpty && !s.boot.polBad then polLoad defaultImage 0 { s with boot.polRefused := false }
  else match firstFail ((s.boot.polBad, St.image_invalid) :: imgChecks s (leAt b 8 4) b) with
    | some st => polLoad defaultImage 3 (postEvent 0x0001 [(4, st.toNat)] { s with boot.polRefused := true })
    | none => polLoad (imgOf b) (if imgTested s (imgOf b) then 1 else 2) { s with boot.polRefused := false }
/-- The clean-up of a replay (R496), which is no reset: BOOT_FLAGS keeps what the last reset found (R470). -/
def replayClean (s : State) : State :=
  { bootPolicy { emptySlices s with cache.invDone := false, rec_.rClean := false } with boot.polRefused := s.boot.polRefused }
/-- A replay ends (R496): for DRAIN the clean-up waits for RESUME. -/
def replayEnd (reason : Nat) (s : State) : State :=
  let s := postEvent 0x0704 [(0, reason), (8, s.rec_.rCycle)] { replayRestore s with rec_.rSt := 2, rec_.rReason := BitVec.ofNat 8 reason }
  if reason = 3 then { s with rec_.rClean := true } else recompute (changeMode 2 6 (replayClean s))
/-- A slice's part of the snapshot goes into the slice (R493). -/
def loadSlice (b : List Byte) (h : Slice) : Slice :=
  let w := fun (k : Nat) => leAt b (8 * k) 8
  { h with
    dir := [], dirBad := [], tbc := [], lostSets := [], lostAt := [], jobs := [], dirPtr := BitVec.ofNat 4 (w 10258)
    seq := { h.seq with
      imem := (List.range 2048).foldl (fun m k => NMap.set 0 m k (BitVec.ofNat 64 (w k))) []
      dmem := (List.range 8192).foldl (fun m k => NMap.set 0 m k (BitVec.ofNat 40 (w (2048 + k)))) []
      g := (List.range 16).foldl (fun m k => NMap.set 0 m k (BitVec.ofNat 40 (w (10240 + k)))) []
      p := (List.range 4).foldl (fun m k => NMap.set false m k ((w 10256).testBit k)) []
      rot := BitVec.ofNat 4 (w 10257), vq := [], uq := [], run := none, pend := [], fbuf := none, target := none, slot := false } }
/-- The snapshot goes into the slices (R490, R493). -/
def snapLoad (b : List Byte) (s : State) : State :=
  let s := (List.range 8).foldl (fun s sl => s.updSlice sl (loadSlice ((b.drop (82072 * sl)).take 82072))) s
  let b := b.drop (82072 * 8)
  let c := b.drop 40960
  let w := fun (k : Nat) => leAt c (80 + 8 * k) 8
  let ns := w 10
  let nb := w (11 + ns)
  { s with
    regions := (List.range 1024).foldl (fun m i => NMap.set 0 m i (BitVec.ofNat 320 (leAt b (40 * i) 40))) []
    cache.map := (List.range 48).foldl (fun m k => NMap.set 0 m k (BitVec.ofNat 4 (leAt c k 1))) []
    cache.pmask := (List.range 16).foldl (fun m k => NMap.set 0x3FFF m k (BitVec.ofNat 14 (leAt c (48 + 2 * k) 2))) []
    cache.ways := BitVec.ofNat 14 (w 0), cache.nlPorts := BitVec.ofNat 12 (w 1), cache.spPorts := BitVec.ofNat 12 (w 2), cache.nlMax := w 3, cache.spMax := w 4
    cache.spDepth := w 5, cache.sbAge := w 6, regs.combine := BitVec.ofNat 8 (w 7), regs.snpTo := BitVec.ofNat 14 (w 8), regs.farTo := BitVec.ofNat 20 (w 9)
    cache.retSets := (List.range (min ns 4096)).map (fun k => w (11 + k)), cache.retBanks := (List.range (min nb 64)).map (fun k => w (12 + ns + k)) }
/-- The first field of START that differs from this hub's, as its byte offset, in the order R492 lists them. -/
def startMismatch (s : State) (b : List Byte) : Option Nat :=
  [(6, s.boot.stepping.toNat, 1), (8, s.fwVersion.toNat, 8), (28, 0x0100, 2), (7, s.popByte, 1)].findSome?
    (fun (x : Nat × Nat × Nat) => if leAt b x.1 x.2.2 ≠ x.2.1 then some x.1 else none)
/-- The 16-byte units that so many records take (R485, R486): heads and bodies; of a record that cannot be read its head alone. -/
def unitsOf (n : Nat) (rs : List TRec) : Nat := n + ((rs.take n).map (fun r => r.body.length / 16)).sum
/-- The refusals of REPLAY_START (R492), in order; `rs` the trace records from the index on, as far memory gives them. -/
def replayChecks (p : Packet) (rs : List TRec) (s : State) : List (Bool × BitVec 16) :=
  let e := s.region (p.par 0 2)
  let st := match rs with | r :: _ => if r.kind = 9 && r.body.length = 64 && leAt r.body 0 4 = 0x7E512EC0 then some r.body else none | [] => none
  [(p.rsv 24 0 true || decide (1023 < p.par 0 2) || p.par 2 6 ≠ 0 || p.par 16 8 = 0 || !traceOk e, St.invalid_param),
    (decide (8 * Rg.size e < p.par 8 8 + unitsOf (p.par 16 8) rs), St.range_exceeds),
    (!p.ok || (match st with | some b => leAt b 4 1 ≠ 1 || leAt b 5 1 % 4 ≠ 2 | none => true), St.trace_invalid),
    (s.recording || s.quiescing, St.rec_active),
    ((List.range 12).any (fun q => (s.port q).open_) || s.str.ctx.any (fun c => c.2.state ≠ 0), St.replay_busy)]
/-- Steps 1 to 4 of R493: what the replay uses is set aside, the slices are emptied and loaded, REPLAY is entered. -/
def replayBegin (p : Packet) (rs : List TRec) (s : State) : State :=
  let b := (rs.headD ⟨0, 0, 0, 0, [], 0⟩).body
  let snaps := (rs.drop 1).takeWhile (fun r => r.kind = 8)
  let v : Saved := ⟨s.cache, s.links, s.regions, s.slices, s.regs.combine, s.regs.snpTo, s.regs.farTo⟩
  let s := snapLoad ((snaps.map (fun r => r.body)).flatten) { s with
    rec_.saved := some v, cache.enabled := false, cache.mc := [], cache.walks := [], cache.bitmap := [], links.reqs := [], links.waitq := [], links.writes := []
    slices := [] }
  let s := (List.range 12).foldl (fun s q => s.updPort q (fun x => { x with link := 3 })) s
  let n := 1 + snaps.length
  changeMode 4 2 { s with
    rec_.rSt := 1, rec_.rReason := 0, rec_.rSlice := 0, rec_.rMis := 0, rec_.rCycle := 0, rec_.rRecs := 0, rec_.rLeft := p.par 16 8 - n
    rec_.rIndex := p.par 8 8 + 5 + 16 * snaps.length, rec_.rExp := 0, rec_.rExpD := 0, rec_.rGot := 0, rec_.rGotD := 0, rec_.rStall := 0, rec_.rOut := []
    rec_.rT0 := leAt b 32 8, rec_.rNow := leAt b 32 8, rec_.touched := [] }
/-- REPLAY_START (R492, R493). -/
def execReplayStart (p : Packet) (s : State) : Ans :=
  let rs := recParse 4096 p.data
  .next (act s (cmd 0x87 [mY] 0 false p (replayChecks p rs)
    (fun s => match startMismatch s (rs.headD ⟨0, 0, 0, 0, [], 0⟩).body with
      | some o => complete p St.trace_mismatch o s
      | none =>
        let s := complete p St.ok 0 (replayBegin p rs s)
        if s.rec_.rLeft = 0 then replayEnd 0 s else s) s))
/-- REPLAY_STOP (R496). -/
def execReplayStop (p : Packet) (s : State) : Ans :=
  .next (act s (cmd 0x88 [mR] 0 false p (fun _ => [(p.rsv 0 0 true, St.invalid_param)]) (fun s => complete p St.ok 0 (replayEnd 1 s)) s))
/-- The REPLAY_QUERY block (R498). -/
def replayBlock (s : State) : List Byte :=
  let r := s.rec_
  block 128 [(0, 1, r.rSt.toNat), (1, 1, r.rReason.toNat), (2, 1, r.rSlice.toNat), (3, 1, r.rMis.toNat), (8, 8, r.rCycle), (16, 8, r.rRecs), (24, 8, r.rIndex),
    (32, 16, r.rExp.toNat), (48, 8, r.rExpD.toNat), (56, 16, r.rGot.toNat), (72, 8, r.rGotD.toNat), (80, 8, r.rStall)]
/-- REPLAY_QUERY (R498). -/
def execReplayQuery (p : Packet) (s : State) : Ans :=
  .next (cmd 0x89 [mY, mC, mR, mD] 0 false p (fun _ => [(p.rsv 8 0 true || badBuf p.addr 1 128, St.invalid_param)])
    (fun s => completeBlock p (replayBlock s) St.ok 0 s) s)

/-- A TOUCH record is installed (R493). -/
def installTouch (r : TRec) (s : State) : State :=
  let n := leAt r.body 7 5
  let b := r.body.drop 16
  let s := { s with rec_.touched := (r.kind - 4, r.sl, n) :: s.rec_.touched }
  if r.kind = 5 then
    (List.range 16).foldl (fun s w => s.updSlice r.sl (fun h => { h with dir := NMap.set 0 h.dir (16 * n + w) (BitVec.ofNat 64 (leAt b (8 * w) 8)) })) s
  else if r.kind = 6 then
    (List.range 16).foldl (fun s k =>
      let set := leAt b (4 * k) 4
      if (leAt b 72 2).testBit k && !(s.tbcOf set).valid then
        s.updSlice r.sl (fun h => { h with tbc := NMap.set TbcEnt.init h.tbc set ⟨true, 0, (leAt b 74 2).testBit k, leAt b 64 8 / 16 ^ k % 16⟩, tbcClk := max h.tbcClk 16 })
      else s) s
  else
    let s := { s with cache.enabled := true }
    if b.isEmpty then s
    else s.updSlice r.sl (fun h => { h with tbc := NMap.upd TbcEnt.init h.tbc n (fun e => { e with valid := true, block := BitVec.ofNat 1024 (leNat b) }) })
/-- The outstanding read of a slot of a set. -/
def mcAsked (s : State) (sl set slot : Nat) : Option McReq :=
  s.cache.mc.find? (fun m => m.sl = sl && m.set = set && (if slot = 14 then m.kind = .tag else match m.kind with | .line w => w = slot | .vict _ w => w = slot | _ => false))
/-- Recorded data that no outstanding read asks for is what the slice reads within a row of this cycle: it stands in the slot (R493). -/
def mcPlace (s : State) (r : TRec) : State :=
  let set := (Hd.line r.desc).toNat
  let slot := (Hd.aux r.desc).toNat % 16
  let v : Line := BitVec.ofNat 1024 (leNat (r.body.drop 16))
  if r.kind ≠ 1 || Hd.op r.desc ≠ 0xC2 || (mcAsked s r.sl set slot).isSome then s
  else if slot = 14 then { s with cache.tb := NMap.set 0 s.cache.tb set v }
  else { s with
    cache.data := NMap.set 0 s.cache.data (set * 16 + slot) v
    cache.check := NMap.set 0 s.cache.check (set * 16 + slot) (lineCheck v (teOf (s.curTb set) slot)) }
/-- Data of a memory controller as recorded (R493): the status it came with stands for the symbols in error. -/
def injectMc (r : TRec) (d : Slot) (b : List Byte) (s : State) : State :=
  let set := (Hd.line d).toNat
  let slot := (Hd.aux d).toNat % 16
  match mcAsked s r.sl set slot with
  | none => s
  | some m =>
    let v : Line := BitVec.ofNat 1024 (leNat b)
    let e := if r.w1 = 0 then [] else flipSyms (if r.w1 = 1 then 1 else 5)
    let s := { s with cache.mc := s.cache.mc.filter (fun x => x.id ≠ m.id) }
    if slot = 14 then kick r.sl (tagReturn { m with raw := v } e { s with cache.tb := NMap.set 0 s.cache.tb set v })
    else
      let te := teOf (s.curTb set) slot
      match m.kind, s.txn r.sl m.txn with
      | .vict l w, _ => victReturn { m with raw := v, chk := lineCheck v m.te } l w e s
      | _, some t => lineReturn r.sl t slot ({ m with raw := v, te := te, chk := lineCheck v te }.decoded e) { s with
          cache.data := NMap.set 0 s.cache.data (set * 16 + slot) v, cache.check := NMap.set 0 s.cache.check (set * 16 + slot) (lineCheck v te) }
      | _, none => s
/-- How the far read of a line in a cycle ended, as recorded (R486). -/
def recFar (g : List TRec) (l : LineNo) : FarEnd :=
  match g.find? (fun r => r.kind = 1 && Hd.op r.desc = 0xC6 && Hd.line r.desc = l) with
  | some r => if r.w1 = 4 then .error else if r.w1 = 5 then .timeout else .data (BitVec.ofNat 1024 (leNat (r.body.drop 16))) (r.w1 = 3)
  | none => .error
/-- What the end of a command's walk, or a register write, changes in the slices (R493; log 26). -/
def injectEnd (sl : Nat) (op : Byte) (n v : Nat) (s : State) : State :=
  if op = 0x11 then { s with
    cache.bitmap := dropBitmap (s.region n) s.cache.bitmap, regions := NMap.upd 0 s.regions n (fun e => e &&& ~~~(BitVec.ofNat 320 (2 ^ 63))) }
  else if op = 0x20 then s.updSlice sl (fun h => { h with tbc := [] })
  else if op = 0x22 then { s with cache.enabled := false, cache.disabling := false }
  else if op = 0x23 then { s with cache.walks := s.cache.walks.filter (fun k => k.op ≠ 0x23) }
  else if op = 0xFE then
    if n = 0x40 then { s with regs.combine := BitVec.ofNat 8 v } else if n = 0x8008 then { s with regs.snpTo := BitVec.ofNat 14 v } else { s with regs.farTo := BitVec.ofNat 20 v }
  else if (if op = 0x74 then s.cache.retSets else if op = 0x75 then s.cache.retBanks else s.cache.quar).contains n then s
  else retireMark ⟨0, op, n, 1, 0x3FFF, true, false, [], 0, 0, [], [], false, [], [], false, []⟩ s
/-- What the start of a command changes in the slices (R493), from its entry; ways that a WAY_ENABLE turns off serve hits until its walk has ended
(R95). A policy command ends a REPLAYABLE recording (R491). -/
def injectCtrl (sl : Nat) (e : BitVec 512) (s : State) : State :=
  let p := takenPacket (0, e)
  let op : Byte := bits e 7 0
  let i := p.target.toNat
  if bit e 14 then injectEnd sl op i (nbits e 127 64) s
  else if op = 0x10 then { s with regions := NMap.set 0 s.regions i ((setEntry s p &&& ~~~(BitVec.ofNat 320 (2 ^ 135))) ||| BitVec.ofNat 320 (2 ^ 63)) }
  else if op = 0x12 then setPerm p s
  else if op = 0x21 then { s with cache.enabled := true }
  else if op = 0x05 || op = 0x22 then { s with cache.disabling := true }
  else if op = 0x23 then
    let m := BitVec.ofNat 14 (p.par 0 2)
    kickAll { s with
      cache.ways := m
      cache.walks := s.cache.walks ++ [⟨0, 0x23, 0, 0, s.cache.ways &&& ~~~m, true, false, [], 0, 0, [], [], true, [], [], false, []⟩] }
  else if op = 0x30 then setMap p s else if op = 0x31 then setMask p s else if op = 0x33 then setPrefetch p s
  else s
/-- A recorded visit of a walk, of the patrol or of a back-invalidation enters its slice (R493): the walk goes on with it, in the order of its lines. -/
def injectWalk (sl : Nat) (l : LineNo) (b : List Byte) (s : State) : State :=
  let op : Byte := BitVec.ofNat 8 (leAt b 0 1)
  let form := leAt b 1 1
  let n := leAt b 2 6
  let cmd := 2 ^ 48 + leAt b 8 6
  if op = 0x78 then patrolSet n [] [] s
  else if form.testBit 2 then reclTxn sl l ((s.dirOf l).list.map (fun p => (p, 0x41))) true s
  else
    let k : Walk := ⟨cmd, op, 0, 0, 0x3FFF, form.testBit 0, form.testBit 1, [], 0, 0, [], [], false, [], [], true, []⟩
    let s := walkPut sl k n l (if s.cache.walks.any (fun j => j.cmd = cmd) then s else { s with cache.walks := s.cache.walks ++ [k] })
    match walkReady s sl cmd with
    | some i => walkAct sl k i [] ⟨[], false⟩ s
    | none => s
/-- A recorded prefetch candidate enters its slice (R493): a next-line one, of AUX 1, leaves the slice's own candidates (log 26). -/
def injectCand (r : TRec) (s : State) : State :=
  let l := Hd.line r.desc
  if (Hd.aux r.desc).toNat % 2 = 0 then candidate .stream l (s.regionIx l) r.unit 1 s
  else match (s.slice r.sl).nl.find? (fun x => x.1 = l) with
    | some x => candidate .nextLine l x.2.1 x.2.2.1 x.2.2.2.toNat (s.updSlice r.sl (fun h => { h with nl := h.nl.erase x }))
    | none => candidate .nextLine l (s.regionIx l) r.unit 0 s
/-- A recorded input of a cycle `g` enters its slice (R493). -/
def inject (g : List TRec) (r : TRec) (s : State) : State :=
  let d := r.desc
  let b := r.body.drop 16
  let op := Hd.op d
  let l := Hd.line d
  let mask : Slot := if op = 0x8C then BitVec.ofNat 128 (leAt b 0 16) else fullMask
  let data : Line := BitVec.ofNat 1024 (leNat (if op = 0x8C then b.drop 16 else b))
  if op < 0x20 then
    match s.coverNew l with
    | some (i, e) =>
      let s := accept r.unit d i e s
      (match ((s.slice r.sl).inq.getLast?) with
        | some x => arbitrate r.sl x (s.updSlice r.sl (fun h => { h with inq := h.inq.erase x }))
        | none => s)
    | none => s
  else if 0x40 ≤ op && op < 0x60 then homeSnoop r.unit d s
  else if forAgent s r.unit d then hubApply r.unit d data s
  else if op < 0xC0 then applyAnswer r.unit d mask data s
  else if op = 0xC2 then injectMc r d b s
  else if op = 0xC3 then
    match s.cache.mc.find? (fun m => m.sl = r.sl && m.set = l.toNat && decide (m.kind = .accept)) with
    | some m => kick m.sl (run m.sl m.txn (updTxn m.sl m.txn (fun u => { u with accepts := u.accepts - 1 }) { s with cache.mc := s.cache.mc.filter (fun x => x.id ≠ m.id) }))
    | none => s
  else if op = 0xC6 || op = 0xC7 then
    match s.links.reqs.find? (fun q => q.line = l && q.write == (op = 0xC7)) with
    | some q => farEnd q (if r.w1 = 4 then .inl 0 else if r.w1 = 5 then .inl 1 else .inr (data, r.w1 = 3)) s
    | none => s
  else if op = 0xC8 then (if b.length = 16 then injectWalk r.sl l b s else injectCtrl r.sl (BitVec.ofNat 512 (leNat (b.take 64))) s)
  else if op = 0xC9 then injectCand r s
  else if op = 0xCA then
    (hashServe l ⟨recFar g (match s.cover l with | some (_, e) => ztLine e l | none => l), recFar g l⟩ [] (hashLook l s)).1
  else s
/-- A replay diverges (R494): slice, kind of mismatch, what was recorded and what was produced. -/
def diverge (sl mis : Nat) (ex got : Slot × BitVec 64) (s : State) : State :=
  replayEnd 2 (postEvent 0x0703 [(0, sl), (8, s.rec_.rCycle)] { s with
    rec_.rSlice := BitVec.ofNat 8 sl, rec_.rMis := BitVec.ofNat 8 mis, rec_.rExp := ex.1, rec_.rExpD := ex.2, rec_.rGot := got.1, rec_.rGotD := got.2 })
/-- An OUT or HOLD record is compared with the oldest output of its slice not yet compared (R494); the tag-block write-back of an entry no record
touched is compared by descriptor. -/
def compareOut (r : TRec) (s : State) : State :=
  let d : Slot := if r.kind = 7 then 0 else r.desc
  let g := if r.kind = 7 then 0 else BitVec.ofNat 64 r.w1
  match s.rec_.rOut.find? (fun x => x.1 = r.sl) with
  | none => diverge r.sl 1 (d, g) (0, 0) s
  | some x =>
    let s := { s with rec_.rOut := s.rec_.rOut.erase x }
    let by_ := Hd.op d = 0xC1 && (Hd.aux d).toNat % 16 = 14 && !s.rec_.touched.contains (0, r.sl, (Hd.line d).toNat)
    if x.2.1 ≠ d then diverge r.sl 3 (d, g) x.2 s
    else if x.2.2 ≠ g && !by_ then diverge r.sl 4 (d, g) x.2 s
    else s
/-- An input or TOUCH record of a replay cycle `g` (R493). -/
def replayIn (g : List TRec) (s : State) (r : TRec) : State :=
  if s.mode ≠ 4 then s
  else if r.kind = 1 then inject g r { s with rec_.rRecs := s.rec_.rRecs + 1 }
  else if 4 ≤ r.kind && r.kind ≤ 6 then installTouch r s else s
/-- An output record of a replay cycle, at its index in the trace (R494). -/
def replayOut (s : State) (x : TRec × Nat) : State :=
  if s.mode ≠ 4 || !(x.1.kind = 3 || x.1.kind = 7) then s else compareOut x.1 { s with rec_.rRecs := s.rec_.rRecs + 1, rec_.rIndex := x.2 }
/-- Records with their indexes in the trace. -/
def recIndex : Nat → List TRec → List (TRec × Nat)
  | _, [] => []
  | n, r :: l => (r, n) :: recIndex (n + 1 + r.body.length / 16) l
/-- One replay cycle (R493, R494): its inputs in order, then every slice's outputs against its records; an output that the cycle does not record
differs from the trace. -/
def replayGroup (s : State) (g : List TRec) : State :=
  if s.mode ≠ 4 then s
  else
    let c := (g.headD ⟨0, 0, 0, 0, [], 0⟩).cycle
    let n := s.rec_.rIndex
    let s := { s with rec_.rCycle := c, rec_.rNow := s.rec_.rT0 + c, rec_.rLeft := s.rec_.rLeft - g.length }
    let s := (recIndex n g).foldl replayOut (g.foldl (replayIn g) (g.foldl mcPlace s))
    if s.mode ≠ 4 then s
    else
      let s := { s with rec_.rIndex := n + unitsOf g.length g }
      match s.rec_.rOut with
      | x :: _ => diverge x.1 2 (0, 0) x.2 s
      | [] => s
/-- Records by their cycles (R486). -/
def recCycles : Nat → List TRec → List (List TRec)
  | 0, _ => []
  | _, [] => []
  | n + 1, r :: l => (r :: l.takeWhile (fun x => x.cycle = r.cycle)) :: recCycles n (l.dropWhile (fun x => x.cycle = r.cycle))
/-- REPLAY_CYCLE (R493, R494, R496): the records of a replay cycle, as the trace gives them. -/
def replayCycle (b : List Byte) (ok : Bool) (s : State) : State :=
  if s.mode ≠ 4 then s
  else if !ok then replayEnd 4 s
  else
    let s := (recCycles 4096 ((recParse 4096 b).take s.rec_.rLeft)).foldl replayGroup s
    if s.mode ≠ 4 || s.rec_.rLeft ≠ 0 then s
    else match s.rec_.rOut with
      | x :: _ => diverge x.1 2 (0, 0) x.2 s
      | [] => replayEnd 0 s
/-- REPLAY_CYCLE (R493). -/
def execReplayCycle (b : List Byte) (ok : Bool) (s : State) : Ans := .next (act s (replayCycle b ok s))

end Sys2Proof.Machine
end

