-- ==== Sys2Proof/Machine/Drain.lean ====
section
/-! DEFINITION. The power-fail drain: its causes, entry, steps and end, RESUME, and the vote of the triplicated fields (R324-R344, R363). -/
namespace Sys2Proof.Machine

/-- The filtered PFW_N level (R324): high while PFW_EN is clear. -/
def State.pfwLevel (s : State) : Bool := s.ao.pfwHigh || !bit s.pfwCfg 8
/-- DRAIN_DONE is asserted; a thermal trip then shuts the hub down (R327, R340). -/
def doneUp (s : State) : State :=
  let s := { s with ao.drainDone := true }
  if s.drain.thermal then { s with ao.thermtrip := true, ao.stopped := true } else s
/-- A command is aborted at DRAIN entry (R103, R331). -/
def abortCmd (f : Prog → Bool) (st : BitVec 16) (s : State) : State := (s.cp.prog.filter f).foldl (fun s g => finish g st 0 s) s
/-- The places a walk goes on from (R103): in each slice the least whose line is still queued, or where it stands. -/
def walkBack (s : State) (k : Walk) : NMap Nat :=
  (List.range 8).foldl (fun m sl =>
    match (((s.slice sl).lineQ.filterMap (fun i => i.walk)).filter (fun x => x.1 = k.cmd)).map (fun x => x.2) with
    | [] => m
    | n :: t => NMap.set 0 m sl (t.foldl min n)) k.pos
/-- A walk's queued line is the one that the walk is at: its recall is out, or what it brought is on its way (R97, R103). -/
def walkAt (s : State) (sl : Nat) (i : SliceIn) : Bool :=
  match i.walk with
  | some (c, _) => visitOut s c (Hd.line i.h) ||
      s.cache.walks.any (fun k => k.cmd = c && (s.slice sl).tt.any (fun t => t.line = Hd.line i.h && k.recs.contains t.id))
  | none => true
/-- The walks stop at a line boundary (R103): step 4 of REGION_CLEAR pauses, a quarantine and the ways a WAY_ENABLE has not emptied stay as they
stand, every other walk is gone with its command once the line it is at is done. -/
def walksStop (s : State) : State :=
  let l := s.cache.walks.map (fun k => { k with pos := walkBack s k })
  let s := (List.range 8).foldl (fun s sl => s.updSlice sl (fun h => { h with lineQ := h.lineQ.filter (walkAt s sl) })) s
  let busy := fun (k : Walk) => !k.outs.isEmpty || !k.again.isEmpty || (List.range 8).any (fun sl => lineAtWork s k sl)
  let s := { s with
    cache.walks := l.filterMap (fun (k : Walk) =>
      if k.op = 0x11 || k.op = 0xF5 then some { k with paused := true } else if busy k then some { k with stop := true }
      else if k.op = 0x23 then some { k with paused := true } else none)
    cache.disabling := false, cache.invDone := s.cache.invDone && !l.any (fun k => k.op = 0x20) }
  (l.filter (fun k => k.op ≠ 0x11 && !busy k)).foldl (fun s k => match k.prog s with | some g => finish g St.drain_aborted k.result s | none => s) s
/-- STREAM_CLOSE and STREAM_ACK_GAP whose record has not been formed end (R331). -/
def streamsAbort (s : State) : State :=
  (s.cp.prog.filter (fun g => g.op = 0x41 || g.op = 0x44)).foldl (fun s g =>
    let sid := g.p.target.toNat
    let b := if g.op = 0x41 then 6 else 4
    if g.stage = 1 then finish g St.drain_aborted 0 s
    else if bit (s.ctx sid).pendF b then
      finish g St.drain_aborted 0 (s.updCtx sid (fun c => { c with pendF := c.pendF &&& ~~~(BitVec.ofNat 16 (2 ^ b)), gap := if b = 4 then none else c.gap }))
    else s) s
/-- Streams that get a drain record (R310): OPEN or CLOSING, without a close record already formed. -/
def drainStreams (s : State) : List Nat :=
  (s.str.ctx.filter (fun e => decide (e.2.state ≠ 0) && !s.str.items.any (fun it => it.own && decide (it.stream.toNat = e.1) && bit it.bytes 54))).map (fun e => e.1)
/-- The drain report at entry (R341): step 1 has ended. -/
def drainReport (s : State) (cause : Nat) : Report := { Report.init with
  cause := BitVec.ofNat 8 cause, step := 1, boot := s.ao.bootCount, entry := s.ao.time, manifest := BitVec.allOnes 64 }
/-- DRAIN entry, step 1 (R328): `cause` as the report has it, `why` as MODE_CHANGE has it. -/
def drainEnter (cause why : Nat) (s : State) : State :=
  let from_ := s.mode
  let s := recStop 5 (quiesceFail s)
  let s := if from_ = 4 then replayEnd 3 s else s
  let s := abortCmd (fun g => g.op = 0x09 || (g.op = 0x92 && g.stage = 9)) St.drain_aborted { s with
    drain.step := 2, drain.from_ := from_, drain.pfw := s.pfwCfg, drain.hashEnd := false, drain.leaves := [], drain.firstIdx := none, drain.flush := [], drain.flushDat := []
    drain.extra := nbits s.pfwCfg 51 40 * 8192, drain.extraOut := [], drain.gpfWait := 0, drain.thermal := decide (cause = 2), drain.warm := 0, drain.man := false
    ao.rep := drainReport s cause }
  let s := changeMode 5 why s
  let s := walksStop s
  let s := closeCombines (fun _ => true) s
  let s := (List.range 12).foldl (fun s p => (tearAll p s).updPort p (fun q => { q with cand := [] })) s
  let s := (List.range 8).foldl (fun s sl => s.updSlice sl (fun h => { h with nl := [] })) s
  let s := abandonSigs false (streamsAbort s)
  let s := abortCmd (fun g => g.op = 0x56 && g.stage = 2) St.drain_aborted s
  let s := { s with drain.streams := drainStreams s }
  recompute (sendMsix 20 (postEvent 0x0005 [(0, cause)] s))
/-- A cause of a drain (R326): 0 PFW_N, 1 command, 2 thermal trip; `why` the cause code of MODE_CHANGE (R450). -/
def drainCause (cause why : Nat) (s : State) : State :=
  if s.mode = 1 then
    let s := if cause = 2 then { s with drain.thermal := true } else s
    if s.boot.flash.isEmpty then doneUp s else { s with boot.drainInBoot := true }
  else if s.mode = 5 then
    let s := { s with ao.rep.flags := s.ao.rep.flags ||| 2, drain.thermal := s.drain.thermal || decide (cause = 2) }
    if s.ao.drainDone then doneUp s else s
  else if s.mode = 0 then s
  else drainEnter cause why s

/-- PFW_N_FALL (R324, R326): the filtered level falls in the AO domain; the rest of the hub acts on it while it runs. -/
def execPfwNFall (s : State) : Ans :=
  .next (if !bit s.pfwCfg 8 then s
    else
      let s := { s with ao.pfwHigh := false }
      act s (drainCause 0 3 s))
/-- PFW_N_RISE (R324, R340). -/
def execPfwNRise (s : State) : Ans :=
  .next (if !bit s.pfwCfg 8 then s
    else
      let s := { s with ao.pfwHigh := true }
      if s.mode = 5 && !s.ao.drainDone then { s with ao.rep.flags := s.ao.rep.flags ||| 1 } else s)
/-- DRAIN (R326, R344): it ends at DRAIN_DONE. -/
def execDrain (p : Packet) (s : State) : Ans :=
  .next (act s (cmd 0x06 [mY, mC, mR] 1 false p (fun _ => [(p.rsv 0 0 true, St.invalid_param)]) (fun s => drainCause 1 2 (begin_ 0x06 p 1 0 0 s)) s))
/-- The data of a port's write has arrived and is held in the receive buffer (R181). -/
def dataHeld (s : State) (t : Txn) : Bool := (s.port t.port).rxDat.any (fun m => (Hd.op m.h = 0x8B || Hd.op m.h = 0x8C) && Hd.tag m.h = Hd.tag t.h)
/-- A write whose data has not arrived ends at the end of step 2 (R329); its agent gets Comp, and data that still comes is discarded. -/
def endDataless (s : State) : State :=
  let tagOf := fun (p : Nat) (t : BitVec 12 × BitVec 3) (s : State) =>
    { s with ao.rep.noData := s.ao.rep.noData + 1 }.updPort p (fun (q : Port) => { q with endedTags := q.endedTags ++ [t] })
  (List.range 8).foldl (fun s sl =>
    let waits := ((s.slice sl).inq ++ (s.slice sl).lineQ).filter (fun i => i.wr.isSome)
    let s := s.updSlice sl (fun h => { h with inq := h.inq.filter (fun i => i.wr.isNone), lineQ := h.lineQ.filter (fun i => i.wr.isNone) })
    let s := waits.foldl (fun s i => match i.wr with
      | some id => wrLose id 3 { s with ao.rep.noData := s.ao.rep.noData + 1 }
      | none => s) s
    ((s.slice sl).tt.filter (fun t => t.kind = .req && t.wr.isSome &&
        ((t.pull && !dataHeld s t) || t.ph = .start || t.ph = .dirWay || t.ph = .setPark || t.ph = .wbLine))).foldl (fun s t =>
      match s.txn sl t.id with
      | some t =>
        let s := s.updSlice sl (fun h => { h with setQ := h.setQ.filter (fun i => i ≠ t.id) })
        endPull sl t (if t.pull then tagOf t.port (Hd.tag t.h, Hd.tc t.h) s else { s with ao.rep.noData := s.ao.rep.noData + 1 })
      | none => s) s) s
/-- Step 2 ends (R328): what the flush waits for is fixed. -/
def quiesceEnd (s : State) : State :=
  let s := endDataless s
  let lines := (List.range 8).flatMap (fun sl => ((s.slice sl).wb.filter (fun b => b.kind = 2 || b.kind = 3)).map (fun b => b.id))
  { s with
    drain.flush := s.links.writes.map (fun w => w.id) ++ lines
    drain.flushDat := (List.range 12).foldl (fun m p => NMap.set 0 m p (s.port p).rxDat.length) [], ao.rep.step := 2, drain.step := 4 }
/-- DRAIN_QUIESCE_END (R328, R329). -/
def execDrainQuiesceEnd (s : State) : Ans := .next (act s (if s.drain.step = 2 then quiesceEnd s else s))
/-- The drain record of a stream (R310, R331): its leaf is the digest of its first 160 bytes (R311). -/
def drainRecord (sid : Nat) (s : State) : State :=
  let n := s.str.logWrite
  let s := formRecord sid true (sealPoint sid 128 s)
  match s.str.items.reverse.find? (fun it => it.own && it.stream.toNat = sid) with
  | some it => { s with
      drain.leaves := NMap.set 0 s.drain.leaves sid (sha384w (0 :: wordBytes 160 it.bytes))
      drain.firstIdx := if s.drain.firstIdx.isNone then some n else s.drain.firstIdx, ao.rep.leaves := s.ao.rep.leaves + 1 }
  | none => s
/-- DRAIN_RECORDS_FORM (R310, R331): every stream whose record in flight is persisted forms its drain record, in rising order; one whose record
waits at a DEAD port forms none, and the report carries LOG_LOST. -/
def execDrainRecordsForm (s : State) : Ans :=
  .next (act s (if s.drain.step ≠ 5 then s
    else
      let go := s.drain.streams.filter (fun k => !(s.ctx k).inFlight || (s.ctx k).state = 0)
      let held := s.drain.streams.filter (fun k => (s.ctx k).inFlight && heldRecord s k)
      let s := if held.isEmpty then s else { s with ao.rep.flags := s.ao.rep.flags ||| 64 }
      go.foldl (fun s k => if (s.ctx k).state = 0 then s else drainRecord k s) { s with
        drain.streams := s.drain.streams.filter (fun k => !go.contains k && !held.contains k) }))
/-- One level of the manifest's tree (R311). -/
def pairUp : List (BitVec 384) → List (BitVec 384)
  | a :: b :: l => sha384w (1 :: (wordBytes 48 a ++ wordBytes 48 b)) :: pairUp l
  | l => l
/-- The root of a list of nodes (R311): 48 zero bytes where there is none. -/
def rootOf : Nat → List (BitVec 384) → BitVec 384
  | _, [] => 0
  | _, [a] => a
  | 0, a :: _ => a
  | n + 1, l => rootOf n (pairUp l)
/-- The manifest (R310). -/
def manifestBytes (s : State) : BitVec 2048 :=
  let l := s.drain.leaves.map (fun e => e.2)
  pack 2048 [(0, 0x5EA1DA1E), (4, 1), (5, s.ao.rep.cause.toNat), (6, if canSign s then 1 else 2 ^ 9), (8, 0xFFFFFFFF), (12, l.length),
    (16, match s.drain.firstIdx with | some n => n | none => 2 ^ 64 - 1), (34, s.keys.serial.toNat), (36, s.ao.bootCount.toNat), (40, (rootOf 20 l).toNat),
    (136, s.ao.time.toNat), (144, s.ao.anchor.toNat)]
/-- DRAIN_MANIFEST (R310): after the last drain record. -/
def execDrainManifest (s : State) : Ans :=
  .next (act s (if s.drain.step ≠ 5 || s.drain.man || !s.drain.streams.isEmpty then s
    else addItem 0xFFFFFFFF (manifestBytes s) (canSign s) { s with drain.man := true }))
/-- DRAIN_EXTRA_CLEAN (R328 step 6): the lowest dirty line that is not durable-dirty and on which nothing is open. -/
def execDrainExtraClean (e : ErrPat) (s : State) : Ans :=
  .next (act s (if s.drain.step ≠ 6 || s.drain.extra = 0 then s
    else match (plainDirty s).find? (fun x => !lineBusy s (x.1 % 8) (s.wayLine x.1 x.2)) with
      | none => s
      | some (set, w) =>
        let (s, id) := cleanWay (set % 8) set w e s
        { s with drain.extra := s.drain.extra - 1, drain.extraOut := s.drain.extraOut ++ id.toList }))

/-- Far ports that are sent GPF (R330): a device with a GPF DVSEC, not DEAD. -/
def gpfPorts (s : State) : List Nat := (List.range s.nFar).filter (fun f => (s.farP f).active && (s.farP f).gpf && !(s.farP f).dead)
/-- A GPF phase ends when no answer is awaited any more (R328 steps 7 and 8). -/
def gpfEnd (s : State) : State :=
  if s.drain.gpfWait ≠ 0 then s else { s with ao.rep.step := BitVec.ofNat 8 s.drain.step, drain.step := s.drain.step + 1 }
/-- A GPF phase begins. -/
def gpfSend (phase : Nat) (s : State) : State :=
  if s.drain.step ≠ 6 + phase || s.drain.gpfWait ≠ 0 then s
  else gpfEnd ((gpfPorts s).foldl (fun s f => { s with drain.gpfWait := s.drain.gpfWait ||| BitVec.ofNat 4 (2 ^ f) }.put (.gpf f phase)) s)
/-- A far port's phase ends: with an answer, or recorded in GPF_FAILED (R330). -/
def gpfAnswer (phase f : Nat) (ok : Bool) (s : State) : State :=
  if s.drain.step ≠ 6 + phase || !bit s.drain.gpfWait f then s
  else
    let b := BitVec.ofNat 4 (2 ^ f)
    gpfEnd { s with drain.gpfWait := s.drain.gpfWait &&& ~~~b, ao.rep.gpfFailed := if ok then s.ao.rep.gpfFailed else s.ao.rep.gpfFailed ||| b }
/-- GPF_PHASE1_REQUEST (R330). -/
def execGpfPhase1Request (s : State) : Ans := .next (act s (gpfSend 1 s))
/-- GPF_PHASE1_TIMEOUT (R330): every port that has not answered is recorded. -/
def execGpfPhase1Timeout (s : State) : Ans := .next (act s ((List.range 4).foldl (fun s f => gpfAnswer 1 f false s) s))
/-- GPF_PHASE1_RESPONSE (R330). -/
def execGpfPhase1Response (fp : BitVec 2) (ok : Bool) (s : State) : Ans := .next (act s (gpfAnswer 1 fp.toNat ok s))
/-- GPF_PHASE2_REQUEST (R330). -/
def execGpfPhase2Request (s : State) : Ans := .next (act s (gpfSend 2 s))
/-- GPF_PHASE2_RESPONSE (R330). -/
def execGpfPhase2Response (fp : BitVec 2) (ok : Bool) (s : State) : Ans := .next (act s (gpfAnswer 2 fp.toNat ok s))
/-- GPF_PHASE2_TIMEOUT (R330). -/
def execGpfPhase2Timeout (fp : BitVec 2) (s : State) : Ans := .next (act s (gpfAnswer 2 fp.toNat false s))
/-- Step 8 has ended (R327, R341, R344): DRAIN_DONE, the hold state, and the end of the DRAIN command. -/
def drainEnd (s : State) : State :=
  let dead := ((List.range 4).map (fun f => if (s.farP f).dead then 2 ^ f else 0)).sum
  let s := { s with ao.rep.doneT := s.ao.time, ao.rep.dead := BitVec.ofNat 4 dead }
  let s := sendMsix 20 (postEvent 0x0006 [(0, s.ao.rep.flushed.toNat)] s)
  let s := match s.running 0x06 with | some g => finish g St.ok s.ao.rep.flushed.toNat s | none => s
  doneUp s
/-- DRAIN_DONE (R327). -/
def execDrainDone (s : State) : Ans := .next (act s (if s.drain.step = 9 && !s.ao.drainDone then drainEnd s else s))

/-- RESUME takes effect (R333, R339): the mode before, or BYPASS after REPLAY; the losses the drain deferred are declared. -/
def resumeTo (back : BitVec 3) (s : State) : State :=
  let s := { s with
    drain := Drain.init, ao.drainDone := false, ao.rep.flags := s.ao.rep.flags ||| 4
    cache.walks := s.cache.walks.map (fun (k : Walk) => if k.op = 0x11 then { k with paused := false } else k) }
  let s := if s.rec_.rClean then replayClean s else s
  recompute ((List.range 12).foldl (fun s p => if (s.port p).lossDue then declareLost p s else s) (changeMode back 2 s))
/-- RESUME (R339, R344). -/
def execResume (p : Packet) (s : State) : Ans :=
  .next (act s (cmd 0x07 [mD] 1 false p
    (fun s => [(p.rsv 0 0 true, St.invalid_param), (!s.ao.drainDone, St.drain_busy), (s.drain.thermal, St.thermal), (!s.pfwLevel, St.pfw_low)])
    (fun s =>
      let back := if s.drain.from_ = 4 then 2 else s.drain.from_
      complete p St.ok 0 (resumeTo back s)) s))
/-- The drain report as 64 bytes (R341). -/
def reportBlock (r : Report) : List Byte :=
  block 64 [(0, 1, r.cause.toNat), (1, 1, r.step.toNat), (2, 1, r.flags.toNat), (3, 1, r.gpfFailed.toNat + 16 * r.dead.toNat), (4, 4, r.boot.toNat),
    (8, 8, r.entry.toNat), (16, 8, r.doneT.toNat), (24, 8, r.flushed.toNat), (32, 8, r.lost.toNat), (40, 8, r.manifest.toNat), (48, 4, r.leaves.toNat),
    (52, 4, r.noData.toNat)]
/-- DRAIN_QUERY (R341, R344). -/
def execDrainQuery (p : Packet) (s : State) : Ans :=
  .next (cmd 0x08 [mY, mC, mR, mD] 0 false p (fun _ => [(p.rsv 8 0 true || badBuf p.addr 64 64, St.invalid_param)])
    (fun s => completeBlock p (reportBlock s.ao.rep) St.ok 0 s) s)

/-- WARM_RESET begins (R261 step 1): ingress closes, combining lines close, what waits in the receive buffers is answered with FrozenAbort. -/
def warmBegin (s : State) : State :=
  let s := closeCombines (fun _ => true) (recStop 8 { s with drain.warm := 1 })
  (List.range 12).foldl (fun s p => tearAll p s) s
/-- WARM_RESET (R261, R465). -/
def execWarmReset (p : Packet) (s : State) : Ans :=
  .next (act s (cmd 0x09 [mY, mC] 2 false p (fun _ => [(p.rsv 0 0 true, St.invalid_param)]) (fun s => warmBegin (begin_ 0x09 p 1 0 0 s)) s))

/-- A copy that a vote finds in disagreement is rewritten, counted and logged (R363). -/
def voteFixed (f : Nat) (s : State) : State := logErr 0x0013 0 6 0 0 0 f (cntErr 7 1 s)
/-- A vote of one field (R363): copy `c` reads `v`; the other two decide. -/
def voteOne (f : Nat) (v : BitVec 64) (s : State) : State :=
  let differs := fun {n : Nat} (t : Trip n) => decide (t.vote 0 ≠ v.setWidth n)
  let bad := if f = 0 then differs s.trip.mode else if f = 1 then differs s.trip.lock else if f = 2 then differs s.trip.freeze
    else if f = 3 then differs s.trip.budget else if f = 4 then differs s.trip.pfw else if f = 5 then differs s.trip.key else decide (f < 8)
  if bad then voteFixed f s else s
/-- A three-way disagreement (R363). -/
def voteAll (f i : Nat) (s : State) : State :=
  if 8 ≤ f then s
  else
    let s := logErr 0x0014 5 6 0 0 0 f s
    if f = 0 then
      let s := writeMode s.ao.modeMirror s
      if s.mode = 2 || s.mode = 3 || s.mode = 4 then drainCause 1 7 s else s
    else if f = 1 then { s with trip.lock := Trip.all 1 }
    else if f = 2 then { s with trip.freeze := Trip.all 0x1F }
    else if f = 3 then { s with trip.budget := Trip.all 1 }
    else if f = 4 then { s with trip.pfw := Trip.all pfwReset }
    else if f = 5 then testFailed s
    else if f = 6 then
      match txnAny s i with
      | some (sl, t) => txnLost sl t true s
      | none => s
    else { s with regions := NMap.upd 0 s.regions i (fun e => e &&& ~~~(BitVec.ofNat 320 (2 ^ 63))) }
/-- AO_VOTE (R363): nothing acts in RESET. -/
def execAoVote (u : Upset) (s : State) : Ans :=
  .next (if s.mode = 0 then s
    else match u with
      | .none => s
      | .one f _ v => act s (voteOne f v s)
      | .all f i => act s (voteAll f i s))

end Sys2Proof.Machine
end

