-- ==== Sys2Proof/Machine/Space.lean ====
section
/-! DEFINITION. The register space of BAR0 (15): primary, alias and guarded writes, the counter window, the FIFOs and the reads that clear. -/
namespace Sys2Proof.Machine

/-- A value brought into a range: the nearer limit outside it (R436, R514). -/
def clamp (lo hi v : Nat) : Nat := if v < lo then lo else if hi < v then hi else v
/-- Bits of the monitor registers that belong to absent ports: they read as zero and take no write (R2, R477). -/
def absentMask (s : State) (off : Nat) : BitVec 64 :=
  if s.boot.small && off = 0x1000 then 0xF00 else if s.boot.small && off = 0x1008 then 0x0FFFFF0000000000 else 0
/-- The RW and TRW bits of a primary register (R436, R446, R477, R514). -/
def rwMask (s : State) (off : Nat) : BitVec 64 :=
  ~~~(absentMask s off) &&&
  if off = 0x20 then 0x000FFFFF0000011F else if off = 0x28 then 3 else if off = 0x40 then 0xFF
  else if off = 0x80 || off = 0x88 then 0xFFFFFFFFFFFFF000 else if off = 0x90 then 0xFFFFFFFF else if off = 0x98 then 1
  else if off = 0x100 then 0xF7FF01FF else if off = 0x1000 then 0x1FFF else if off = 0x1008 then 0x0FFFFFFFFFFFFFFF
  else if off = 0x1010 then 0x1FF else if off = 0x2000 then 0xFFFFFFFF01 else 0
/-- The value of a register with RW or TRW bits. -/
def rwRead (s : State) (off : Nat) : BitVec 64 :=
  ~~~(absentMask s off) &&&
  if off = 0x20 then s.pfwCfg else if off = 0x28 then s.freezeMask.setWidth 64 else if off = 0x40 then s.regs.combine.setWidth 64
  else if off = 0x80 then s.regs.qp0Sq else if off = 0x88 then s.regs.qp0Cq else if off = 0x90 then s.regs.qp0Size.setWidth 64
  else if off = 0x98 then BitVec.ofNat 64 (b2n s.regs.qp0En) else if off = 0x100 then s.regs.fifoCtrl.setWidth 64
  else if off = 0x1000 then s.regs.monCtrl.setWidth 64 else if off = 0x1008 then s.regs.monIeP.setWidth 64
  else if off = 0x1010 then s.regs.monIeS.setWidth 64 else if off = 0x2000 then s.regs.thermCtrl.setWidth 64 else 0
/-- Give a register's RW and TRW bits the value `v` (R429, R433); reserved and read-only bits of `v` are already out. -/
def rwWrite (off : Nat) (v : BitVec 64) (s : State) : State :=
  if off = 0x20 then { s with trip.pfw := Trip.all v, ao.pfwHigh := s.ao.pfwHigh || !bit v 8 }
  else if off = 0x28 then { s with trip.freeze := Trip.all (v.setWidth 5 ||| 0x1C) }
  else if off = 0x40 then capCtrl (ctrlEntry 0xFE off (v.toNat % 256)) { s with regs.combine := v.setWidth 8 }
  else if off = 0x80 then { s with regs.qp0Sq := v }
  else if off = 0x88 then { s with regs.qp0Cq := v }
  else if off = 0x90 then { s with regs.qp0Size := v.setWidth 32 }
  else if off = 0x98 then (if bit v 0 then qp0On s else qp0Off s)
  else if off = 0x100 then judgeFifo true (judgeFifo false { s with regs.fifoCtrl := v.setWidth 32 })
  else if off = 0x1000 then { s with regs.monCtrl := v.setWidth 13 }
  else if off = 0x1008 then { s with regs.monIeP := v.setWidth 60 }
  else if off = 0x1010 then { s with regs.monIeS := v.setWidth 9 }
  else if off = 0x2000 then
    let s := { s with regs.thermCtrl := (putBits v 32 8 (clamp 141 148 (nbits v 39 32))).setWidth 40 }
    if throttleEn s then s else setLevel 0 s
  else s
/-- Registers locked while APPROVED is set (R435). -/
def lockedReg (s : State) (off : Nat) : Bool := s.approved && (off = 0x20 || off = 0x28 || off = 0x8008 || off = 0x8010)
/-- An access that is not a naturally aligned 64-bit one (R427). -/
def bad64 (off : Nat) (size : BitVec 4) : Bool := size ≠ 8 || decide (off % 8 ≠ 0)
/-- A primary write (R429, R434, R435): KEY_STATE is a locked field. -/
def primaryWrite (off : Nat) (v : BitVec 64) (s : State) : State :=
  if off = 0x18 || lockedReg s off then lockViolation s
  else if rwMask s off = 0 then s else rwWrite off (v &&& rwMask s off) s
/-- How an alias changes the bits that are 1 in the written value: 1 set, 2 clear, 3 toggle (R430). -/
def aliasValue (k : Nat) (old v : BitVec 64) : BitVec 64 := if k = 1 then old ||| v else if k = 2 then old &&& ~~~v else old ^^^ v
/-- An alias write to the register at A (R430): one to KEY_STATE is a write to a locked field (R433, R434). -/
def aliasWrite (k a : Nat) (v : BitVec 64) (s : State) : State :=
  if a = 0x18 then lockViolation s
  else if (0x8000 ≤ a && a < 0x9000) || rwMask s a = 0 then s
  else if lockedReg s a then lockViolation s
  else rwWrite a (aliasValue k (rwRead s a &&& rwMask s a) (v &&& rwMask s a)) s

/-- The guarded registers (R436). -/
def guardedReg (off : Nat) : Bool := off = 0x8000 || off = 0x8008 || off = 0x8010
/-- A guarded value takes effect (R431, R435, R436). -/
def guardedSet (off : Nat) (v : BitVec 64) (s : State) : State :=
  if lockedReg s off then lockViolation s
  else if off = 0x8000 then { s with regs.zArm := nbits v 31 0 = 0xA55A }
  else if off = 0x8008 then
    let n := clamp 10 10000 (nbits v 13 0)
    capCtrl (ctrlEntry 0xFE off n) { s with regs.snpTo := BitVec.ofNat 14 n }
  else
    let n := clamp 50 1000000 (nbits v 19 0)
    capCtrl (ctrlEntry 0xFE off n) { s with regs.farTo := BitVec.ofNat 20 n }
/-- A pending guarded value is discarded by an access that is not its partner write (R432). -/
def dropPending (s : State) : State := if s.regs.guardP.isSome then guardFailed s else s
/-- A write to a guarded primary address (R431, R432). -/
def guardPrimary (off : Nat) (v : BitVec 64) (size : BitVec 4) (s : State) : State :=
  let s := dropPending s
  if bad64 off size then badAccess s
  else if guardedReg off then { s with regs.guardP := some (BitVec.ofNat 20 off, v, s.ao.time) } else s
/-- A write to a guarded partner address (R428, R431, R432); 10.1 µs are 252 AO clocks. -/
def guardPartner (off : Nat) (v : BitVec 64) (size : BitVec 4) (s : State) : State :=
  if bad64 off size then badAccess (if s.regs.guardP.isSome then guardFailed s else s)
  else match s.regs.guardP with
    | none => if guardedReg (off - 0x800) then guardFailed s else s
    | some (po, pv, t) =>
      if po.toNat + 0x800 = off && v = ~~~pv && (s.ao.time - t).toNat ≤ 252 then
        guardedSet po.toNat pv { s with regs.guardP := none }
      else guardFailed s
/-- GUARDED_PRIMARY_WRITE (R431): the offset within 0x8000-0x87FF. -/
def execGuardedPrimaryWrite (off : BitVec 20) (v : BitVec 64) (size : BitVec 4) (s : State) : Ans :=
  .next (ctl s (guardPrimary (0x8000 + off.toNat % 0x800) v size s))
/-- GUARDED_PARTNER_WRITE (R431): the offset within 0x8800-0x8FFF. -/
def execGuardedPartnerWrite (off : BitVec 20) (v : BitVec 64) (size : BitVec 4) (s : State) : Ans :=
  .next (ctl s (guardPartner (0x8800 + off.toNat % 0x800) v size s))
/-- GUARD_TIMEOUT (R432). -/
def execGuardTimeout (s : State) : Ans := .next (live s (dropPending s))
/-- ZEROISE_ARM_EXPIRY (R317, R436). -/
def execZeroiseArmExpiry (s : State) : Ans := .next (live s { s with regs.zArm := false })
/-- A 64-bit alias write; any other width is a bad access (R427, R430). -/
def aliasAccess (k a : Nat) (v : BitVec 64) (size : BitVec 4) (s : State) : State :=
  if bad64 a size then badAccess s else aliasWrite k a v s
/-- ALIAS_SET_WRITE (R430): the register at the offset's low 16 bits. -/
def execAliasSetWrite (off : BitVec 20) (v : BitVec 64) (size : BitVec 4) (s : State) : Ans :=
  .next (ctl s (aliasAccess 1 (off.toNat % 0x10000) v size s))
/-- ALIAS_CLEAR_WRITE (R430). -/
def execAliasClearWrite (off : BitVec 20) (v : BitVec 64) (size : BitVec 4) (s : State) : Ans :=
  .next (ctl s (aliasAccess 2 (off.toNat % 0x10000) v size s))
/-- ALIAS_TOGGLE_WRITE (R430). -/
def execAliasToggleWrite (off : BitVec 20) (v : BitVec 64) (size : BitVec 4) (s : State) : Ans :=
  .next (ctl s (aliasAccess 3 (off.toNat % 0x10000) v size s))

/-- The counters of the window by offset within it (R438). -/
inductive Ctr where
  | port (k : Nat)
  | sys (k : Nat)
  | compRd (k : Nat)
  | compWr (k : Nat)
  | dev (k : Nat)
deriving DecidableEq, Repr
/-- The counter at an offset of the window (R438); words of absent ports are none (R2). -/
def ctrAt (s : State) (o : Nat) : Option Ctr :=
  if o < 0x300 then (if o / 0x40 < s.nPorts && o % 0x40 / 8 < 5 then some (.port (5 * (o / 0x40) + o % 0x40 / 8)) else none)
  else if o < 0x348 then some (.sys ((o - 0x300) / 8))
  else if 0x400 ≤ o && o < 0x428 then some (.compRd ((o - 0x400) / 8))
  else if 0x428 ≤ o && o < 0x450 then some (.compWr ((o - 0x428) / 8))
  else if 0x500 ≤ o && o < 0x520 then some (.dev ((o - 0x500) / 8)) else none
/-- The value of a counter (R440). -/
def ctrGet (s : State) : Ctr → BitVec 64
  | .port k => NMap.get 0 s.regs.monP k
  | .sys k => NMap.get 0 s.regs.monS k
  | .compRd k => NMap.get 0 s.regs.compRd k
  | .compWr k => NMap.get 0 s.regs.compWr k
  | .dev 0 => s.regs.lockViols
  | .dev 1 => s.regs.guardFails
  | .dev 2 => s.regs.accessErrs
  | .dev _ => s.regs.evDropped
/-- OVF and COUNT of a monitor word (R476). -/
def monMask : BitVec 64 := 0x8000FFFFFFFFFFFF
/-- Set a counter (R439, R476). -/
def ctrSet (v : BitVec 64) (s : State) : Ctr → State
  | .port k => { s with regs.monP := NMap.set 0 s.regs.monP k (v &&& monMask) }
  | .sys k => { s with regs.monS := NMap.set 0 s.regs.monS k (v &&& monMask) }
  | .compRd k => { s with regs.compRd := NMap.set 0 s.regs.compRd k v }
  | .compWr k => { s with regs.compWr := NMap.set 0 s.regs.compWr k v }
  | .dev 0 => { s with regs.lockViols := v }
  | .dev 1 => { s with regs.guardFails := v }
  | .dev 2 => { s with regs.accessErrs := v }
  | .dev _ => { s with regs.evDropped := v }
/-- A write in the counter window (R427, R439, R442). -/
def counterWr (o : Nat) (v : BitVec 64) (size : BitVec 4) (s : State) : State :=
  let s := { s with regs.latchOff := none }
  if bad64 o size then badAccess s else match ctrAt s o with | some c => ctrSet v s c | none => s
/-- COUNTER_WRITE (R439). -/
def execCounterWrite (off : BitVec 20) (v : BitVec 64) (size : BitVec 4) (s : State) : Ans :=
  .next (ctl s (counterWr (off.toNat % 0x10000) v size s))
/-- The sample a counter read at a window offset takes; zero at a reserved offset (R428, R440). -/
def ctrSample (s : State) (o : Nat) : BitVec 64 := match ctrAt s (o - o % 8) with | some c => ctrGet s c | none => 0
/-- A read in the counter window (R427, R440-R442): the low half loads the latch, the high half comes from it right after, and every other access
empties it. -/
def counterRd (o : Nat) (size : BitVec 4) (s : State) : State :=
  let v := ctrSample s o
  let t := { s with regs.latchOff := none }
  if !bad64 o size then t.put (.read v)
  else if size = 4 && o % 8 = 0 then
    (match ctrAt s o with
      | some _ => { s with regs.latch := bits v 63 32, regs.latchOff := some (BitVec.ofNat 20 o) }
      | none => t).put (.read (BitVec.ofNat 64 (nbits v 31 0)))
  else if size = 4 && o % 8 = 4 then
    t.put (.read (BitVec.ofNat 64 (if s.regs.latchOff = some (BitVec.ofNat 20 (o - 4)) then s.regs.latch.toNat else nbits v 63 32)))
  else (badAccess t).put (.read 0)

/-- A word pushed into the Host Message FIFO (R444). -/
def hmfPush (v : BitVec 64) (s : State) : State :=
  let f := s.regs.hmf
  if f.words.length < 256 then
    judgeFifo false { s with regs.hmf := { f with words := f.words ++ [fifoWord f.seq (bits v 47 40) (bits v 39 0)], seq := f.seq + 1 } }
  else overrunFifo false s
/-- HMF_WRITE (R444). -/
def execHmfWrite (v : BitVec 64) (s : State) : Ans := .next (ctl s (hmfPush v s))
/-- HMF_WORD_TAKE (R444): the firmware takes the oldest word; ECHO is answered, a word failing parity is discarded and logged. -/
def execHmfWordTake (perr : Bool) (s : State) : Ans :=
  .next (match s.regs.hmf.words with
    | [] => s
    | w :: rest =>
      if s.off || !s.boot.fwRun then s
      else
        let s := judgeFifo false { s with regs.hmf := { s.regs.hmf with words := rest } }
        if perr then logErr 0x0015 2 5 0 0 0 (nbits w 62 48 * 256) s
        else if nbits w 47 40 = 1 then evfPush 0x81 (bits w 39 0) s else s)
/-- A read of EVF_READ (R445): the oldest word; zero when empty; POISON and FIFO_PARITY where its parity fails. ABOVE is judged after the ERROR event's
word has come in (R437, R448). -/
def evfRead (perr : Bool) (s : State) : State :=
  match s.regs.evf.words with
  | [] => s.put (.read 0)
  | w :: rest =>
    let s := { s with regs.evf := { s.regs.evf with words := rest } }
    if perr then (judgeFifo true (logErr 0x0015 2 5 0 0 0 (nbits w 62 48 * 256 + 1) s)).put (.read (w ||| 0x8000000000000000))
    else (judgeFifo true s).put (.read w)
/-- EVF_READ (R445). -/
def execEvfRead (perr : Bool) (s : State) : Ans := .next (ctl s (evfRead perr s))

/-- FROZEN_ANY, as FREEZE_ALERT_N shows it (R388). -/
def State.frozenAny (s : State) : Bool := s.links.ports.any (fun q => q.2.link = 5)
/-- DEV_STATUS (R436). -/
def devStatus (s : State) : BitVec 64 :=
  BitVec.ofNat 64 (b2n s.regs.lockViol + 2 * b2n s.regs.guardFail + 4 * b2n s.regs.accessErr + 256 * b2n s.ao.drainDone + 512 * b2n s.frozenAny)
/-- DEV_STATUS_READ (R430, R436): RC bits clear unless the read came by an alias. -/
def execDevStatusRead (viaAlias : Bool) (s : State) : Ans :=
  .next (ctl s ((if viaAlias then s else { s with regs.lockViol := false, regs.guardFail := false, regs.accessErr := false }).put (.read (devStatus s))))
/-- GUAR_MISS_READ (R358). -/
def execGuarMissRead (viaAlias : Bool) (s : State) : Ans :=
  .next (ctl s ((if viaAlias then s else { s with regs.guarMiss := 0 }).put (.read (s.regs.guarMiss.setWidth 64))))
/-- A FIFO status word (R447). -/
def fifoStatus (e : Bool) (s : State) : BitVec 64 :=
  let f := s.fifo e
  BitVec.ofNat 64 (f.words.length + 2 ^ 16 * b2n (decide (f.words.length = fifoDepth e)) + 2 ^ 17 * b2n f.above + 2 ^ 18 * b2n f.crossed +
    2 ^ 19 * b2n f.overrun + 2 ^ 32 * f.overruns.toNat + 2 ^ 48 * f.crossings.toNat)
/-- The RC fields of a FIFO status cleared (R447). -/
def fifoClear (e : Bool) (s : State) : State :=
  s.setFifo e { s.fifo e with crossings := 0, overruns := 0, overrun := false, crossed := false }
/-- HMF_STATUS_READ (R447). -/
def execHmfStatusRead (viaAlias : Bool) (s : State) : Ans :=
  .next (ctl s ((if viaAlias then s else fifoClear false s).put (.read (fifoStatus false s))))
/-- EVF_STATUS_READ (R447). -/
def execEvfStatusRead (viaAlias : Bool) (s : State) : Ans :=
  .next (ctl s ((if viaAlias then s else fifoClear true s).put (.read (fifoStatus true s))))
/-- THERM_STATUS (R514). -/
def thermStatus (s : State) : BitVec 64 :=
  BitVec.ofNat 64 (s.ao.level.toNat + 8 * b2n s.ao.tripped + 2 ^ 32 * s.ao.tj.toNat + 2 ^ 40 * s.ao.peak.toNat)
/-- THERM_STATUS_READ (R514): PEAK restarts from the current Tj. -/
def execThermStatusRead (viaAlias : Bool) (s : State) : Ans :=
  .next (ctl s ((if viaAlias then s else { s with ao.peak := s.ao.tj, ao.tripped := false }).put (.read (thermStatus s))))

/-- A write anywhere in BAR0 (R426-R428). -/
def barWrite (off : Nat) (v : BitVec 64) (size : BitVec 4) (s : State) : State :=
  if 0x70000 ≤ off then (if 8 < size.toNat then badAccess s else s)
  else if 0x60000 ≤ off then (if bad64 off size then badAccess s else if off = 0x60000 then hmfPush v s else s)
  else if 0x50000 ≤ off then counterWr (off - 0x50000) v size s
  else if 0x40000 ≤ off then
    if !((size = 4 && off % 4 = 0) || (size = 8 && off % 8 = 0)) then badAccess s
    else if off < 0x40100 && off % 8 = 0 then
      (if off % 16 = 0 then sqDoorbell ((off - 0x40000) / 16) v s else cqDoorbell ((off - 0x40000) / 16) v s)
    else if off = 0x40100 then eqDoorbell v s else s
  else if 0x10000 ≤ off then aliasAccess (off / 0x10000) (off % 0x10000) v size s
  else if 0x8800 ≤ off && off < 0x9000 then guardPartner off v size s
  else if 0x8000 ≤ off && off < 0x8800 then guardPrimary off v size s
  else if bad64 off size then badAccess s else primaryWrite off v s
/-- REGISTER_WRITE (R429): a write to a register without a row of its own, wherever the host reaches it; configuration requests are answered in D3hot
too (R403). The configuration header has no field to write beyond those that have rows. -/
def execRegisterWrite (off : HostOff) (v : BitVec 64) (size : BitVec 4) (s : State) : Ans :=
  .next (match off with
    | .bar0 o => ctl s (barWrite o.toNat v size s)
    | .bar2 o => ctl s (bar2Write o.toNat v size s)
    | .header _ => live s s
    | .cfg r => live s (cfgWrite r v s))

end Sys2Proof.Machine
end

