-- ==== Sys2Proof/Machine/Thermal.lean ====
section
/-! DEFINITION. Thermal levels, the trip and the critical limit, operating hours, measurement cycles and the margin plan (R502-R515). -/
namespace Sys2Proof.Machine

/-- A temperature threshold is reached by a reading coded as °C plus 64. -/
def reaches (tj : Byte) (c : Nat) : Bool := decide (c + 64 ≤ tj.toNat)
/-- The level a reading asks for (R511, R512). -/
def levelFor (s : State) (tj : Byte) : Nat :=
  if !throttleEn s then 0
  else if reaches tj (levelC s 3) then 3 else if reaches tj (levelC s 2) then 2 else if reaches tj (levelC s 1) then 1 else 0
/-- THERMTRIP_N and every clock except AO's stopped (R340, R511). -/
def shutDown (s : State) : State := { s with ao.thermtrip := true, ao.stopped := true }
/-- A thermal trip arises (R511, R514, R515). -/
def trip (s : State) : State :=
  let s := { s with ao.tripped := true, ao.trips := s.ao.trips + 1 }
  if s.off then s else drainCause 2 4 s
/-- A sample of the sixteen sensors (R511, R512): Tj, PEAK, the level, the trip, the critical limit. -/
def sample (temps : List Byte) (s : State) : State :=
  let l := (List.range 16).map (fun i => temps.getD i 0)
  let tj := l.foldl (fun a x => if a < x then x else a) 0
  let tripC := thermC s 32
  let fresh := !reaches s.ao.tj tripC
  let s := { s with ao.sensors := l, ao.tj := tj, ao.peak := if s.ao.peak < tj then tj else s.ao.peak }
  let s := setLevel (max s.ao.level.toNat (levelFor s tj)) s
  if reaches tj 150 then shutDown s
  else if reaches tj tripC && (fresh || (!s.drain.thermal && !s.off)) then trip s
  else s
/-- THERMAL_SAMPLE (R511): the AO domain samples in every mode. -/
def execThermalSample (temps : List Byte) (s : State) : Ans :=
  .next (if !s.ao.up then s else if s.off then sample temps s else rowEnd s (sample temps s))
/-- THERMAL_LEVEL_FALL (R512): one step, Tj standing 5 °C below the threshold of the current level. -/
def execThermalLevelFall (s : State) : Ans :=
  let n := s.ao.level.toNat
  .next (if n ≠ 0 && decide (s.ao.tj.toNat + 5 ≤ levelC s n + 64) then setLevel (n - 1) s else s)
/-- CRITICAL_LIMIT (R511). -/
def execCriticalLimit (s : State) : Ans := .next (if s.ao.up then shutDown s else s)

/-- A measurement cycle falls due (R506): it runs in BYPASS and CACHED, and is deferred elsewhere; one in progress is joined. -/
def cycleDue (why : Nat) (s : State) : State :=
  if s.age.measuring || s.age.deferred then s
  else if s.mode = 2 || s.mode = 3 then { s with age.measuring := true, age.why := BitVec.ofNat 8 why }
  else { s with age.deferred := true, age.why := BitVec.ofNat 8 why }
/-- The operating hours reach a count: where it passes a multiple of 1,000 h a measurement cycle is due (R506). -/
def hoursTo (n : Nat) (s : State) : State :=
  let t := { s with ao.hours := BitVec.ofNat 32 n }
  if s.ao.hours.toNat / 1000 < n / 1000 then cycleDue 0 t else t
/-- The hours are written to the health page (R506). -/
def writeHours (s : State) : State := healthJob none fieldOps { s with age.hoursSaved := s.ao.hours }
/-- OPERATING_HOURS_MARK (R506): the count reaches the next multiple of 1,000 h. -/
def execOperatingHoursMark (s : State) : Ans :=
  .next (if s.mode = 0 then s else live s (hoursTo ((s.ao.hours.toNat / 1000 + 1) * 1000) { s with ao.hourT := 0 }))
/-- HOURS_WRITE (R506): 24 operating hours have passed since the count was last written, which may bring it past a multiple of 1,000 h. -/
def execHoursWrite (s : State) : Ans :=
  .next (if s.mode = 0 then s else live s (writeHours (hoursTo (max s.ao.hours.toNat (s.age.hoursSaved.toNat + 24)) s)))

/-- Slack above which an offset is high enough, in ps (R507). -/
def slackOk : Int := 35
/-- The core slack S of a sample: the smallest replica slack among T0 to T23, less the guard band of 10 ps (R507). -/
def coreSlack (v : Vector Int 24) : Int := v.toList.foldl min v[0] - 10
/-- Raise the offset a step at a time, sampling S after each, until it is high enough or the range ends (R507). -/
def raiseVid : Nat → Nat → List Int → Nat × Int × List Int × Bool
  | 0, v, l => (v, 0, l, false)
  | n + 1, v, l =>
    let x := l.headD 0
    if slackOk ≤ x then (v + 1, x, l.drop 1, true)
    else if n = 0 then (v + 1, x, l.drop 1, false) else raiseVid n (v + 1) (l.drop 1)
/-- The least offset at which S is high enough at a bin (R507). -/
def leastVid (l : List Int) : Nat × Int × List Int × Bool :=
  let x := l.headD 0
  if slackOk ≤ x then (0, x, l.drop 1, true) else raiseVid 20 0 (l.drop 1)
/-- What a margin plan chooses for the core: bin, VID code, the last S measured, and whether END_OF_LIFE was reached. -/
structure CorePlan where
  bin : Nat
  vid : Nat
  slack : Int
  eol : Bool
deriving DecidableEq, Repr
/-- The next bins, each with its least offset, until one serves (R507). -/
def nextBins : Nat → Nat → Int → List Int → CorePlan
  | 0, b, x, _ => ⟨b, 20, x, true⟩
  | n + 1, b, _, l =>
    match leastVid l with
    | (v, x, _, true) => ⟨b + 1, v, x, false⟩
    | (_, x, l, false) => nextBins n (b + 1) x l
/-- The core rows of R507, from the slack S and the samples of the step search after it. -/
def corePlan (b v : Nat) (slack : List Int) : CorePlan :=
  let x := slack.headD 0
  let l := slack.drop 1
  if 60 ≤ x then ⟨b, v - 1, x, false⟩
  else if slackOk ≤ x then ⟨b, v, x, false⟩
  else if 20 ≤ x || b = 3 then
    match raiseVid (20 - v) v l with
    | (v', y, _, true) => ⟨b, v', y, false⟩
    | (_, y, l, false) => nextBins (3 - b) b (if v = 20 then x else y) l
  else nextBins (3 - b) b x l
/-- The link rows of R507 for one port: MARGIN_LOW and the cap of its next training. -/
def linkPlan (low : Bool) (rate cap : BitVec 2) (t mv : Nat) : Bool × BitVec 2 :=
  if t < 200 || mv < 20 then (true, if rate = 0 then 0 else rate - 1)
  else if 300 ≤ t && 30 ≤ mv then (false, 3)
  else (low, cap)
/-- MARGIN_LOW of one far port in the health page. -/
def putBit4 (m : BitVec 4) (i : Nat) (b : Bool) : BitVec 4 := if b then m ||| BitVec.ofNat 4 (2 ^ i) else m &&& ~~~(BitVec.ofNat 4 (2 ^ i))
/-- Apply the link rows to every port that is up (R506, R507). -/
def linkPlans (l : List (Nat × Nat × Nat)) (s : State) : State :=
  l.foldl (fun s m =>
    if m.1 < 12 then
      let q := s.port m.1
      if q.open_ then
        let r := linkPlan q.marginLow q.rate q.rateCap m.2.1 m.2.2
        s.updPort m.1 (fun q => { q with marginLow := r.1, rateCap := r.2 })
      else s
    else if m.1 < 16 then
      let f := s.farP (m.1 - 12)
      if f.up then
        let r := linkPlan (bit s.age.farLow (m.1 - 12)) f.rate f.rateCap m.2.1 m.2.2
        { s with age.farLow := putBit4 s.age.farLow (m.1 - 12) r.1 }.updFar (m.1 - 12) (fun f => { f with rateCap := r.2 })
      else s
    else s) s
/-- The cache-channel rows of R507, from the eyes of the last retrainings. -/
def eyePlan (s : State) : State :=
  let n := s.channels + s.cache.quar.length
  if n = 0 || !s.cache.trained then s
  else
    let e := (List.range n).foldl (fun a c => min a (NMap.get 1000 s.age.eyes c)) 1000
    let s := { s with age.eye := e }
    let s := if e < 300 then { s with age.retrain := max 25 (s.age.retrain / 2) } else if 400 ≤ e then { s with age.retrain := min 100 (2 * s.age.retrain) } else s
    if e < 220 then { s with age.ratePlan := if s.cache.rate = 2 then 2 else s.cache.rate + 1 } else s
/-- Two's complement of an integer in n bits. -/
def twos (n : Nat) (x : Int) : Nat := (x % 2 ^ n).toNat
/-- The AVS offset of a VID code in mV (R504). -/
def avs (v : Nat) : Int := 5 * ((v : Int) - 10)
/-- AGEING_MEASURE commands end once the plan is in force (R515). -/
def planEnd (s : State) : State :=
  if s.age.bin = s.age.binPlan && s.age.vid = s.age.vidPlan then
    (s.cp.prog.filter (fun g => g.op = 0x8A && g.stage = 2)).foldl (fun s g => finish g St.ok g.n s) s
  else s
/-- The end of a measurement cycle (R506, R507, R509). -/
def cycleEnd (m : Measure) (s : State) : State :=
  let c := corePlan s.age.binPlan.toNat s.age.vidPlan (m.slack.map coreSlack)
  let why := if c.eol then 3 else s.age.why.toNat
  let s := eyePlan (linkPlans m.margins s)
  let s := { s with
    age.measuring := false, age.binPlan := BitVec.ofNat 2 c.bin, age.vidPlan := c.vid, age.slack := c.slack, age.reason := BitVec.ofNat 8 why
    age.vidOn := s.age.vidOn || decide (s.age.vid = s.age.vidPlan)
    age.replans := s.age.replans + 1
    age.history := (s.age.history ++ [(BitVec.ofNat 2 c.bin, BitVec.ofNat 8 why, c.vid, c.slack)]).drop (s.age.history.length - 255) }
  let s := if c.eol then logErr 0x0043 5 5 0 0 0 (twos 24 c.slack) s else s
  let s := postEvent 0x0705 [(0, c.bin), (1, why), (2, twos 16 (avs c.vid))] s
  let s := writeHours (healthJob none fieldOps s)
  planEnd (recompute { s with cp.prog := s.cp.prog.map (fun g => if g.op = 0x8A && g.stage = 1 then { g with stage := 2, n := c.bin + 256 * why } else g) })
/-- MEASUREMENT_CYCLE_END (R507). -/
def execMeasurementCycleEnd (m : Measure) (s : State) : Ans := .next (act s (if s.age.measuring then cycleEnd m s else s))
/-- CORE_BIN_SWITCH (R502): the bin only rises. -/
def execCoreBinSwitch (s : State) : Ans :=
  .next (act s (if s.age.bin < s.age.binPlan then recompute (planEnd { s with age.bin := s.age.binPlan }) else s))
/-- VID_STEP (R504): one step towards the plan, after the bin switch of the same plan. -/
def execVidStep (s : State) : Ans :=
  .next (act s (if !s.boot.fwRun || s.age.bin < s.age.binPlan || s.age.vid = s.age.vidPlan then s
    else
      let v := if s.age.vid < s.age.vidPlan then s.age.vid + 1 else s.age.vid - 1
      planEnd { s with age.vid := v, age.vidOn := s.age.vidOn || decide (v = s.age.vidPlan) }))
/-- CHANNEL_RETRAIN (R507, R508): the eye it found is kept. -/
def execChannelRetrain (ch : BitVec 5) (eye : BitVec 16) (s : State) : Ans :=
  .next (live s (if s.cache.trained && decide (ch.toNat < s.channels + s.cache.quar.length) then
    { s with age.eyes := NMap.set 1000 s.age.eyes ch.toNat eye.toNat } else s))

/-- AGEING_MEASURE (R506, R515). -/
def execAgeingMeasure (p : Packet) (s : State) : Ans :=
  .next (act s (cmd 0x8A [mY, mC] 0 false p (fun _ => [(p.rsv 0 0 true, St.invalid_param)]) (fun s => cycleDue 1 (begin_ 0x8A p 1 0 0 s)) s))
/-- AVS_OFFSET (R514): the offset that VID drives; from RESET_N until it has reached the one stored in the health page, that one. -/
def avsOffset (s : State) : Int := avs (if s.age.vidOn then s.age.vid else s.age.vidPlan)
/-- AGE_STATUS (R514). -/
def ageStatus (s : State) : BitVec 64 :=
  BitVec.ofNat 64 (b2n s.age.measuring + 2 ^ 4 * s.cache.rate.toNat + 2 ^ 8 * s.age.bin.toNat + 2 ^ 16 * twos 8 (avsOffset s) + 2 ^ 32 * s.ao.hours.toNat)
/-- MARGIN_LOW of every port (R515). -/
def marginBits (s : State) : Nat := ((List.range 12).map (fun p => b2n (s.port p).marginLow * 2 ^ p)).sum + 2 ^ 12 * s.age.farLow.toNat
/-- The AGEING_QUERY block (R515). -/
def ageBlock (s : State) : List Byte :=
  block 64 [(0, 8, (ageStatus s).toNat), (8, 4, 1000 - s.ao.hours.toNat % 1000), (12, 2, s.age.retrain), (14, 1, s.age.ratePlan.toNat),
    (15, 1, s.age.reason.toNat), (16, 2, twos 16 s.age.slack), (18, 2, marginBits s), (20, 2, s.age.eye), (24, 8, s.age.replans.toNat)]
/-- AGEING_QUERY (R515). -/
def execAgeingQuery (p : Packet) (s : State) : Ans :=
  .next (cmd 0x8B [mB, mY, mC, mR, mD] 0 false p (fun _ => [(p.rsv 8 0 true || badBuf p.addr 64 64, St.invalid_param)])
    (fun s => completeBlock p (ageBlock s) St.ok 0 s) s)
/-- The THERMAL_QUERY block (R515). -/
def thermalBlock (s : State) : List Byte :=
  (List.range 16).map (fun i => s.ao.sensors.getD i 0) ++
    block 48 [(0, 8, (thermStatus s).toNat), (8, 8, s.regs.thermCtrl.toNat), (16, 8, s.age.throttled.toNat), (24, 4, s.ao.trips.toNat)]
/-- THERMAL_QUERY (R515). -/
def execThermalQuery (p : Packet) (s : State) : Ans :=
  .next (cmd 0x8C [mB, mY, mC, mR, mD] 0 false p (fun _ => [(p.rsv 8 0 true || badBuf p.addr 64 64, St.invalid_param)])
    (fun s => completeBlock p (thermalBlock s) St.ok 0 s) s)

end Sys2Proof.Machine
end

