-- ==== Sys2Proof/Machine/Boot.lean ====
section
/-! DEFINITION. Modes, resets, boot, firmware images and the boot flash, and the sideband balls that report them (R449-R475, R522, R523). -/
namespace Sys2Proof.Machine

/-- Bytes of the configuration record. -/
def cfgBytes (c : Option (BitVec 4096)) : List Byte := match c with | some b => wordBytes 512 b | none => []
/-- The port configuration of a record, or the default (R469). -/
def cfgPort (b : List Byte) (n : Nat) : PortCfg := if b.isEmpty then ⟨true, 2, BitVec.ofNat 18 (n + 1), 1, 0⟩ else portCfgOf (leAt b (32 + 16 * n) 16)
/-- HOLD_IN_BOOT of the record in use (R453, R469). -/
def holdInBoot (s : State) : Bool := match s.boot.configUse with | some c => bit c 168 | none => false
/-- The configuration record comes into use (R205, R228, R455 step 6, R469). -/
def useConfig (s : State) : State :=
  let b := cfgBytes s.boot.config
  let d := b.isEmpty
  let s := { s with
    boot.configUse := s.boot.config
    links.base := if d then 0 else BitVec.ofNat 18 (leAt b 12 4), links.size := if d then 0x3D090 else BitVec.ofNat 18 (leAt b 16 4)
    links.depth := if d then 1 else BitVec.ofNat 8 (leAt b 20 1) }
  let s := (List.range s.nPorts).foldl (fun s n => s.updPort n (fun q => { q with cfg := cfgPort b n, cfgNext := cfgPort b n })) s
  (List.range s.nFar).foldl (fun s f => s.updFar f (fun g => { g with enable := d || (leAt b 22 1).testBit f })) s

/-- What RESET_N leaves (R472): the AO block, and what the boot flash and the fuses hold; every other field at its reset value, no mode running. -/
def resetState (s : State) : State :=
  let h := s.boot.health
  { State.reset with
    ao := s.ao, nextId := s.nextId, free := s.free, out := s.out, pending := s.pending
    trip := { Trips.init with mode := Trip.all 0, key := Trip.all (s.keys.stored.setWidth 3) }
    links := { Links.init with
      ports := (List.range 12).foldl (fun m p => NMap.set Port.init m p { Port.init with marginLow := (s.port p).marginLow, rateCap := (s.port p).rateCap }) []
      far := (List.range 4).foldl (fun m p => NMap.set FarPort.init m p { FarPort.init with rateCap := (s.farP p).rateCap }) [] }
    keys := { Keys.init with
      identPub := s.keys.identPub, identPriv := s.keys.identPriv, sealPub := s.keys.sealPub, sealPriv := s.keys.sealPriv, serial := s.keys.serial
      cert := s.keys.cert, stored := s.keys.stored, tapOpen := s.keys.tapOpen, custOn := s.keys.custOn, cust := s.keys.cust }
    err := { Err.init with rlSets := h.rlSets, rlBanks := h.rlBanks, rlGen := h.rlGen, rlPop := h.rlPop }
    boot := { Boot.init with
      small := s.boot.small, stepping := s.boot.stepping, serial := s.boot.serial, active := s.boot.active, slotA := s.boot.slotA, slotB := s.boot.slotB
      slotsOk := s.boot.slotsOk, verA := s.boot.verA, verB := s.boot.verB, polArea := s.boot.polArea, polBad := s.boot.polBad, staging := s.boot.staging
      bootCountKept := s.boot.bootCountKept, config := s.boot.config, custRec := s.boot.custRec, dirtyCnt := h.dirty
      health := h, healthOld := s.boot.healthOld, bootGen := s.boot.bootGen, bootOld := s.boot.bootOld, configOld := s.boot.configOld }
    age := { Age.init with
      bin := s.age.binPlan, binPlan := s.age.binPlan, vidPlan := s.age.vidPlan, reason := s.age.reason, slack := s.age.slack, eye := s.age.eye
      retrain := s.age.retrain, ratePlan := s.age.ratePlan, replans := s.age.replans, history := h.history, hoursSaved := h.hours
      farLow := s.age.farLow, deferred := s.age.deferred, why := if s.age.deferred then s.age.why else 0 } }
/-- The reset record at a RESET_N edge (R262, R334, R475). -/
def resetRecord (s : State) : Ao :=
  { s.ao with
    kind := 1, modeAtEdge := s.ao.modeMirror, ddAtEdge := s.ao.drainDone, resetTime := s.ao.time
    lost0 := BitVec.ofNat 64 (s.ao.mirDirty.toNat + s.ao.mirWb.toNat * 2 ^ 40), lost1 := BitVec.ofNat 64 (s.ao.mirDur.toNat + 2 ^ 63)
    rep.flags := if s.drain.step ≠ 0 && !s.ao.drainDone then s.ao.rep.flags ||| 8 else s.ao.rep.flags
    inReset := true, modeBefore := s.ao.modeMirror, modeMirror := 0, drainDone := true }
/-- RESET_N_ASSERT (R327, R450, R472, R475). -/
def execResetNAssert (s : State) : Ans :=
  .next (if s.ao.inReset then s
    else if !s.ao.up then { s with ao.inReset := true }
    else { resetState s with ao := resetRecord s })
/-- RESET_N_DEASSERT (R327, R450): BOOT, with the change into RESET posted with it. -/
def execResetNDeassert (s : State) : Ans :=
  .next (if !s.ao.inReset then s
    else if !s.ao.up then { s with ao.inReset := false }
    else
      let s := { s with ao.inReset := false, ao.drainDone := false }
      changeMode 1 0 (if s.ao.modeBefore = 0 then s else postEvent 0x0002 [(0, s.ao.modeBefore.toNat), (1, 0), (2, 0)] s))
/-- The AO block at AO power-up (R341, R472, R475); BOOT_COUNT is there once the boot ROM has incremented it. -/
def aoPowerUp (low : Bool) (hours : BitVec 32) : Ao :=
  { Ao.init with inReset := low, bootCount := 0, firstBoot := true, drainDone := low, modeMirror := if low then 0 else 1, hours := hours }
/-- VDD_AO_POWER_UP (R472): nothing on chip is kept; BOOT when RESET_N is high. -/
def execVddAoPowerUp (s : State) : Ans :=
  .next (if s.ao.up then s
    else
      let s := { resetState s with ao := aoPowerUp s.ao.inReset s.boot.health.hours, age.deferred := false, age.why := 0 }
      if s.ao.inReset then s else changeMode 1 0 s)
/-- VDD_AO_LOSS (R450): RESET, and the AO block is lost with the rest. -/
def execVddAoLoss (s : State) : Ans :=
  .next (if !s.ao.up then s
    else { resetState s with ao := { aoPowerUp s.ao.inReset 0 with up := false, modeMirror := 0, drainDone := true }, age.deferred := false, age.why := 0 })

/-- A firmware image's header breaks R459 (R462). -/
def fwInvalid (b : List Byte) : Bool :=
  leAt b 0 4 ≠ 0x7E51F1A7 || leAt b 4 1 ≠ 0 || leAt b 5 1 ≠ 0 || decide (16 < leAt b 6 2) || leAt b 8 4 % 4 ≠ 0 || decide (4193952 < leAt b 8 4) ||
    leAt b 28 20 ≠ 0 || leAt b 240 16 ≠ 0
/-- The checks of R462, in its order. -/
def fwChecks (s : State) (b : List Byte) : List (Bool × BitVec 16) :=
  let n := 256 + leAt b 8 4 + 96
  [(fwInvalid b, St.image_invalid), (!signedBy s n b false, St.auth_failed),
    (!(List.range 8).any (fun i => leAt b (20 + i) 1 = s.boot.stepping.toNat), St.stepping_mismatch)]
/-- The checks of R460 on a customer key record. -/
def custChecks (s : State) (b : List Byte) : List (Bool × BitVec 16) :=
  [(leAt b 0 4 ≠ 0x7E51C05E || leAt b 4 1 ≠ 2 || leAt b 5 3 ≠ 0 || leAt b 104 24 ≠ 0, St.image_invalid),
    (!s.keys.custOn || sha384w (slice0 b 8 96) ≠ s.keys.cust, St.auth_failed)]
/-- The first `n` bytes of the staging area; erased flash reads as ones. -/
def stagingBytes (s : State) (n : Nat) : List Byte :=
  let sec := fun (k : Nat) => let l := NMap.get [] s.boot.staging k; l ++ List.replicate (4096 - l.length) (0xFF : Byte)
  ((List.range ((n + 4095) / 4096)).flatMap sec).take n
/-- The staged image of a kind, its length read from its header (R466). -/
def stagedImage (s : State) (kind : Nat) : List Byte :=
  let h := stagingBytes s 256
  stagingBytes s (if kind = 0 then min 4194304 (256 + leAt h 8 4 + 96) else if kind = 1 then min 131072 (leAt h 8 4) else 128)
/-- TESTED of a firmware image (R459, R463). -/
def testedOf (b : List Byte) : List (BitVec 64 × BitVec 32) :=
  (List.range (min 16 (leAt b 6 2))).map (fun i => (BitVec.ofNat 64 (leAt b (48 + 12 * i) 8), BitVec.ofNat 32 (leAt b (56 + 12 * i) 4)))
/-- The slot the boot ROM runs (R456): the active one where it passes, else the other. -/
def pickSlot (s : State) : Option Nat :=
  let a := b2n s.boot.active
  if bit s.boot.slotsOk a then some a else if bit s.boot.slotsOk (1 - a) then some (1 - a) else none
/-- The keys are unwrapped (R314, R316); what STATE drops to for this boot. -/
def unwrapKeys (identOk sealOk : Bool) (s : State) : State :=
  let k := s.keys.stored
  let s := if (k = 1 || k = 2) && !identOk then postEvent 0x0402 [(0, 0)] s else s
  let s := if k = 2 && !sealOk then postEvent 0x0402 [(0, 1)] s else s
  let s := { s with keys.wiped := false }
  setKeySt (if (k = 1 || k = 2) && !identOk then 3 else if k = 2 && !sealOk then 1 else k) s
/-- Training of every enabled agent port starts (R455 step 6). -/
def trainAll (s : State) : State := (List.range s.nPorts).foldl (fun s p => trainPort p s) s
/-- Steps 5 and 6 of R455 for the firmware that runs now: the configuration, the health page, the policy image, and training, as far as this
start makes them (R455, R467, R473, R474). -/
def firmwareRuns (slot : Nat) (identOk sealOk : Bool) (kat : BitVec 8) (s : State) : State :=
  let cold := s.boot.cold
  let kind := s.boot.start
  let s := { s with
    boot.fwRun := true, boot.running := BitVec.ofNat 8 slot, boot.fallback := decide (slot ≠ b2n s.boot.active), boot.start := 0, boot.cold := false
    boot.tested := testedOf (if slot = 0 then s.boot.slotA else s.boot.slotB) }
  let s := if kind = 0 || kind = 3 then unwrapKeys identOk sealOk (if kat = 0 then { s with keys.testsOk := !s.keys.errState } else cryptoError kat.toNat s) else s
  let s := if cold then { useConfig s with age.bin := s.age.binPlan } else s
  let s := if kind = 2 then s else bootPolicy s
  let s := if cold then trainAll s else s
  if cold && s.age.history.isEmpty then cycleDue 2 s else s
/-- FIRMWARE_START (R455 steps 2 to 6, R456, R473, R474). -/
def firmwareStart (romOk identOk sealOk : Bool) (kat : BitVec 8) (s : State) : State :=
  if s.boot.fwRun || s.boot.halted || s.boot.recovery then s
  else if !romOk && s.boot.start = 0 then { s with boot.halted := true }
  else
    let s := if s.ao.firstBoot then { s with
        boot.bootCountKept := s.boot.bootCountKept + 1, ao.bootCount := s.boot.bootCountKept + 1, ao.firstBoot := false } else s
    match pickSlot s with
    | none => { s with boot.recovery := true, boot.running := 2, boot.fallback := false }
    | some n => firmwareRuns n identOk sealOk kat s
/-- FIRMWARE_START (R455). -/
def execFirmwareStart (romOk identOk sealOk : Bool) (kat : BitVec 8) (s : State) : Ans := .next (act s (firmwareStart romOk identOk sealOk kat s))

/-- The population the trained channels form, each dense (4 GiB) or not: a permitted set of channels, all of one density, or none (R54, R55). -/
def chansOf (s : State) (trained dense : BitVec 32) : BitVec 2 :=
  if dense &&& trained ≠ 0 && dense &&& trained ≠ trained then 3
  else if trained = 0xFF then 0 else if trained = 0xFFFF then 1 else if trained = 0xFFFFFFFF && !s.boot.small then 2 else 3
/-- The retire list is applied, or kept and reported where it is of another population (R383). -/
def applyRetire (s : State) : State :=
  if s.err.rlSets.isEmpty && s.err.rlBanks.isEmpty then s
  else if s.err.rlPop.toNat = s.popByte then { s with cache.retSets := s.err.rlSets, cache.retBanks := s.err.rlBanks }
  else postEvent 0x0505 [(0, s.err.rlPop.toNat), (1, s.popByte)] s
/-- CHANNEL_TRAINING_END (R55, R56, R383, R455 step 8): the rate is the slower of the one reached and the one planned. -/
def execChannelTrainingEnd (trained dense : BitVec 32) (rate : BitVec 2) (s : State) : Ans :=
  .next (act s (if s.mode ≠ 1 || s.boot.cold || s.cache.trained then s
    else
      let c := chansOf s trained dense
      recompute (applyRetire { s with
        cache.chans := c, cache.dense := decide (dense &&& trained ≠ 0) && decide (c ≠ 3), cache.trained := true, cache.rate := if rate < s.age.ratePlan then s.age.ratePlan else rate })))
/-- The Dirty Shutdown Count of a device has been read (R342). -/
def dirtyRead (f : Nat) (n : BitVec 32) (s : State) : State :=
  if NMap.get 0 s.boot.dirtyCnt f < n then
    healthJob none fieldOps (postEvent 0x0202 [(0, f), (4, n.toNat)] { s with boot.dirtyCnt := NMap.set 0 s.boot.dirtyCnt f n })
  else s
/-- No request sent to a far port is outstanding (R370 step 1). -/
def portQuiet (s : State) (f : Nat) : Bool := !(s.links.reqs ++ s.links.waitq).any (fun r => r.port = f)
/-- The FAR_RECOVER in progress for a port (R370). -/
def recovering (s : State) (f : Nat) : Option Prog := s.cp.prog.find? (fun g => g.op = 0x79 && g.p.target.toNat = f)
/-- FAR_RECOVER's device has answered (R370 step 4). -/
def recovered (f : Nat) (g : Prog) (cap : BitVec 40) (gpf : Bool) (dur : GpfPhase2) (dirty : BitVec 32) (s : State) : State :=
  if (s.farP f).cap ≠ cap then finish g St.far_unresponsive 0 s
  else
    let s := dirtyRead f dirty (s.updFar f (fun q => { q with dead := false, active := true, gpf := gpf, gpfDur := dur.duration, gpfPower := dur.power }))
    retryDead (finish g St.ok 0 (recompute (logErr 0x0025 0 2 f 0 0 0 s)))
/-- What the enumeration of a far port's device has read (R330, R342, R455 step 7). -/
def enumerated (f : Nat) (e : FarSeen) (s : State) : State :=
  dirtyRead f e.dirty (s.updFar f (fun q => { q with cap := e.cap, gpf := e.gpf, gpfDur := e.phase2.duration, gpfPower := e.phase2.power }))
/-- MEMORY_ACTIVE (R455 step 7, R370): the device of an enabled far port has been enumerated and its media are active. -/
def execMemoryActive (fp : BitVec 2) (cap : BitVec 40) (gpf : Bool) (dur : GpfPhase2) (dirty : BitVec 32) (s : State) : Ans :=
  let f := fp.toNat
  .next (act s (match recovering s f with
    | some g => if portQuiet s f then recovered f g cap gpf dur dirty s else s
    | none =>
      let q := s.farP f
      if s.mode ≠ 1 || s.boot.cold || decide (s.nFar ≤ f) || !q.enable || q.active || q.dead then s
      else enumerated f ⟨cap, gpf, dur, dirty⟩ (s.updFar f (fun q => { q with active := true }))))
/-- MEMORY_ACTIVE_TIMEOUT (R455 step 7, R370): the device is DEAD; what its enumeration read stands. -/
def execMemoryActiveTimeout (fp : FarSilent) (s : State) : Ans :=
  let f := fp.fp.toNat
  .next (act s (match recovering s f with
    | some g => finish g St.far_unresponsive 0 s
    | none =>
      let q := s.farP f
      if s.mode ≠ 1 || s.boot.cold || decide (s.nFar ≤ f) || !q.enable || q.active || q.dead then s
      else farDead f (match fp.seen with | some e => enumerated f e s | none => s)))
/-- The exit conditions of R453. -/
def exitReady (s : State) : Bool :=
  s.boot.fwRun && s.pol.loaded && !s.pol.stopped && s.cache.trained && (List.range s.nFar).all (fun f => let q := s.farP f; !q.enable || q.active || q.dead)
/-- BOOT_EXIT (R453). -/
def execBootExit (s : State) : Ans := .next (act s (if s.mode = 1 && exitReady s && !holdInBoot s then recompute (changeMode 2 1 s) else s))
/-- MODE_SET (R454). -/
def execModeSet (p : Packet) (s : State) : Ans :=
  let m := p.par 0 1
  .next (act s (cmd 0x05 [mB, mY, mC] 2 false p
    (fun s =>
      let up := s.mode = 2 && m = 3
      [(p.rsv 1 0 true || !(decide (m = s.mode.toNat) || (s.mode = 1 && m = 2) || up || (s.mode = 3 && m = 2)), St.invalid_param),
        (s.mode = 1 && m = 2 && !exitReady s, St.boot_pending), (up && s.popK.isNone, St.population_invalid), (up && !s.cache.invDone, St.not_invalidated)])
    (fun s =>
      if m = s.mode.toNat then complete p St.ok 0 s
      else if s.mode = 1 then complete p St.ok 0 (recompute (changeMode 2 2 s))
      else if s.mode = 2 then complete p St.ok 0 (recompute (changeMode 3 2 { s with cache.enabled := true }))
      else
        let id := s.nextId
        walkStart id 0x22 0 s.nSets 0x3FFF true false { begin_ 0x05 p 1 0 0 s with cache.disabling := true }) s))
/-- WARM_RESET_REBOOT (R473, R475): step 4 of a warm reset. Commands already taken go on without their completions (R404); the reset itself ends,
and with the sequencers a load of a policy image into them: R464 reloads them (log 125). -/
def warmReboot (s : State) : State :=
  let s := { resetControl s with
    ao.kind := 2, ao.modeAtEdge := s.mode, ao.ddAtEdge := s.ao.drainDone, ao.resetTime := s.ao.time, drain.warm := 0
    boot.fwRun := false, boot.start := 1, pol.loaded := false, cache.enabled := false, cache.invDone := false, cache.disabling := false, cache.walks := s.cache.walks.filter (fun k => k.op ≠ 0x09)
    err.inj := none }
  recompute (changeMode 1 5 { s with cp.prog := s.cp.prog.filter (fun g => g.op ≠ 0x09 && !(g.op = 0x92 && g.stage = 9) && !loadsPolicy g) })
/-- WARM_RESET_REBOOT (R473). -/
def execWarmResetReboot (s : State) : Ans := .next (act s (if s.drain.warm = 4 then warmReboot s else s))
/-- MANAGEMENT_WATCHDOG (R474). -/
def execManagementWatchdog (s : State) : Ans := .next (act s (mcRestart s))

/-- FW_DOWNLOAD (R465, R466): the sectors it covers are erased, then programmed. -/
def execFwDownload (p : Packet) (s : State) : Ans :=
  let off := p.par 8 4
  let n := p.par 12 4
  .next (cmd 0x90 [mB, mY, mC] 2 true p
    (fun _ => [(p.rsv 16 0 true || badBuf p.addr 8 n || off % 4096 ≠ 0 || n = 0 || decide (4194304 < n), St.invalid_param),
      (decide (4194304 < off + n), St.range_exceeds), (!p.readOk, St.host_read_failed)])
    (fun s =>
      let k := (n + 4095) / 4096
      beginFlash 0x90 p (k + (n + 255) / 256) { s with boot.staging := (List.range k).foldl (fun m i => NMap.set [] m (off / 4096 + i) []) s.boot.staging }) s)
/-- The status and the image a FW_COMMIT finds (R466). -/
def commitChecks (p : Packet) (s : State) : List (Bool × BitVec 16) :=
  let k := p.par 0 1
  let t := p.target.toNat
  let b := stagedImage s k
  [(p.rsv 1 0 false || !((k = 0 && decide (t < 2)) || (k = 1 && t = 2) || (k = 2 && t = 3)), St.invalid_param),
    (decide (t < 2) && s.boot.running.toNat = t, St.slot_active)] ++
    (if k = 0 then fwChecks s b else if k = 1 then imgChecks s b.length b else custChecks s b)
/-- A target area is erased before it is programmed (R466 step 4). -/
def areaErased (t : Nat) (s : State) : State :=
  if t < 2 then { s with boot.slotsOk := s.boot.slotsOk &&& ~~~(BitVec.ofNat 2 (2 ^ t)) }
  else if t = 2 then { s with boot.polBad := true } else { s with boot.custRec := none }
/-- FW_COMMIT (R465, R466). -/
def execFwCommit (p : Packet) (s : State) : Ans :=
  .next (cmd 0x91 [mB, mY, mC] 2 false p (commitChecks p)
    (fun s =>
      let n := (stagedImage s (p.par 0 1)).length
      areaErased p.target.toNat (beginFlash 0x91 p ((n + 4095) / 4096 + (n + 255) / 256) s)) s)
/-- The image stands in its area and has been read back (R466). -/
def committed (g : Prog) (s : State) : State :=
  let k := g.p.par 0 1
  let t := g.p.target.toNat
  let b := stagedImage s k
  let s := { s with boot.staged := 0 }
  let ver := BitVec.ofNat 64 (leAt b 12 8)
  if t = 0 then finish g St.ok 0 { s with boot.slotA := b, boot.verA := ver, boot.slotsOk := s.boot.slotsOk ||| 1 }
  else if t = 1 then finish g St.ok 0 { s with boot.slotB := b, boot.verB := ver, boot.slotsOk := s.boot.slotsOk ||| 2 }
  else if t = 2 then finish g (if imgTested s (imgOf b) then St.ok else St.untested_combination) 0 { s with boot.polArea := b, boot.polBad := false }
  else finish g St.ok 0 { s with boot.custRec := some (BitVec.ofNat 768 (leNat (slice0 b 8 96))) }
/-- FW_ACTIVATE (R465, R467). -/
def execFwActivate (p : Packet) (s : State) : Ans :=
  let t := p.target.toNat
  .next (act s (cmd 0x92 [mB, mY, mC] 2 false p
    (fun s =>
      [(t = 2 && s.mode = 1, St.mode_refused), (p.rsv 0 1 false || decide (2 < t), St.invalid_param),
        (decide (t < 2) && !bit s.boot.slotsOk t, St.image_invalid)] ++
        (if t = 2 then (s.boot.polBad, St.image_invalid) :: imgChecks s (leAt s.boot.polArea 8 4) s.boot.polArea else []))
    (fun s => if t = 2 then polBegin 0x92 p s else beginFlash 0x92 p 2 s) s))
/-- The boot record names the slot (R467): a restart follows at once where NOW or recovery asks for it. -/
def activated (g : Prog) (s : State) : State :=
  let s := { s with
    boot.active := decide (g.p.target = 1), boot.bootGen := s.boot.bootGen + 1, boot.bootOld := some (s.boot.bootGen, s.boot.active) }
  if s.boot.recovery then finish g St.ok 0 { s with boot.recovery := false, boot.start := 3 }
  else if !g.p.flag 0 then finish g St.ok 0 s
  else if s.mode = 1 then let s := resetControl s
    { s with cp.prog := s.cp.prog.filter (fun h => h.id ≠ g.id), boot.fwRun := false, boot.start := 3, pol.loaded := false }
  else if s.mode = 2 || s.mode = 3 then warmBegin (updProg g.id (fun g => { g with stage := 9 }) s)
  else finish g St.drain_aborted 0 s
/-- A configuration record breaks R205, R228 or R229, or its CRC fails (R469). -/
def configBad (s : State) (b : List Byte) : Bool :=
  let n := s.nPorts
  let t := { s with
    links.base := BitVec.ofNat 18 (leAt b 12 4), links.size := BitVec.ofNat 18 (leAt b 16 4), links.depth := BitVec.ofNat 8 (leAt b 20 1) }
  let t := (List.range n).foldl (fun t k => t.updPort k (fun q => { q with cfgNext := cfgPort b k })) t
  leAt b 0 4 ≠ 0x7E71C0F6 || leAt b 504 8 ≠ (crc64 (b.take 504)).toNat || decide (0x3D090 < leAt b 12 4 + leAt b 16 4) || leAt b 16 4 = 0 ||
    leAt b 20 1 = 0 || decide (6 < leAt b 20 1) || (List.range n).any (fun k => portCfgBad (leAt b (32 + 16 * k) 16) || !rangeOk t k (cfgPort b k))
/-- CONFIG_WRITE (R465, R469). -/
def execConfigWrite (p : Packet) (s : State) : Ans :=
  .next (cmd 0x95 [mB, mY] 2 true p
    (fun s => [(p.rsv 8 0 true || badBuf p.addr 1 512, St.invalid_param), (!p.readOk, St.host_read_failed), (configBad s (p.data.take 512), St.invalid_param)])
    (beginFlash 0x95 p 3) s)
/-- The record stands as the current copy, with the next GENERATION (R458, R469). -/
def configWritten (g : Prog) (s : State) : State :=
  let gen := (leAt (cfgBytes s.boot.config) 4 4 + 1) % 2 ^ 32
  let b := overwrite ((g.p.data.take 512).take 504) 4 (leBytes 4 gen)
  finish g St.ok 0 { s with boot.configOld := s.boot.config, boot.config := some (BitVec.ofNat 4096 (leNat (b ++ wordBytes 8 (crc64 b)))) }
/-- What a flash job's command does when its last operation has ended (R313, R316, R317, R382, R384, R466, R467, R469). -/
def jobEnd (j : FlashJob) (s : State) : State :=
  match j.own.bind (fun i => s.cp.prog.find? (fun g => g.id = i)) with
  | none => s
  | some g =>
    if j.bad then finish g St.flash_failed 0 (if g.op = 0x91 then { s with boot.staged := 0 } else s)
    else if g.op = 0x55 then identityDone g s
    else if g.op = 0x56 then sealKeyDone g s
    else if g.op = 0x58 then zeroiseDone g s
    else if g.op = 0x90 then
      let off := g.p.par 8 4
      let n := g.p.par 12 4
      finish g St.ok 0 { s with
        boot.staging := (List.range ((n + 4095) / 4096)).foldl (fun m i => NMap.set [] m (off / 4096 + i) (((g.p.data.take n).drop (4096 * i)).take 4096)) s.boot.staging
        boot.staged := s.boot.staged + n }
    else if g.op = 0x91 then committed g s
    else if g.op = 0x92 then activated g s
    else if g.op = 0x95 then configWritten g s
    else finish g St.ok 0 s
/-- A drain cause that arose in BOOT waited for the flash operation in progress, which has ended (R326). -/
def bootDrain (s : State) : State :=
  if s.boot.drainInBoot && s.mode = 1 then doneUp { s with boot.drainInBoot := false } else s
/-- FLASH_OPERATION_DONE (R457): one operation of the oldest job. -/
def flashDone (ok : Bool) (s : State) : State :=
  match s.boot.flash with
  | [] => s
  | j :: rest =>
    let j := { j with left := j.left - 1, bad := j.bad || !ok }
    if j.left ≠ 0 then bootDrain { s with boot.flash := j :: rest }
    else
      let s := { s with boot.flash := rest }
      let s := match j.keep with
        | some h => if j.bad then s else { s with boot.healthOld := some s.boot.health, boot.health := h }
        | none => s
      bootDrain (jobEnd j s)
/-- FLASH_OPERATION_DONE (R457). -/
def execFlashOperationDone (ok : Bool) (s : State) : Ans := .next (act s (flashDone ok s))
/-- CUSTOMER_KEY_SET (R465, R468): write-once. -/
def execCustomerKeySet (p : Packet) (s : State) : Ans :=
  let h := leNat (p.data.take 48)
  .next (cmd 0x94 [mB, mY] 2 true p
    (fun _ => [(p.rsv 8 0 true || badBuf p.addr 1 48, St.invalid_param), (!p.readOk, St.host_read_failed), (h = 0, St.invalid_param)])
    (fun s => complete p St.ok 0 (if s.keys.custOn then lockViolation s else { s with keys.custOn := true, keys.cust := BitVec.ofNat 384 h })) s)
/-- AREAS of the FW_QUERY block: the policy area is empty 0, valid 1 or invalid 2 (R470). -/
def polAreaState (s : State) : Nat :=
  if s.boot.polBad then 2
  else if s.boot.polArea.isEmpty then 0
  else match firstFail (imgChecks s (leAt s.boot.polArea 8 4) s.boot.polArea) with | none => 1 | some _ => 2
/-- The FW_QUERY block (R470). -/
def fwBlock (s : State) : List Byte :=
  let b := s.boot
  let a := bit b.slotsOk 0
  let v := bit b.slotsOk 1
  let pol := polAreaState s
  block 128 [(0, 1, b.running.toNat), (1, 1, b2n b.active), (2, 1, b2n b.fallback + 2 * b2n b.recovery + 4 * b2n b.polRefused),
    (3, 1, b2n a + 2 * b2n v + 4 * pol + 16 * b2n s.keys.custOn + 32 * b2n (officerKey s).isSome), (4, 4, b.staged), (8, 8, if a then b.verA.toNat else 0),
    (16, 8, if v then b.verB.toNat else 0), (24, 8, if pol = 0 then 0 else leAt b.polArea 64 8), (32, 4, if pol = 0 then 0 else leAt b.polArea 72 4),
    (40, 48, if s.keys.custOn then s.keys.cust.toNat else 0)]
/-- FW_QUERY (R465, R470). -/
def execFwQuery (p : Packet) (s : State) : Ans :=
  .next (cmd 0x93 [mB, mY, mC, mR, mD] 0 false p (fun _ => [(p.rsv 8 0 true || badBuf p.addr 128 128, St.invalid_param)])
    (fun s => completeBlock p (fwBlock s) St.ok 0 s) s)
/-- CONFIG_QUERY (R465): the current copy; free values where there is none (log 42). -/
def execConfigQuery (p : Packet) (s : State) : Ans :=
  .next (cmd 0x96 [mB, mY, mC, mR, mD] 0 false p (fun _ => [(p.rsv 8 0 true || badBuf p.addr 512 512, St.invalid_param)])
    (fun s => match s.boot.config with
      | some c => completeBlock p (wordBytes 512 c) St.ok 0 s
      | none => completeBlock p ((List.range 64).flatMap (fun i => wordBytes 8 (Config.freeWord (s.free + i)))) St.ok 0 { s with free := s.free + 64 }) s)
/-- The first two words of the AO block (R475). -/
def aoWord (s : State) : Nat := s.ao.kind.toNat + 256 * s.ao.modeAtEdge.toNat + 2048 * b2n s.ao.ddAtEdge
/-- RESET_RECORD_QUERY (R465, R475). -/
def execResetRecordQuery (p : Packet) (s : State) : Ans :=
  .next (cmd 0x0A [mB, mY, mC, mR, mD] 2 false p (fun _ => [(p.rsv 8 0 true || badBuf p.addr 64 64, St.invalid_param)])
    (fun s => completeBlock p (block 64 [(0, 8, aoWord s), (8, 8, s.ao.resetTime.toNat), (16, 8, s.ao.lost0.toNat), (24, 8, s.ao.lost1.toNat),
      (32, 8, s.ao.time.toNat), (40, 8, s.ao.bootCount.toNat)]) St.ok 0 s) s)

/-- ID (R436). -/
def idWord (s : State) : BitVec 64 := BitVec.ofNat 64 (0x1FB7 + s.deviceId * 2 ^ 16 + s.boot.stepping.toNat * 2 ^ 32 + 2 ^ 40)
/-- The register word a Block Read answers with (R436, R514, R522); none where the code is NACKed. -/
def bmcWord (s : State) (c : Nat) : Option (BitVec 64) :=
  if c = 0 then some (idWord s)
  else if c = 1 then some (s.mode.setWidth 64)
  else if c = 2 then some (devStatus s)
  else if c = 3 then some (thermStatus s)
  else if c = 4 then some (ageStatus s)
  else if c ≤ 12 then some (BitVec.ofNat 64 (leAt (reportBlock s.ao.rep) (8 * (c - 5)) 8))
  else none
/-- BMC_BLOCK_READ (R522): served in every mode, RESET included. -/
def execBmcBlockRead (code : Byte) (s : State) : Ans := .next (if s.ao.up then s.put (.bmc (bmcWord s code.toNat)) else s)
/-- TAP_INSTRUCTION (R523): internal instructions are reachable while TAP_OPEN is intact; one that is not, and an undefined one, is BYPASS (log 41). -/
def execTapInstruction (ins : BitVec 3) (s : State) : Ans :=
  .next { s with ao.tap := if ins = 7 || (ins = 6 && !s.keys.tapOpen) then 0 else ins }
/-- How the test access port behaves (R523): EXTEST, EXTEST_PULSE and EXTEST_TRAIN, loaded at any time, act only while RESET_N is asserted and are
BYPASS at other times. -/
def tapActs (s : State) : BitVec 3 := if 3 ≤ s.ao.tap.toNat && s.ao.tap.toNat < 6 && !s.ao.inReset then 0 else s.ao.tap

end Sys2Proof.Machine
end

