-- ==== Sys2Proof/Machine/Ao.lean ====
section
/-! DEFINITION. What one AO clock does when no command is waiting, and the mirror of the lost-write counts (R262, R308, R476-R479). -/
namespace Sys2Proof.Machine

/-- A count that saturates at all ones. -/
def satCount (w n : Nat) : BitVec w := BitVec.ofNat w (min (2 ^ w - 1) n)
/-- Durable-class lines not yet persisted: in a write buffer, or durable-dirty in the system cache, each once (R262). -/
def durableHeld (s : State) : Nat :=
  let wbs := (List.range 8).flatMap (fun sl => ((s.slice sl).wb.filter (fun b => b.dur && b.hasData)).map (fun b => b.line.toNat))
  let sets := ((List.range 8).flatMap (fun sl => heldSets s sl)).eraseDups
  let res := if !s.cache.enabled then [] else sets.flatMap (fun st => (List.range 14).filterMap (fun w =>
    let te := teOf (s.curTb st) w
    if bit te 13 && bit te 12 && bit te 11 then some (s.wayLine st w).toNat else none))
  (wbs ++ res).eraseDups.length
/-- Write-buffer lines of non-durable write data not yet in the system cache or far memory (R262). -/
def plainHeld (s : State) : Nat :=
  ((List.range 8).map (fun sl => ((s.slice sl).wb.filter (fun b => !b.dur && b.hasData && !b.cached)).length)).sum
/-- The mirror takes the slices' counts (R262). -/
def mirror (s : State) : State :=
  { s with ao.mirWb := satCount 16 (plainHeld s), ao.mirDirty := satCount 40 s.cache.dirtyPlain, ao.mirDur := satCount 40 (durableHeld s) }
/-- RESET_MIRROR (R262). -/
def execResetMirror (s : State) : Ans := .next (if s.off then s else mirror s)

/-- A message of a class waits for the peer's credits (R178), an eviction that goes home-ward among them. -/
def waitsCls (q : Port) (c : Nat) : Bool :=
  let have_ := NMap.get 0 q.txCr c
  (match q.txQ.find? (fun m => Hd.cls (Hd.op m.h) = c) with | some m => decide (have_ < Hd.len (Hd.op m.h)) | none => false) ||
    (c = 3 && q.upQ.any (fun x => x.dat.isSome) && decide (have_ < 9))
/-- The link clock of a port runs whenever the port is not disabled (DESIGN CHOICE, log 139). -/
def Port.clocked (q : Port) : Bool := q.link ≠ 0
/-- The link is in L0 with flits flowing (R167, R174): not in training, lost or in Recovery. -/
def Port.inL0 (q : Port) : Bool := !q.inRec && (q.link = 2 || q.link = 3 || q.link = 5 || (q.link = 4 && q.hold ≠ 4 && q.hold ≠ 6))
/-- Eighths of a nanosecond that a flit takes (R164). -/
def Port.flitTime (q : Port) : Nat := (if q.rate = 2 then 65 else if q.rate = 1 then 130 else 260) * (if q.width = 4 then 2 else 1)
/-- The IDLE flits of one AO clock in which the hub has nothing else to send (R167). They are counted here; what they carry has gone out already (log 97). -/
def idleFlits (p : Nat) (s : State) : State :=
  let q := s.port p
  if q.inL0 then
    let t := q.flitT + 320
    monPort p 3 (t / q.flitTime) (s.updPort p (fun q => { q with flitT := t % q.flitTime }))
  else s
/-- What a port's monitors count in the 40 link clocks of one AO clock (R476, R478) and CAP_STALLS in its `n` core clocks (R346). -/
def portClock (n p : Nat) (s : State) : State :=
  let q := s.port p
  let cyc := if bit s.regs.monCtrl p && q.clocked then monPortWord p 0 40 s else s
  let held := match q.rxReq with | m :: _ => (q.link = 3 || q.link = 5) && (s.mode = 2 || s.mode = 3) && capHeld s p m | [] => false
  let s := if held then { monPort p 0x0D 40 cyc with regl.stalls := cntAdd cyc.regl.stalls (5 * p + (match q.rxReq with | m :: _ => (Hd.tc m.h).toNat | [] => 0)) n }
    else cyc
  let s := monPort p 0x0B (if waitsCls q 1 then 40 else 0) (s.updPort p (fun q => { q with replayFrom := none }))
  let s := monPort p 0x0C (if waitsCls q 3 then 40 else 0) s
  idleFlits p (monPort p 0x0E (if budgetHeld s p then 40 else 0) s)
/-- OPEN_SUM: every open transaction of every slice adds 1 per core clock, with its own attributes (R479). -/
def openSum (n : Nat) (s : State) : State :=
  (List.range 8).foldl (fun s sl => (s.slice sl).tt.foldl (fun s t =>
    if t.kind = .evict || t.kind = .recl then s else monSys 0x11 n t.attr s) s) s
/-- What the core domain counts in one AO clock. -/
def coreTick (s : State) : State :=
  let n := coreClocks s
  let s := (List.range s.nPorts).foldl (fun s p => portClock n p s) s
  let s := if bit s.regs.monCtrl 12 then
      let (v, o) := monAdd (NMap.get 0 s.regs.monS 0) n
      let t := { s with regs.monS := NMap.set 0 s.regs.monS 0 v }
      if o then monOvf (bit s.regs.monIeS 0) 12 0 t else t
    else s
  let s := (List.range 8).foldl (fun s sl => s.updSlice sl (fun h => { h with walkClk := 8 })) (openSum n s)
  { s with
    cycle := s.cycle + n, age.throttled := if s.ao.level = 0 then s.age.throttled else s.age.throttled + BitVec.ofNat 64 n
    rec_.rStall := if s.mode = 4 then s.rec_.rStall + n else s.rec_.rStall }
/-- AO clocks in an hour. -/
def hourTicks : Nat := 90000000000
/-- One AO clock in the AO domain (R308, R506). -/
def aoTick (s : State) : State :=
  let run := s.mode ≠ 0
  let full := run && decide (hourTicks ≤ s.ao.hourT + 1)
  let t := { s with ao.time := s.ao.time + 1, ao.hourT := if full then 0 else if run then s.ao.hourT + 1 else s.ao.hourT }
  if full then hoursTo (s.ao.hours.toNat + 1) t else t
/-- One AO clock with no command waiting (log 1). -/
def idleClock (s : State) : State :=
  if !s.ao.up then s else if s.off then aoTick s else mirror (coreTick (aoTick s))

end Sys2Proof.Machine
end

