-- ==== Sys2Proof/Machine/AgentRows.lean ====
section
/-! DEFINITION. The rows of Walkan messages, of far-memory completions and of the timers of transactions (06, 07, 08). -/
namespace Sys2Proof.Machine

/-- The message of a row: its header with the row's opcode, delivered at a port; ports are held idle in REPLAY mode (R449, R493). -/
def deliver (port : BitVec 4) (op : Nat) (h mask : Slot) (d : Line) (s : State) : State :=
  act s (if s.mode = 4 then s else message port.toNat (putBits h 0 8 op) mask d s)
/-- The message of a row that reads the directory set of its line, which shows the given entries in error (R362, R373). -/
def deliverDir (port : BitVec 4) (op : Nat) (h : DirMsg) (d : Line) (s : State) : State :=
  deliver port op h.hd 0 d (dirUpset (Hd.line h.hd) h.fault s)
/-- READ_SHARED (R194). -/
def execReadShared (port : BitVec 4) (h : Slot) (s : State) : Ans := .next (deliver port 0x10 h 0 0 s)
/-- READ_OWN (R194). -/
def execReadOwn (port : BitVec 4) (h : Slot) (s : State) : Ans := .next (deliver port 0x11 h 0 0 s)
/-- READ_ONCE (R194). -/
def execReadOnce (port : BitVec 4) (h : Slot) (s : State) : Ans := .next (deliver port 0x12 h 0 0 s)
/-- UPGRADE (R194). -/
def execUpgrade (port : BitVec 4) (h : Slot) (s : State) : Ans := .next (deliver port 0x13 h 0 0 s)
/-- WRITE_INV_FULL (R194, R267). -/
def execWriteInvFull (port : BitVec 4) (h : Slot) (s : State) : Ans := .next (deliver port 0x14 h 0 0 s)
/-- WRITE_INV_PARTIAL (R194, R259, R267). -/
def execWriteInvPartial (port : BitVec 4) (h : Slot) (s : State) : Ans := .next (deliver port 0x15 h 0 0 s)
/-- WRITE_STASH (R198). -/
def execWriteStash (port : BitVec 4) (h : Slot) (s : State) : Ans := .next (deliver port 0x16 h 0 0 s)
/-- READ_DEV (R199). -/
def execReadDev (port : BitVec 4) (h : Slot) (s : State) : Ans := .next (deliver port 0x17 h 0 0 s)
/-- WRITE_DEV (R199). -/
def execWriteDev (port : BitVec 4) (h : Slot) (s : State) : Ans := .next (deliver port 0x18 h 0 0 s)
/-- FENCE (R251). -/
def execFence (port : BitVec 4) (h : Slot) (s : State) : Ans := .next (deliver port 0x19 h 0 0 s)
/-- COMP_ACK (R191). -/
def execCompAck (port : BitVec 4) (h : Slot) (s : State) : Ans := .next (deliver port 0x61 h 0 0 s)
/-- RSP_I (R190). -/
def execRspI (port : BitVec 4) (h : Slot) (s : State) : Ans := .next (deliver port 0x62 h 0 0 s)
/-- RSP_S (R190). -/
def execRspS (port : BitVec 4) (h : Slot) (s : State) : Ans := .next (deliver port 0x63 h 0 0 s)
/-- RSP_FWD (R190). -/
def execRspFwd (port : BitVec 4) (h : Slot) (s : State) : Ans := .next (deliver port 0x64 h 0 0 s)
/-- EVICT_NOTE (R195). -/
def execEvictNote (port : BitVec 4) (h : DirMsg) (s : State) : Ans := .next (deliverDir port 0x65 h 0 s)
/-- STASH_DECLINE (R198). -/
def execStashDecline (port : BitVec 4) (h : Slot) (s : State) : Ans := .next (deliver port 0x66 h 0 0 s)
/-- STASH_ACCEPT (R198, R222). -/
def execStashAccept (port : BitVec 4) (h : Slot) (s : State) : Ans := .next (deliver port 0x6A h 0 0 s)
/-- SNP_SHARED (R235). -/
def execSnpShared (port : BitVec 4) (h : DirMsg) (s : State) : Ans := .next (deliverDir port 0x40 h 0 s)
/-- SNP_INV (R235). -/
def execSnpInv (port : BitVec 4) (h : DirMsg) (s : State) : Ans := .next (deliverDir port 0x41 h 0 s)
/-- SNP_FWD_SHARED (R235). -/
def execSnpFwdShared (port : BitVec 4) (h : DirMsg) (s : State) : Ans := .next (deliverDir port 0x42 h 0 s)
/-- SNP_FWD_OWN (R235). -/
def execSnpFwdOwn (port : BitVec 4) (h : DirMsg) (s : State) : Ans := .next (deliverDir port 0x43 h 0 s)
/-- STASH_OFFER (R235). -/
def execStashOffer (port : BitVec 4) (h : Slot) (s : State) : Ans := .next (deliver port 0x44 h 0 0 s)
/-- COMP (R234). -/
def execComp (port : BitVec 4) (h : Slot) (s : State) : Ans := .next (deliver port 0x60 h 0 0 s)
/-- FENCE_DONE (R237). -/
def execFenceDone (port : BitVec 4) (h : Slot) (s : State) : Ans := .next (deliver port 0x68 h 0 0 s)
/-- WR_PULL (R234). -/
def execWrPull (port : BitVec 4) (h : Slot) (s : State) : Ans := .next (deliver port 0x69 h 0 0 s)
/-- FROZEN_ABORT (R200). -/
def execFrozenAbort (port : BitVec 4) (h : Slot) (s : State) : Ans := .next (deliver port 0x67 h 0 0 s)
/-- SNP_DATA (R190, R194). -/
def execSnpData (port : BitVec 4) (h : Slot) (d : Line) (s : State) : Ans := .next (deliver port 0x88 h 0 d s)
/-- WB_DATA (R195, R219). -/
def execWbData (port : BitVec 4) (h : DirMsg) (d : Line) (s : State) : Ans := .next (deliverDir port 0x89 h d s)
/-- EVICT_OFFER (R88, R195). -/
def execEvictOffer (port : BitVec 4) (h : DirMsg) (d : Line) (s : State) : Ans := .next (deliverDir port 0x8A h d s)
/-- WR_DATA (R197). -/
def execWrData (port : BitVec 4) (h : Slot) (d : Line) (s : State) : Ans := .next (deliver port 0x8B h 0 d s)
/-- DATA_S (R234). -/
def execDataS (port : BitVec 4) (h : Slot) (d : Line) (s : State) : Ans := .next (deliver port 0x80 h 0 d s)
/-- DATA_F (R234). -/
def execDataF (port : BitVec 4) (h : Slot) (d : Line) (s : State) : Ans := .next (deliver port 0x81 h 0 d s)
/-- DATA_E (R234). -/
def execDataE (port : BitVec 4) (h : Slot) (d : Line) (s : State) : Ans := .next (deliver port 0x82 h 0 d s)
/-- DATA_M (R234). -/
def execDataM (port : BitVec 4) (h : Slot) (d : Line) (s : State) : Ans := .next (deliver port 0x83 h 0 d s)
/-- DATA_NC (R234). -/
def execDataNc (port : BitVec 4) (h : Slot) (d : Line) (s : State) : Ans := .next (deliver port 0x84 h 0 d s)
/-- WR_DATA_PTL (R185, R197). -/
def execWrDataPtl (port : BitVec 4) (h : Slot) (mask : Slot) (d : Line) (s : State) : Ans := .next (deliver port 0x8C h mask d s)

/-- A far completion that arrives after its timeout is discarded and counted (R210). -/
def farLate (id : Nat) (s : State) : State :=
  if s.links.late.contains id then cntErr 11 1 { s with links.late := s.links.late.erase id } else s
/-- FAR_READ_COMPLETION (R210, R368). -/
def execFarReadCompletion (id : Nat) (r : FarOut) (s : State) : Ans :=
  .next (act s (match if s.mode = 4 then none else s.links.reqs.find? (fun q => q.id = id && !q.write && !q.atIssue) with
    | some q => farEnd q (match r with | .data d p => .inr (d, p) | .error => .inl 0) s
    | none => farLate id s))
/-- FAR_WRITE_COMPLETION (R241, R369). -/
def execFarWriteCompletion (id : Nat) (ok : Bool) (s : State) : Ans :=
  .next (act s (match if s.mode = 4 then none else s.links.reqs.find? (fun q => q.id = id && q.write && !q.atIssue) with
    | some q => farEnd q (if ok then .inr (0, false) else .inl 0) s
    | none => farLate id s))
/-- FAR_TIMEOUT_EXPIRY (R210, R255): the port is DEAD and the request has failed. -/
def execFarTimeoutExpiry (id : Nat) (s : State) : Ans :=
  .next (act s (match if s.mode = 4 then none else s.links.reqs.find? (fun q => q.id = id && !q.atIssue) with
    | some q => farEnd q (.inl 1) (farDead q.port { s with links.late := s.links.late ++ [id] })
    | none => s))

/-- An answer of the port on the line is awaited under R208: a snoop's, a grant's CompAck, or write data. -/
def awaited (s : State) (p : Nat) (l : LineNo) : Bool :=
  (s.slice (homeSlice l)).tt.any (fun t => t.line = l &&
    ((t.ph = .snoops && t.snoops.any (fun x => x.1 = p)) || t.grant = some p || (t.pull && t.port = p)))
/-- SNP_TIMEOUT_EXPIRY (R208, R224, R333). -/
def execSnpTimeoutExpiry (port : BitVec 4) (line : LineNo) (s : State) : Ans :=
  .next (act s (if awaited s port.toNat line then loseAgent port.toNat s else s))
/-- STASH_OFFER_EXPIRY (R198): the offer has had no answer within 2 µs. -/
def execStashOfferExpiry (line : LineNo) (s : State) : Ans :=
  let sl := homeSlice line
  .next (clocked s (match (s.slice sl).tt.find? (fun t => t.line = line && t.offer) with
    | some t => kick sl (stashOver sl t s)
    | none => s))
/-- COMBINE_WINDOW_EXPIRY (R248). -/
def execCombineWindowExpiry (line : LineNo) (s : State) : Ans := .next (clocked s (closeCombines (fun b => b.line = line) s))

end Sys2Proof.Machine
end

