-- ==== Sys2Proof/Machine/CacheCmd.lean ====
section
/-! DEFINITION. System-cache commands (R90-R105, R525). -/
namespace Sys2Proof.Machine

/-- INVALIDATE_ALL (R91). -/
def execInvalidateAll (p : Packet) (s : State) : Ans :=
  .next (act s (cmd 0x20 [mY] 0 false p
    (fun s => [(p.rsv 0 0 true, St.invalid_param), (s.popK.isNone, St.population_invalid)])
    (walkCmd 0x20 p 0 0 0 true false) s))
/-- CACHE_ENABLE (R93). -/
def execCacheEnable (p : Packet) (s : State) : Ans :=
  .next (act s (cmd 0x21 [mY] 0 false p
    (fun s => [(p.rsv 0 0 true, St.invalid_param), (s.popK.isNone, St.population_invalid), (!s.cache.invDone, St.not_invalidated)])
    (fun s => complete p St.ok 0 (recompute (changeMode 3 2 { s with cache.enabled := true }))) s))
/-- CACHE_DISABLE (R94). -/
def execCacheDisable (p : Packet) (s : State) : Ans :=
  .next (act s (cmd 0x22 [mC] 0 false p (fun _ => [(p.rsv 0 0 true, St.invalid_param)])
    (fun s => walkCmd 0x22 p 0 s.nSets 0x3FFF true false { s with cache.disabling := true }) s))
/-- WAY_ENABLE (R95): the ways it turns off are walked in CACHED mode. -/
def execWayEnable (p : Packet) (s : State) : Ans :=
  let m := BitVec.ofNat 14 (p.par 0 2)
  .next (act s (cmd 0x23 [mY, mC] 0 false p
    (fun _ => [(p.rsv 2 0 true || decide (0x3FFF < p.par 0 2) || m = 0, St.invalid_param)])
    (fun s =>
      let off := s.cache.ways &&& ~~~m
      let s := kickAll { s with cache.ways := m }
      if s.mode = 3 && off ≠ 0 then walkCmd 0x23 p 0 s.nSets off true false s else complete p St.ok 0 s) s))

/-- Refusals of the range form (R97, R99): `recl` RECALL is refused, `inv` the command discards data. -/
def rangeChecks (inv : Bool) (p : Packet) (s : State) : List (Bool × BitVec 16) :=
  let l := p.par 0 5
  let n := p.par 8 5
  let c := s.cover (BitVec.ofNat 40 l)
  let e := (c.map (·.2)).getD 0
  [(p.rsv 16 3 true || decide (p.par 5 3 ≠ 0) || decide (p.par 13 3 ≠ 0) || n = 0 || (inv && p.flag 1) || (c.isSome && Rg.pol e = 3), St.invalid_param),
    (c.isNone, St.no_region), (decide (Rg.base e + Rg.size e < l + n), St.range_exceeds), (inv && Rg.dur e, St.durable_refused)]
/-- Refusals of the set/way form (R97, R100). -/
def setWayChecks (p : Packet) (s : State) : List (Bool × BitVec 16) :=
  [(p.rsv 18 1 true || decide (2 ^ 26 ≤ p.par 0 8) || decide (2 ^ 27 ≤ p.par 8 8) || decide (0x3FFF < p.par 16 2) || p.par 8 8 = 0 || p.par 16 2 = 0,
      St.invalid_param), (decide (s.nSets < p.par 0 8 + p.par 8 8), St.range_exceeds)]
/-- A maintenance command (R97-R102). -/
def maintain (op : Byte) (p : Packet) (s : State) : Ans :=
  .next (act s (cmd op [mY, mC] 0 false p
    (fun s => if p.flag 0 then setWayChecks p s else rangeChecks (decide (op = 0x25)) p s)
    (fun s =>
      if p.flag 0 then walkCmd op p (p.par 0 8) (p.par 8 8) (BitVec.ofNat 14 (p.par 16 2)) true false s
      else walkCmd op p (p.par 0 5) (p.par 8 5) 0x3FFF false (p.flag 1) s) s))
/-- CLEAN (R98). -/
def execClean (p : Packet) (s : State) : Ans := maintain 0x24 p s
/-- INVALIDATE (R98). -/
def execInvalidate (p : Packet) (s : State) : Ans := maintain 0x25 p s
/-- CLEAN_INVALIDATE (R98). -/
def execCleanInvalidate (p : Packet) (s : State) : Ans := maintain 0x26 p s

/-- The CACHE_QUERY result (R104). -/
def cacheResult (s : State) : Nat :=
  s.cache.dirty % 2 ^ 40 + s.cache.chans.toNat * 2 ^ 42 + (if s.cache.chans = 3 then 0 else b2n s.cache.dense) * 2 ^ 44 +
    b2n (s.cache.walks.any (fun k => !k.paused)) * 2 ^ 46 + b2n s.cache.disabling * 2 ^ 47 + b2n s.cache.invDone * 2 ^ 48 + b2n s.cache.enabled * 2 ^ 49 +
    s.cache.ways.toNat * 2 ^ 50
/-- CACHE_QUERY (R104). -/
def execCacheQuery (p : Packet) (s : State) : Ans :=
  .next (cmd 0x27 [mY, mC, mR, mD] 0 false p (fun _ => [(p.rsv 0 0 true, St.invalid_param)]) (fun s => complete p St.ok (cacheResult s) s) s)
/-- CACHE_READ_SET (R105): an uncorrectable tag block, or one whose FORMAT is another (R61), is written as read; where the cache is in use its set is lost (R371). -/
def execCacheReadSet (p : Packet) (s : State) : Ans :=
  let set := p.target.toNat
  let lost := fun (s : State) => completeBlock p (leBytes 128 (s.rowTb set).toNat) St.uncorrectable 0 (if s.cache.enabled then setLost set s else s)
  .next (cmd 0x28 [mY, mC] 0 false p
    (fun s => [(p.rsv 8 0 false || badBuf p.addr 128 128, St.invalid_param), (decide (s.nSets ≤ set), St.range_exceeds), (s.retired set, St.set_retired)])
    (fun s =>
      if (s.tbcOf set).valid then completeBlock p (leBytes 128 (s.curTb set).toNat) St.ok 0 s
      else match tbDecode (s.rowTb set) [] with
        | some (b, _) => if fmtOk b then completeBlock p (leBytes 128 b.toNat) St.ok 0 s else lost s
        | none => lost s) s)

end Sys2Proof.Machine
end

