-- ==== Sys2Proof/Machine/Reads.lean ====
section
/-! DEFINITION. Reads of BAR0 (R426-R442): every register, alias, guarded pair, doorbell and counter. -/
namespace Sys2Proof.Machine

/-- MON_OVF_SUMMARY (R477). -/
def ovfSummary (s : State) : BitVec 64 :=
  let ovf := fun (m : NMap (BitVec 64)) (k : Nat) => bit (NMap.get 0 m k) 63
  BitVec.ofNat 64 (((List.range 12).map (fun p => b2n ((List.range 5).any (fun i => ovf s.regs.monP (5 * p + i))) * 2 ^ p)).sum +
    2 ^ 12 * b2n ((List.range 9).any (ovf s.regs.monS)))
/-- The value of a primary register, zero at a reserved offset (R428, R436, R446, R447, R475, R477, R514). -/
def primRead (s : State) (off : Nat) : BitVec 64 :=
  if off = 0 then idWord s else if off = 0x08 then s.mode.setWidth 64 else if off = 0x10 then devStatus s
  else if off = 0x18 then s.keyState.setWidth 64 else if off = 0x30 then BitVec.ofNat 64 (s.budget + 2 ^ 32 * b2n s.locked)
  else if off = 0x48 then s.regs.guarMiss.setWidth 64 else if off = 0x108 then fifoStatus false s else if off = 0x110 then fifoStatus true s
  else if off = 0x1018 then ovfSummary s else if off = 0x2008 then thermStatus s else if off = 0x2010 then ageStatus s
  else if off = 0x7000 then BitVec.ofNat 64 (aoWord s) else if off = 0x7008 then s.ao.resetTime else if off = 0x7010 then s.ao.lost0
  else if off = 0x7018 then s.ao.lost1 else if off = 0x7020 then s.ao.time else if off = 0x7028 then s.ao.bootCount.setWidth 64
  else rwRead s off
/-- What a primary read clears: the RC fields of its register (R430). -/
def readClears (off : Nat) (s : State) : State :=
  if off = 0x10 then { s with regs.lockViol := false, regs.guardFail := false, regs.accessErr := false }
  else if off = 0x48 then { s with regs.guarMiss := 0 }
  else if off = 0x108 then fifoClear false s
  else if off = 0x110 then fifoClear true s
  else if off = 0x2008 then { s with ao.peak := s.ao.tj, ao.tripped := false }
  else s
/-- A guarded register's value (R436). -/
def guardedGet (s : State) (off : Nat) : BitVec 64 :=
  if off = 0x8000 then (if s.regs.zArm then 0xA55A else 0) else if off = 0x8008 then s.regs.snpTo.setWidth 64
  else if off = 0x8010 then s.regs.farTo.setWidth 64 else 0
/-- The hub's own index that a doorbell reads as (R409). -/
def doorbellGet (s : State) (off : Nat) : Nat :=
  if off < 0x40100 && off % 8 = 0 then
    (let q := s.qp ((off - 0x40000) / 16); if off % 16 = 0 then q.sqHead else q.cqTail)
  else if off = 0x40100 then s.cp.eqTail else 0
/-- A read anywhere in BAR0 (R409, R426-R432, R440-R443). -/
def barRead (off : Nat) (size : BitVec 4) (s : State) : State :=
  let bad := fun (s : State) => (badAccess s).put (.read 0)
  if 0x70000 ≤ off then (if 8 < size.toNat then bad s else s.put (.read 0))
  else if 0x60000 ≤ off then (if bad64 off size then bad s else if off = 0x60008 then evfRead false s else s.put (.read 0))
  else if 0x50000 ≤ off then counterRd (off - 0x50000) size s
  else if 0x40000 ≤ off then
    if !((size = 4 && off % 4 = 0) || (size = 8 && off % 8 = 0)) then bad s else s.put (.read (BitVec.ofNat 64 (doorbellGet s off)))
  else if 0x10000 ≤ off then
    (let a := off % 0x10000
     if bad64 off size then bad s else s.put (.read (if 0x8000 ≤ a && a < 0x9000 then 0 else primRead s a)))
  else if 0x8000 ≤ off && off < 0x9000 then
    (let s := dropPending s
     if bad64 off size then bad s
     else s.put (.read (if off < 0x8800 then guardedGet s off else if guardedReg (off - 0x800) then ~~~guardedGet s (off - 0x800) else 0)))
  else if bad64 off size then bad s
  else (readClears off s).put (.read (primRead s off))
/-- COUNTER_LOW_READ (R441, R442). The row carries any read of BAR0 that has no row of its own (log 117): one of another register, another window or
another length has the effect its offset and length give it. -/
def execCounterLowRead (r : BarRead) (s : State) : Ans :=
  .next (match r.off with
    | .bar0 o => ctl s (barRead o.toNat r.size s)
    | .bar2 o => ctl s (bar2Read o.toNat r.size s)
    | .header w => live s (s.put (.read (BitVec.ofNat 64 (leAt (configHeader s) (4 * w.toNat) 4))))
    | .cfg c => live s (s.put (.read (cfgRead s c))))
/-- COUNTER_HIGH_READ (R442): the latch after the low-half read of the same counter, otherwise the live bits. -/
def execCounterHighRead (off : BitVec 20) (s : State) : Ans :=
  .next (ctl s (counterRd (off.toNat % 0x10000 - off.toNat % 8 + 4) 4 s))

end Sys2Proof.Machine
end

