-- ==== Sys2Proof/Machine/Seq.lean ====
section
/-! DEFINITION. The policy sequencers: issue, guards, write timing, branches with their delay slot, events, faults, and the 64-bit instruction word (05). -/
namespace Sys2Proof.Machine

/-- The fields of an instruction word (R134). -/
structure IWord where
  op : Byte
  rd : BitVec 4
  ra : BitVec 4
  rb : BitVec 4
  gd : BitVec 4
  imm : SWord
deriving DecidableEq, Repr
/-- The instruction word of its fields (R134). -/
def IWord.word (i : IWord) : BitVec 64 := i.op ++ i.rd ++ i.ra ++ i.rb ++ i.gd ++ i.imm
/-- The fields of an instruction word (R134). -/
def iwordOf (w : BitVec 64) : IWord :=
  ⟨w.extractLsb' 56 8, w.extractLsb' 52 4, w.extractLsb' 48 4, w.extractLsb' 44 4, w.extractLsb' 40 4, w.extractLsb' 0 40⟩
/-- The word of a sequencer instruction (R134, R138), zeros in the fields its opcode does not use; none for any other command. -/
def seqEncode (i : Instr) : Option (BitVec 64) :=
  match i with
  | .nop _ g => some (IWord.word ⟨0x00, 0, 0, 0, g, 0⟩)
  | .add _ g d a b => some (IWord.word ⟨0x01, d, a, b, g, 0⟩)
  | .addi _ g d a m => some (IWord.word ⟨0x02, d, a, 0, g, m⟩)
  | .sub _ g d a b => some (IWord.word ⟨0x03, d, a, b, g, 0⟩)
  | .and _ g d a b => some (IWord.word ⟨0x04, d, a, b, g, 0⟩)
  | .andi _ g d a m => some (IWord.word ⟨0x05, d, a, 0, g, m⟩)
  | .or _ g d a b => some (IWord.word ⟨0x06, d, a, b, g, 0⟩)
  | .ori _ g d a m => some (IWord.word ⟨0x07, d, a, 0, g, m⟩)
  | .xor _ g d a b => some (IWord.word ⟨0x08, d, a, b, g, 0⟩)
  | .xori _ g d a m => some (IWord.word ⟨0x09, d, a, 0, g, m⟩)
  | .andn _ g d a b => some (IWord.word ⟨0x0A, d, a, b, g, 0⟩)
  | .shl _ g d a m => some (IWord.word ⟨0x0B, d, a, 0, g, m⟩)
  | .shr _ g d a m => some (IWord.word ⟨0x0C, d, a, 0, g, m⟩)
  | .shlv _ g d a b => some (IWord.word ⟨0x0D, d, a, b, g, 0⟩)
  | .shrv _ g d a b => some (IWord.word ⟨0x0E, d, a, b, g, 0⟩)
  | .movi _ g d m => some (IWord.word ⟨0x0F, d, 0, 0, g, m⟩)
  | .sel _ g d a b m => some (IWord.word ⟨0x10, d, a, b, g, m⟩)
  | .fnz _ g d a b => some (IWord.word ⟨0x11, d, a, b, g, 0⟩)
  | .lsb _ g d a => some (IWord.word ⟨0x12, d, a, 0, g, 0⟩)
  | .ffs _ g d a => some (IWord.word ⟨0x13, d, a, 0, g, 0⟩)
  | .popc _ g d a => some (IWord.word ⟨0x14, d, a, 0, g, 0⟩)
  | .mul _ g d a b => some (IWord.word ⟨0x15, d, a, b, g, 0⟩)
  | .cmpeq _ g d a b => some (IWord.word ⟨0x18, d, a, b, g, 0⟩)
  | .cmpltu _ g d a b => some (IWord.word ⟨0x19, d, a, b, g, 0⟩)
  | .cmpeqi _ g d a m => some (IWord.word ⟨0x1A, d, a, 0, g, m⟩)
  | .cmpltui _ g d a m => some (IWord.word ⟨0x1B, d, a, 0, g, m⟩)
  | .tstz _ g d a b => some (IWord.word ⟨0x1C, d, a, b, g, 0⟩)
  | .ld _ g d a m _ => some (IWord.word ⟨0x20, d, a, 0, g, m⟩)
  | .st _ g a b m => some (IWord.word ⟨0x21, 0, a, b, g, m⟩)
  | .sti _ g d a b m => some (IWord.word ⟨0x22, d, a, b, g, m⟩)
  | .iflush _ g => some (IWord.word ⟨0x23, 0, 0, 0, g, 0⟩)
  | .br _ g m => some (IWord.word ⟨0x30, 0, 0, 0, g, m⟩)
  | .jr _ g a => some (IWord.word ⟨0x31, 0, a, 0, g, 0⟩)
  | .jal _ g d m => some (IWord.word ⟨0x32, d, 0, 0, g, m⟩)
  | .done _ g a b m => some (IWord.word ⟨0x38, 0, a, b, g, m⟩)
  | .emit _ g a => some (IWord.word ⟨0x39, 0, a, 0, g, 0⟩)
  | _ => none
/-- The instruction a word spells on a slice's sequencer (R134, R138); none for an undefined opcode. A load is read without a parity error. -/
def seqDecode (sl : BitVec 3) (w : BitVec 64) : Option Instr :=
  let i := iwordOf w
  match i.op.toNat with
  | 0x00 => some (.nop sl i.gd)
  | 0x01 => some (.add sl i.gd i.rd i.ra i.rb)
  | 0x02 => some (.addi sl i.gd i.rd i.ra i.imm)
  | 0x03 => some (.sub sl i.gd i.rd i.ra i.rb)
  | 0x04 => some (.and sl i.gd i.rd i.ra i.rb)
  | 0x05 => some (.andi sl i.gd i.rd i.ra i.imm)
  | 0x06 => some (.or sl i.gd i.rd i.ra i.rb)
  | 0x07 => some (.ori sl i.gd i.rd i.ra i.imm)
  | 0x08 => some (.xor sl i.gd i.rd i.ra i.rb)
  | 0x09 => some (.xori sl i.gd i.rd i.ra i.imm)
  | 0x0A => some (.andn sl i.gd i.rd i.ra i.rb)
  | 0x0B => some (.shl sl i.gd i.rd i.ra i.imm)
  | 0x0C => some (.shr sl i.gd i.rd i.ra i.imm)
  | 0x0D => some (.shlv sl i.gd i.rd i.ra i.rb)
  | 0x0E => some (.shrv sl i.gd i.rd i.ra i.rb)
  | 0x0F => some (.movi sl i.gd i.rd i.imm)
  | 0x10 => some (.sel sl i.gd i.rd i.ra i.rb i.imm)
  | 0x11 => some (.fnz sl i.gd i.rd i.ra i.rb)
  | 0x12 => some (.lsb sl i.gd i.rd i.ra)
  | 0x13 => some (.ffs sl i.gd i.rd i.ra)
  | 0x14 => some (.popc sl i.gd i.rd i.ra)
  | 0x15 => some (.mul sl i.gd i.rd i.ra i.rb)
  | 0x18 => some (.cmpeq sl i.gd i.rd i.ra i.rb)
  | 0x19 => some (.cmpltu sl i.gd i.rd i.ra i.rb)
  | 0x1A => some (.cmpeqi sl i.gd i.rd i.ra i.imm)
  | 0x1B => some (.cmpltui sl i.gd i.rd i.ra i.imm)
  | 0x1C => some (.tstz sl i.gd i.rd i.ra i.rb)
  | 0x20 => some (.ld sl i.gd i.rd i.ra i.imm false)
  | 0x21 => some (.st sl i.gd i.ra i.rb i.imm)
  | 0x22 => some (.sti sl i.gd i.rd i.ra i.rb i.imm)
  | 0x23 => some (.iflush sl i.gd)
  | 0x30 => some (.br sl i.gd i.imm)
  | 0x31 => some (.jr sl i.gd i.ra)
  | 0x32 => some (.jal sl i.gd i.rd i.imm)
  | 0x38 => some (.done sl i.gd i.ra i.rb i.imm)
  | 0x39 => some (.emit sl i.gd i.ra)
  | _ => none

/-- A general register as read: g0 is zero (R132). -/
def Seq.rg (q : Seq) (r : BitVec 4) : SWord := if r = 0 then 0 else NMap.get 0 q.g r.toNat
/-- A predicate register (R132). -/
def Seq.pr (q : Seq) (r : Nat) : Bool := NMap.get false q.p (r % 4)
/-- One write lands (R136); writes to g0 are discarded (R132). -/
def landOne (q : Seq) (w : PendW) : Seq :=
  if w.pred then { q with p := NMap.set false q.p (w.idx.toNat % 4) (w.val ≠ 0) }
  else if w.idx = 0 then q else { q with g := NMap.set 0 q.g w.idx.toNat w.val }
/-- Every write due at or before the issue clock lands, in the order of its clock and of issue (R135, R136). -/
def Seq.land (q : Seq) : Seq :=
  (q.pend.filter (fun w => w.due ≤ q.clk)).foldl landOne { q with pend := q.pend.filter (fun w => !(w.due ≤ q.clk)) }
/-- A write joins those not landed, after every one of its clock or earlier. -/
def Seq.later (q : Seq) (w : PendW) : Seq :=
  { q with pend := q.pend.filter (fun v => v.due ≤ w.due) ++ w :: q.pend.filter (fun v => !(v.due ≤ w.due)) }
/-- The instruction limit of an event (R140). -/
def evLimit (e : SeqEv) : Nat := if e.kind = 4 then 65536 else 64
/-- The guard field {G, GN, GP} lets the instruction execute (R137). -/
def Seq.guard (q : Seq) (gd : BitVec 4) : Bool := !bit gd 3 || (q.pr (nbits gd 1 0) != bit gd 2)
/-- The aligned group of an address and its four words, as instruction memory then stands (R141, R142). -/
def Seq.fetch (q : Seq) (a : BitVec 11) : Option (BitVec 9 × List (BitVec 64)) :=
  some (a.extractLsb' 2 9, (List.range 4).map (fun k => NMap.get 0 q.imem (a.toNat / 4 * 4 + k)))
/-- The program counter moves: the buffer is fetched again only when the group changes or it is empty (R141). -/
def Seq.goto (q : Seq) (a : BitVec 11) : Seq :=
  let held := match q.fbuf with | some f => decide (f.1 = a.extractLsb' 2 9) | none => false
  { q with pc := a, fbuf := if held then q.fbuf else q.fetch a, fresh := !held }
/-- The word that issues next: the program counter's, as the fetch buffer holds it (R141, R142). -/
def Seq.word (q : Seq) : BitVec 64 := match q.fbuf with | some f => f.2.getD (q.pc.toNat % 4) 0 | none => NMap.get 0 q.imem q.pc.toNat
/-- The instruction a row names, as its word spells it: a load's parity error is no part of the word. -/
def asWord : Instr → Instr
  | .ld sl g d a m _ => .ld sl g d a m false
  | i => i
/-- The sequencer becomes free: P is the clock of the last instruction, writes not landed are discarded (R140, R146, R148). -/
def Seq.ended (q : Seq) : Seq := { q with run := none, pend := [], lastEnd := q.clk, target := none, slot := false, issued := 0, emits := 0, clk := q.clk + 1, fresh := false }
/-- What follows the end of an event for the load that waits on it. -/
def afterEvent (sl : Nat) (e : SeqEv) (ok : Bool) (s : State) : State := if e.kind = 4 then initEnd sl ok s else polWait s
/-- An event is aborted (R140): a victim event takes the fallback choice, REPL is not written. -/
def seqAbort (sl : Nat) (s : State) : State :=
  match (s.seq sl).run with
  | some e =>
    let s := s.updSeq sl Seq.ended
    afterEvent sl e false (if e.kind = 0 && !e.late then victimGive sl e none s else s)
  | none => s
/-- A fault (R140): counted; the first since the load posts POLICY_FAULT. -/
def seqFault (sl : Nat) (op : Nat) (s : State) : State :=
  let s := cntPol 10 1 s
  let s := if s.pol.faultSeen then s else
    postEvent 0x0506 [(0, sl), (2, (s.seq sl).pc.toNat), (4, op)] { s with pol.faultSeen := true }
  seqAbort sl s
/-- A parity error in a sequencer memory (R152): counted and logged. Both records that the spec lists for it are formed, SRAM_PARITY with store
code 10 (R375) and then SEQ_PARITY (R394) (DESIGN CHOICE, log 103). -/
def seqParity (sl addr : Nat) (dm : Bool) (s : State) : State :=
  logErr 0x0040 1 0 sl 0 addr (b2n dm) (logSram 10 0 sl addr (cntPol 11 1 s))

/-- The parts of an instruction that its issue needs: opcode, whether a delay slot may not hold it, whether it is a branch, its clocks. -/
structure IKind where
  op : Nat
  noSlot : Bool
  branch : Bool
  clocks : Nat
deriving DecidableEq, Repr
/-- An instruction without a place restriction. -/
def plain (op : Nat) : IKind := ⟨op, false, false, 1⟩

/-- With the default image in force, a DONE as an event's first row stands for that image's whole handler, whose words are open (log 6). -/
def standsIn (s : State) (n : Nat) (k : IKind) : Bool := defaultOn s && decide (k.op = 0x38) && decide ((s.seq n).issued = 0)
/-- Issue one instruction (R135-R137, R139, R141): due writes land, the guard is read, the effect happens, the program counter moves to the
branch target taken before the delay slot or to the next address. Nothing issues without a running event, past its limit (R140) or with
its clock gated (R338). A row is an instruction of the program: it issues where the fetched word spells it, a word with an undefined opcode is a
fault whatever the row, and a row that the word does not spell is no event of the hardware and changes nothing (R134, R138, R140, R149; log 59). An
instruction whose guard does not hold does not fault in a delay slot, and the instruction after a branch stands in its delay slot whether the
branch's guard held or not (DESIGN CHOICE, log 86). A word with an undefined opcode faults whether its guard holds or not (DESIGN CHOICE, log 101). -/
def issue (i : Instr) (sl : BitVec 3) (gd : BitVec 4) (k : IKind) (eff : State → State) (s : State) : State :=
  let n := sl.toNat
  match (s.seq n).run with
  | none => s
  | some e =>
    if s.sliceOff || evLimit e ≤ (s.seq n).issued then s
    else
      let before := s
      let own := standsIn s n k
      let w := (s.seq n).word
      let s := s.updSeq n Seq.land
      let q := s.seq n
      if !own && (seqDecode sl w).isNone then rowEnd before (seqFault n (nbits w 63 56) s)
      else if !own && seqDecode sl w ≠ some (asWord i) then before
      else if q.guard gd && k.noSlot && q.slot then rowEnd before (seqFault n k.op s)
      else
        let s := s.updSeq n (fun q => { q with issued := q.issued + 1, lastIssue := q.clk, fresh := false, target := none, slot := k.branch })
        let s := if q.guard gd then eff s else s
        if (s.seq n).run.isNone then rowEnd before s
        else s.updSeq n (fun r => { (r.goto (q.target.getD (q.pc + 1))) with clk := q.clk + (if q.guard gd then k.clocks else 1) })
/-- Write a general register, visible after n clocks (R135). -/
def wrG (sl : BitVec 3) (rd : BitVec 4) (n : Nat) (f : Seq → SWord) (s : State) : State :=
  s.updSeq sl.toNat (fun q => q.later ⟨false, rd, f q, q.clk + n⟩)
/-- Write the predicate RD[1:0] names, visible after one clock (R134, R138). -/
def wrP (sl : BitVec 3) (rd : BitVec 4) (f : Seq → Bool) (s : State) : State :=
  s.updSeq sl.toNat (fun q => q.later ⟨true, rd, if f q then 1 else 0, q.clk + 1⟩)
/-- A data address (R132). -/
def dAddr (q : Seq) (ra : BitVec 4) (imm : SWord) : Nat := (q.rg ra + imm).toNat % 8192
/-- A register instruction. -/
def alu (i : Instr) (sl : BitVec 3) (gd : BitVec 4) (op n : Nat) (rd : BitVec 4) (f : Seq → SWord) (s : State) : Ans :=
  .next (issue i sl gd (plain op) (wrG sl rd n f) s)
/-- A compare. -/
def cmpr (i : Instr) (sl : BitVec 3) (gd : BitVec 4) (op : Nat) (rd : BitVec 4) (f : Seq → Bool) (s : State) : Ans :=
  .next (issue i sl gd (plain op) (wrP sl rd f) s)
/-- A left shift by a count of six bits (R138). -/
def shiftL (a : SWord) (c : Nat) : SWord := if 40 ≤ c % 64 then 0 else a <<< (c % 64)
/-- A logical right shift by a count of six bits (R138). -/
def shiftR (a : SWord) (c : Nat) : SWord := if 40 ≤ c % 64 then 0 else a >>> (c % 64)
/-- Index of the lowest set bit; 40 for zero (R138). -/
def ffs (a : SWord) : SWord := BitVec.ofNat 40 ((lowBit 40 a.toNat).getD 40)
/-- Number of set bits (R138). -/
def popc (a : SWord) : SWord := BitVec.ofNat 40 ((List.range 40).filter (fun i => a.getLsbD i)).length

/-- NOP (R138). -/
def execNop (sl : BitVec 3) (gd : BitVec 4) (s : State) : Ans := .next (issue (.nop sl gd) sl gd (plain 0x00) (fun s => s) s)
/-- ADD (R138). -/
def execAdd (sl : BitVec 3) (gd rd ra rb : BitVec 4) (s : State) : Ans := alu (.add sl gd rd ra rb) sl gd 0x01 1 rd (fun q => q.rg ra + q.rg rb) s
/-- ADDI (R138). -/
def execAddi (sl : BitVec 3) (gd rd ra : BitVec 4) (imm : SWord) (s : State) : Ans := alu (.addi sl gd rd ra imm) sl gd 0x02 1 rd (fun q => q.rg ra + imm) s
/-- SUB (R138). -/
def execSub (sl : BitVec 3) (gd rd ra rb : BitVec 4) (s : State) : Ans := alu (.sub sl gd rd ra rb) sl gd 0x03 1 rd (fun q => q.rg ra - q.rg rb) s
/-- AND (R138). -/
def execAnd (sl : BitVec 3) (gd rd ra rb : BitVec 4) (s : State) : Ans := alu (.and sl gd rd ra rb) sl gd 0x04 1 rd (fun q => q.rg ra &&& q.rg rb) s
/-- ANDI (R138). -/
def execAndi (sl : BitVec 3) (gd rd ra : BitVec 4) (imm : SWord) (s : State) : Ans := alu (.andi sl gd rd ra imm) sl gd 0x05 1 rd (fun q => q.rg ra &&& imm) s
/-- OR (R138). -/
def execOr (sl : BitVec 3) (gd rd ra rb : BitVec 4) (s : State) : Ans := alu (.or sl gd rd ra rb) sl gd 0x06 1 rd (fun q => q.rg ra ||| q.rg rb) s
/-- ORI (R138). -/
def execOri (sl : BitVec 3) (gd rd ra : BitVec 4) (imm : SWord) (s : State) : Ans := alu (.ori sl gd rd ra imm) sl gd 0x07 1 rd (fun q => q.rg ra ||| imm) s
/-- XOR (R138). -/
def execXor (sl : BitVec 3) (gd rd ra rb : BitVec 4) (s : State) : Ans := alu (.xor sl gd rd ra rb) sl gd 0x08 1 rd (fun q => q.rg ra ^^^ q.rg rb) s
/-- XORI (R138). -/
def execXori (sl : BitVec 3) (gd rd ra : BitVec 4) (imm : SWord) (s : State) : Ans := alu (.xori sl gd rd ra imm) sl gd 0x09 1 rd (fun q => q.rg ra ^^^ imm) s
/-- ANDN (R138). -/
def execAndn (sl : BitVec 3) (gd rd ra rb : BitVec 4) (s : State) : Ans := alu (.andn sl gd rd ra rb) sl gd 0x0A 1 rd (fun q => q.rg ra &&& ~~~(q.rg rb)) s
/-- SHL (R138). -/
def execShl (sl : BitVec 3) (gd rd ra : BitVec 4) (imm : SWord) (s : State) : Ans := alu (.shl sl gd rd ra imm) sl gd 0x0B 1 rd (fun q => shiftL (q.rg ra) imm.toNat) s
/-- SHR (R138). -/
def execShr (sl : BitVec 3) (gd rd ra : BitVec 4) (imm : SWord) (s : State) : Ans := alu (.shr sl gd rd ra imm) sl gd 0x0C 1 rd (fun q => shiftR (q.rg ra) imm.toNat) s
/-- SHLV (R138). -/
def execShlv (sl : BitVec 3) (gd rd ra rb : BitVec 4) (s : State) : Ans := alu (.shlv sl gd rd ra rb) sl gd 0x0D 1 rd (fun q => shiftL (q.rg ra) (q.rg rb).toNat) s
/-- SHRV (R138). -/
def execShrv (sl : BitVec 3) (gd rd ra rb : BitVec 4) (s : State) : Ans := alu (.shrv sl gd rd ra rb) sl gd 0x0E 1 rd (fun q => shiftR (q.rg ra) (q.rg rb).toNat) s
/-- MOVI (R138). -/
def execMovi (sl : BitVec 3) (gd rd : BitVec 4) (imm : SWord) (s : State) : Ans := alu (.movi sl gd rd imm) sl gd 0x0F 1 rd (fun _ => imm) s
/-- SEL (R138). -/
def execSel (sl : BitVec 3) (gd rd ra rb : BitVec 4) (imm : SWord) (s : State) : Ans :=
  alu (.sel sl gd rd ra rb imm) sl gd 0x10 1 rd (fun q => if q.pr (nbits imm 1 0) then q.rg ra else q.rg rb) s
/-- FNZ (R138). -/
def execFnz (sl : BitVec 3) (gd rd ra rb : BitVec 4) (s : State) : Ans := alu (.fnz sl gd rd ra rb) sl gd 0x11 1 rd (fun q => if q.rg ra ≠ 0 then q.rg ra else q.rg rb) s
/-- LSB (R138). -/
def execLsb (sl : BitVec 3) (gd rd ra : BitVec 4) (s : State) : Ans := alu (.lsb sl gd rd ra) sl gd 0x12 1 rd (fun q => q.rg ra &&& -(q.rg ra)) s
/-- FFS (R138). -/
def execFfs (sl : BitVec 3) (gd rd ra : BitVec 4) (s : State) : Ans := alu (.ffs sl gd rd ra) sl gd 0x13 2 rd (fun q => ffs (q.rg ra)) s
/-- POPC (R138). -/
def execPopc (sl : BitVec 3) (gd rd ra : BitVec 4) (s : State) : Ans := alu (.popc sl gd rd ra) sl gd 0x14 2 rd (fun q => popc (q.rg ra)) s
/-- MUL (R138). -/
def execMul (sl : BitVec 3) (gd rd ra rb : BitVec 4) (s : State) : Ans := alu (.mul sl gd rd ra rb) sl gd 0x15 4 rd (fun q => q.rg ra * q.rg rb) s
/-- CMPEQ (R138). -/
def execCmpeq (sl : BitVec 3) (gd rd ra rb : BitVec 4) (s : State) : Ans := cmpr (.cmpeq sl gd rd ra rb) sl gd 0x18 rd (fun q => q.rg ra == q.rg rb) s
/-- CMPLTU (R138). -/
def execCmpltu (sl : BitVec 3) (gd rd ra rb : BitVec 4) (s : State) : Ans := cmpr (.cmpltu sl gd rd ra rb) sl gd 0x19 rd (fun q => (q.rg ra).ult (q.rg rb)) s
/-- CMPEQI (R138). -/
def execCmpeqi (sl : BitVec 3) (gd rd ra : BitVec 4) (imm : SWord) (s : State) : Ans := cmpr (.cmpeqi sl gd rd ra imm) sl gd 0x1A rd (fun q => q.rg ra == imm) s
/-- CMPLTUI (R138). -/
def execCmpltui (sl : BitVec 3) (gd rd ra : BitVec 4) (imm : SWord) (s : State) : Ans := cmpr (.cmpltui sl gd rd ra imm) sl gd 0x1B rd (fun q => (q.rg ra).ult imm) s
/-- TSTZ (R138). -/
def execTstz (sl : BitVec 3) (gd rd ra rb : BitVec 4) (s : State) : Ans := cmpr (.tstz sl gd rd ra rb) sl gd 0x1C rd (fun q => (q.rg ra &&& q.rg rb) == 0) s
/-- A data word's value in the image data; zero outside it (R152). -/
def imageWord (s : State) (a : Nat) : SWord := if a < 16 then 0 else s.pol.data.getD (a - 16) 0
/-- LD (R138): the word, visible after three clocks; a parity error aborts the event and repairs the word (R140, R152). -/
def execLd (sl : BitVec 3) (gd rd ra : BitVec 4) (imm : SWord) (perr : Bool) (s : State) : Ans :=
  .next (issue (.ld sl gd rd ra imm perr) sl gd (plain 0x20) (fun s =>
    let a := dAddr (s.seq sl.toNat) ra imm
    if perr then
      seqFault sl.toNat 0x20 (seqParity sl.toNat a true (s.updSeq sl.toNat (fun q => { q with dmem := NMap.set 0 q.dmem a (imageWord s a) })))
    else wrG sl rd 3 (fun q => NMap.get 0 q.dmem a) s) s)
/-- ST (R138). -/
def execSt (sl : BitVec 3) (gd ra rb : BitVec 4) (imm : SWord) (s : State) : Ans :=
  .next (issue (.st sl gd ra rb imm) sl gd (plain 0x21) (fun s => s.updSeq sl.toNat (fun q => { q with dmem := NMap.set 0 q.dmem (dAddr q ra imm) (q.rg rb) })) s)
/-- STI (R138, R142): the word's high half from rb and its low half from rd; the fetch buffer keeps what it holds. A group fetched at the clock of
the write holds the new word (DESIGN CHOICE, log 87). -/
def execSti (sl : BitVec 3) (gd rd ra rb : BitVec 4) (imm : SWord) (s : State) : Ans :=
  .next (issue (.sti sl gd rd ra rb imm) sl gd (plain 0x22) (fun s => s.updSeq sl.toNat (fun q => { q with
    imem := NMap.set 0 q.imem ((q.rg ra + imm).toNat % 2048) ((q.rg rb).setWidth 32 ++ (q.rg rd).setWidth 32) })) s)
/-- IFLUSH (R138, R142): the buffer is emptied, the next instruction issues four clocks later. -/
def execIflush (sl : BitVec 3) (gd : BitVec 4) (s : State) : Ans :=
  .next (issue (.iflush sl gd) sl gd ⟨0x23, true, false, 4⟩ (fun s => s.updSeq sl.toNat (fun q => { q with fbuf := none })) s)
/-- Take a branch after the delay slot (R139). -/
def branchTo (sl : BitVec 3) (f : Seq → SWord) (s : State) : State := s.updSeq sl.toNat (fun q => { q with target := some ((f q).setWidth 11) })
/-- BR (R139). -/
def execBr (sl : BitVec 3) (gd : BitVec 4) (imm : SWord) (s : State) : Ans := .next (issue (.br sl gd imm) sl gd ⟨0x30, true, true, 1⟩ (branchTo sl (fun _ => imm)) s)
/-- JR (R139). -/
def execJr (sl : BitVec 3) (gd ra : BitVec 4) (s : State) : Ans := .next (issue (.jr sl gd ra) sl gd ⟨0x31, true, true, 1⟩ (branchTo sl (fun q => q.rg ra)) s)
/-- JAL (R138, R139): the link is the instruction's own address plus 2. -/
def execJal (sl : BitVec 3) (gd rd : BitVec 4) (imm : SWord) (s : State) : Ans :=
  .next (issue (.jal sl gd rd imm) sl gd ⟨0x32, true, true, 1⟩ (fun s => branchTo sl (fun _ => imm) (wrG sl rd 1 (fun q => BitVec.ofNat 40 (q.pc.toNat + 2)) s)) s)

/-- REPL as the frame words REPL0 to REPL6 give it, REPL0 replaced where WR is set (R148). -/
def newRepl (q : Seq) (wr : Bool) (v : SWord) : BitVec 256 :=
  BitVec.ofNat 256 ((List.range 7).foldl (fun a i => a + (if i = 0 && wr then v else NMap.get 0 q.dmem (8 + i)).toNat <<< (40 * i)) 0)
/-- Write REPL into the tag-block cache entry of the event's set, if it is still there (R72, R148). -/
def putRepl (sl set : Nat) (r : BitVec 256) (s : State) : State :=
  s.updSlice sl (fun h => { h with tbc := NMap.upd TbcEnt.init h.tbc set (fun e =>
    if e.valid then { e with block := setRepl e.block r, replDirty := true } else e) })
/-- The result of a victim event at the clock after DONE (R148, R150): late, declined, bad or eligible. -/
def victimResult (sl : Nat) (e : SeqEv) (ra : SWord) (now : Nat) (s : State) : State :=
  let w := nbits ra 3 0
  if e.late then s
  else if e.d + 24 < now then victimFallback sl 5 e s
  else if bit ra 4 then victimFallback sl 7 e s
  else if 13 < w || !(eligBy s e.pmask e.set (e.fillKind = 2)).testBit w then victimFallback sl 6 e s
  else victimGive sl e (some w) s
/-- The default image's handler of an event, up to its DONE, as one effect (R113-R115, R156; log 6): a hit and a fill take its five instructions,
a victim choice reaches the slice at D + 10 to D + 16 where the sequencer was idle at D. -/
def defaultHandler (n : Nat) (e : SeqEv) (s : State) : State :=
  let q := s.seq n
  let repl : BitVec 13 := (NMap.get 0 q.dmem 8).setWidth 13
  let fr := NMap.get 0 q.dmem 3
  let w := defaultVictim repl (bits fr 27 14) (bits fr 13 0)
  let k := if e.kind = 0 then 7 + Config.defaultPolicyClocks w % 7 else if e.kind = 4 then 0 else 4
  let s := s.updSeq n (fun q => { q with clk := q.clk + k }.ended)
  let s := if e.kind = 4 then s else putRepl n e.set (defaultRepl e.kind.toNat e.fillKind.toNat e.way.toNat repl) s
  afterEvent n e true (if e.kind = 0 then victimResult n e (BitVec.ofNat 40 w) (q.clk + k + 1) s else s)
/-- DONE (R148): writes not visible yet are discarded, REPL is written, a victim event gives its way. Where the default image is in force and DONE
is the first instruction that the event issues, it stands for that image's whole handler, whose words are open (log 6). -/
def execDone (sl : BitVec 3) (gd ra rb : BitVec 4) (imm : SWord) (s : State) : Ans :=
  let n := sl.toNat
  .next (issue (.done sl gd ra rb imm) sl gd ⟨0x38, true, false, 1⟩ (fun s =>
    let q := s.seq n
    match q.run with
    | some e =>
      if defaultOn s && q.issued = 1 then defaultHandler n e s
      else
      let s := putRepl n e.set (newRepl q (bit imm 0) (q.rg rb)) (s.updSeq n Seq.ended)
      afterEvent n e true (if e.kind = 0 then victimResult n e (q.rg ra) (q.clk + 1) s else s)
    | none => s) s)
/-- EMIT (R143): a next-line candidate judged by the region of the missing line; beyond the fourth it is ignored and counted.
INIT has no missing line: its candidates are judged by the region that covers line 0 (DESIGN CHOICE, log 102). -/
def execEmit (sl : BitVec 3) (gd ra : BitVec 4) (s : State) : Ans :=
  let n := sl.toNat
  .next (issue (.emit sl gd ra) sl gd (plain 0x39) (fun s =>
    let q := s.seq n
    match q.run with
    | some e =>
      if 4 ≤ q.emits then cntPol 12 1 s
      else
        let l := q.rg ra
        (s.updSeq n (fun q => { q with emits := q.emits + 1 })).updSlice (homeSlice l) (fun h => { h with
          nl := h.nl ++ [(l, (match s.coverNew e.line with | some (i, _) => i | none => 1024), e.port.toNat, e.cls.setWidth 3)] })
    | none => s) s)

/-- The event frame (R147), words 0x0 to 0xF. -/
def frameWords (s : State) (e : SeqEv) (now : Nat) : List SWord :=
  if e.kind = 4 then List.replicate 16 0
  else
    let b := s.curTb e.set
    let mask := fun (i : Nat) => (List.range 14).foldl (fun a w => if bit (teOf b w) i then a + 2 ^ w else a) 0
    let valid := mask 13
    let el := if e.kind = 0 then eligBy s e.pmask e.set (e.fillKind = 2) else 0
    let ev := e.port.toNat * 2 ^ 18 + e.part.toNat * 2 ^ 14 + b2n e.write * 2 ^ 13 + e.kind.toNat * 2 ^ 10 +
      (if e.kind = 0 || e.kind = 2 then e.fillKind.toNat else 0) * 2 ^ 8 + e.cls.toNat * 2 ^ 6 + e.way.toNat
    ([ev, e.line.toNat, e.set, (el &&& (0x3FFF - valid)) * 2 ^ 14 + el, mask 12 * 2 ^ 14 + valid, mask 8 * 2 ^ 14 + mask 9, mask 10 * 2 ^ 14 + mask 11, now] ++
      (List.range 7).map (fun i => (replOf b).toNat >>> (40 * i)) ++ [0]).map (BitVec.ofNat 40)
/-- The next event a free sequencer starts (R144, R145): the oldest victim event, otherwise the oldest update event whose set is still on chip;
those before it are dropped. Whether a set is on chip is asked at the start alone: an event whose set's entry has left and come back runs, and one whose
entry is gone keeps its place till then (DESIGN CHOICE, log 131). While a load runs only INIT starts (R158). -/
def nextEvent (s : State) (sl : Nat) : Option SeqEv × List SeqEv × List SeqEv × Nat :=
  let q := s.seq sl
  match q.vq with
  | e :: rest => (some e, rest, q.uq, 0)
  | [] =>
    let here := fun (e : SeqEv) => e.kind = 4 || (s.tbcOf e.set).valid
    let gone := (q.uq.takeWhile (fun e => !here e)).length
    match q.uq.drop gone with
    | e :: rest => (some e, [], rest, gone)
    | [] => (none, [], [], gone)
/-- Parity errors in the fetch of the program counter's group of four words (R140, R141, R152): each word in error is logged and repaired from the
retained image, and the event is aborted. -/
def fetchParity (n : Nat) (bad : BitVec 4) (s : State) : State :=
  let q := s.seq n
  seqFault n (nbits q.word 63 56) (((List.range 4).filter (fun k => bit bad k)).foldl (fun s k =>
    let a := q.pc.toNat / 4 * 4 + k
    seqParity n a false (s.updSeq n (fun q => { q with imem := NMap.set 0 q.imem a (s.pol.code.getD a 0), fbuf := none }))) s)
/-- SEQ_EVENT_START (R144-R147): the frame at max(D, P) + 1, the first issue one clock later; `perr` marks the words
of the fetched group that fail parity (R152): of the event's first fetch, or, while an event runs, of the group its program counter has just
entered (log 59). -/
def execSeqEventStart (sl : BitVec 3) (perr : BitVec 4) (s : State) : Ans :=
  let n := sl.toNat
  .next (clocked s (if (s.seq n).run.isSome then
      (if perr ≠ 0 && (s.seq n).fresh then fetchParity n perr (s.updSeq n (fun q => { q with clk := q.lastIssue })) else s)
    else
      let (o, vq, uq, gone) := nextEvent s n
      let s := cntPol 8 gone s
      match o with
      | none => s.updSeq n (fun q => { q with vq := vq, uq := uq })
      | some e =>
        let f := max e.d (s.seq n).lastEnd + 1
        let fr := frameWords s e f
        let pc := (NMap.get 0 s.pol.entry e.kind.toNat).setWidth 11
        let s := cntPol e.kind.toNat 1 s
        let s := s.updSeq n (fun q =>
          let q := { q with
            vq := vq, uq := uq, run := some e, pend := [], target := none, slot := false, issued := 0, emits := 0, clk := f + 1, pc := pc
            g := if e.kind = 4 then q.g else [(1, fr.getD 0 0), (2, fr.getD 3 0), (3, fr.getD 8 0)].foldl (fun (g : NMap SWord) (p : Nat × SWord) => NMap.set 0 g p.1 p.2) q.g
            dmem := (List.range 16).foldl (fun m k => NMap.set 0 m k (fr.getD k 0)) q.dmem }
          { q with fbuf := q.fetch pc, fresh := false, lastIssue := f + 1 })
        if perr ≠ 0 then fetchParity n perr s else s))
/-- SEQ_WATCHDOG (R140): an event that has issued its limit without DONE is aborted. -/
def execSeqWatchdog (sl : BitVec 3) (s : State) : Ans :=
  let n := sl.toNat
  .next (clocked s (match (s.seq n).run with
    | some e => if evLimit e ≤ (s.seq n).issued then seqAbort n (cntPol 9 1 (s.updSeq n (fun q => { q with clk := q.lastIssue }))) else s
    | none => s))
/-- VICTIM_DEADLINE (R150): the oldest victim choice not yet given takes the fallback at D + 24; a queued event is removed, a running one goes on. -/
def execVictimDeadline (sl : BitVec 3) (s : State) : Ans :=
  let n := sl.toNat
  let q := s.seq n
  .next (clocked s (match q.run with
    | some e =>
      if e.kind = 0 && !e.late then victimFallback n 5 e (s.updSeq n (fun q => { q with run := some { e with late := true } }))
      else match q.vq with
        | v :: rest => victimFallback n 5 v (s.updSeq n (fun q => { q with vq := rest }))
        | [] => s
    | none => match q.vq with
      | v :: rest => victimFallback n 5 v (s.updSeq n (fun q => { q with vq := rest }))
      | [] => s))

end Sys2Proof.Machine
end

