-- ==== Sys2Proof/Machine/Dispatch.lean ====
section
/-! DEFINITION. One arm per command: the direct call of its meaning. -/
namespace Sys2Proof.Machine

def exec (i : Instr) (s : State) : Host.Outcome State Fault Refusal :=
  match i with
  | .identify p => Sys2Proof.Machine.execIdentify p s
  | .queueCreate p => Sys2Proof.Machine.execQueueCreate p s
  | .queueDelete p => Sys2Proof.Machine.execQueueDelete p s
  | .eventQueueSet p => Sys2Proof.Machine.execEventQueueSet p s
  | .modeSet p => Sys2Proof.Machine.execModeSet p s
  | .drain p => Sys2Proof.Machine.execDrain p s
  | .resume p => Sys2Proof.Machine.execResume p s
  | .drainQuery p => Sys2Proof.Machine.execDrainQuery p s
  | .warmReset p => Sys2Proof.Machine.execWarmReset p s
  | .resetRecordQuery p => Sys2Proof.Machine.execResetRecordQuery p s
  | .regionSet p => Sys2Proof.Machine.execRegionSet p s
  | .regionClear p => Sys2Proof.Machine.execRegionClear p s
  | .regionPerm p => Sys2Proof.Machine.execRegionPerm p s
  | .regionQuery p => Sys2Proof.Machine.execRegionQuery p s
  | .regionLookup p => Sys2Proof.Machine.execRegionLookup p s
  | .regionLock p => Sys2Proof.Machine.execRegionLock p s
  | .invalidateAll p => Sys2Proof.Machine.execInvalidateAll p s
  | .cacheEnable p => Sys2Proof.Machine.execCacheEnable p s
  | .cacheDisable p => Sys2Proof.Machine.execCacheDisable p s
  | .wayEnable p => Sys2Proof.Machine.execWayEnable p s
  | .clean p => Sys2Proof.Machine.execClean p s
  | .invalidate p => Sys2Proof.Machine.execInvalidate p s
  | .cleanInvalidate p => Sys2Proof.Machine.execCleanInvalidate p s
  | .cacheQuery p => Sys2Proof.Machine.execCacheQuery p s
  | .cacheReadSet p => Sys2Proof.Machine.execCacheReadSet p s
  | .partMapSet p => Sys2Proof.Machine.execPartMapSet p s
  | .partMaskSet p => Sys2Proof.Machine.execPartMaskSet p s
  | .partQuery p => Sys2Proof.Machine.execPartQuery p s
  | .prefetchSet p => Sys2Proof.Machine.execPrefetchSet p s
  | .prefetchQuery p => Sys2Proof.Machine.execPrefetchQuery p s
  | .policyLoad p => Sys2Proof.Machine.execPolicyLoad p s
  | .policyQuery p => Sys2Proof.Machine.execPolicyQuery p s
  | .policyDefault p => Sys2Proof.Machine.execPolicyDefault p s
  | .policyDataRead p => Sys2Proof.Machine.execPolicyDataRead p s
  | .policyDataWrite p => Sys2Proof.Machine.execPolicyDataWrite p s
  | .streamOpen p => Sys2Proof.Machine.execStreamOpen p s
  | .streamClose p => Sys2Proof.Machine.execStreamClose p s
  | .streamQuery p => Sys2Proof.Machine.execStreamQuery p s
  | .streamWriters p => Sys2Proof.Machine.execStreamWriters p s
  | .streamAckGap p => Sys2Proof.Machine.execStreamAckGap p s
  | .streamNotify p => Sys2Proof.Machine.execStreamNotify p s
  | .streamNotifyQuery p => Sys2Proof.Machine.execStreamNotifyQuery p s
  | .streamGlobalSet p => Sys2Proof.Machine.execStreamGlobalSet p s
  | .streamGlobalQuery p => Sys2Proof.Machine.execStreamGlobalQuery p s
  | .seal p => Sys2Proof.Machine.execSeal p s
  | .timeAnchor p => Sys2Proof.Machine.execTimeAnchor p s
  | .sealLogSet p => Sys2Proof.Machine.execSealLogSet p s
  | .sealLogAck p => Sys2Proof.Machine.execSealLogAck p s
  | .sealLogQuery p => Sys2Proof.Machine.execSealLogQuery p s
  | .keyGenIdentity p => Sys2Proof.Machine.execKeyGenIdentity p s
  | .keyGenSeal p => Sys2Proof.Machine.execKeyGenSeal p s
  | .keyQuery p => Sys2Proof.Machine.execKeyQuery p s
  | .keyZeroise p => Sys2Proof.Machine.execKeyZeroise p s
  | .authChallenge p => Sys2Proof.Machine.execAuthChallenge p s
  | .authResponse p => Sys2Proof.Machine.execAuthResponse p s
  | .authUserSet p => Sys2Proof.Machine.execAuthUserSet p s
  | .approvedMode p => Sys2Proof.Machine.execApprovedMode p s
  | .selfTest p => Sys2Proof.Machine.execSelfTest p s
  | .regGuarSet p => Sys2Proof.Machine.execRegGuarSet p s
  | .regCapSet p => Sys2Proof.Machine.execRegCapSet p s
  | .regFarPlan p => Sys2Proof.Machine.execRegFarPlan p s
  | .regParamSet p => Sys2Proof.Machine.execRegParamSet p s
  | .regQuery p => Sys2Proof.Machine.execRegQuery p s
  | .regCapacityQuery p => Sys2Proof.Machine.execRegCapacityQuery p s
  | .errLogRead p => Sys2Proof.Machine.execErrLogRead p s
  | .errLogAck p => Sys2Proof.Machine.execErrLogAck p s
  | .errMirrorSet p => Sys2Proof.Machine.execErrMirrorSet p s
  | .errQuery p => Sys2Proof.Machine.execErrQuery p s
  | .retireSet p => Sys2Proof.Machine.execRetireSet p s
  | .retireBank p => Sys2Proof.Machine.execRetireBank p s
  | .retireClear p => Sys2Proof.Machine.execRetireClear p s
  | .retireQuery p => Sys2Proof.Machine.execRetireQuery p s
  | .scrubSet p => Sys2Proof.Machine.execScrubSet p s
  | .farRecover p => Sys2Proof.Machine.execFarRecover p s
  | .freezeQuery p => Sys2Proof.Machine.execFreezeQuery p s
  | .errInject p => Sys2Proof.Machine.execErrInject p s
  | .monPortSet p => Sys2Proof.Machine.execMonPortSet p s
  | .monSysSet p => Sys2Proof.Machine.execMonSysSet p s
  | .monQuery p => Sys2Proof.Machine.execMonQuery p s
  | .recConfig p => Sys2Proof.Machine.execRecConfig p s
  | .recStart p => Sys2Proof.Machine.execRecStart p s
  | .recStop p => Sys2Proof.Machine.execRecStop p s
  | .recQuery p => Sys2Proof.Machine.execRecQuery p s
  | .replayStart p => Sys2Proof.Machine.execReplayStart p s
  | .replayStop p => Sys2Proof.Machine.execReplayStop p s
  | .replayQuery p => Sys2Proof.Machine.execReplayQuery p s
  | .ageingMeasure p => Sys2Proof.Machine.execAgeingMeasure p s
  | .ageingQuery p => Sys2Proof.Machine.execAgeingQuery p s
  | .thermalQuery p => Sys2Proof.Machine.execThermalQuery p s
  | .fwDownload p => Sys2Proof.Machine.execFwDownload p s
  | .fwCommit p => Sys2Proof.Machine.execFwCommit p s
  | .fwActivate p => Sys2Proof.Machine.execFwActivate p s
  | .fwQuery p => Sys2Proof.Machine.execFwQuery p s
  | .customerKeySet p => Sys2Proof.Machine.execCustomerKeySet p s
  | .configWrite p => Sys2Proof.Machine.execConfigWrite p s
  | .configQuery p => Sys2Proof.Machine.execConfigQuery p s
  | .portConfig p => Sys2Proof.Machine.execPortConfig p s
  | .portReset p => Sys2Proof.Machine.execPortReset p s
  | .portQuery p => Sys2Proof.Machine.execPortQuery p s
  | .nop sl gd => Sys2Proof.Machine.execNop sl gd s
  | .add sl gd rd ra rb => Sys2Proof.Machine.execAdd sl gd rd ra rb s
  | .addi sl gd rd ra imm => Sys2Proof.Machine.execAddi sl gd rd ra imm s
  | .sub sl gd rd ra rb => Sys2Proof.Machine.execSub sl gd rd ra rb s
  | .and sl gd rd ra rb => Sys2Proof.Machine.execAnd sl gd rd ra rb s
  | .andi sl gd rd ra imm => Sys2Proof.Machine.execAndi sl gd rd ra imm s
  | .or sl gd rd ra rb => Sys2Proof.Machine.execOr sl gd rd ra rb s
  | .ori sl gd rd ra imm => Sys2Proof.Machine.execOri sl gd rd ra imm s
  | .xor sl gd rd ra rb => Sys2Proof.Machine.execXor sl gd rd ra rb s
  | .xori sl gd rd ra imm => Sys2Proof.Machine.execXori sl gd rd ra imm s
  | .andn sl gd rd ra rb => Sys2Proof.Machine.execAndn sl gd rd ra rb s
  | .shl sl gd rd ra imm => Sys2Proof.Machine.execShl sl gd rd ra imm s
  | .shr sl gd rd ra imm => Sys2Proof.Machine.execShr sl gd rd ra imm s
  | .shlv sl gd rd ra rb => Sys2Proof.Machine.execShlv sl gd rd ra rb s
  | .shrv sl gd rd ra rb => Sys2Proof.Machine.execShrv sl gd rd ra rb s
  | .movi sl gd rd imm => Sys2Proof.Machine.execMovi sl gd rd imm s
  | .sel sl gd rd ra rb imm => Sys2Proof.Machine.execSel sl gd rd ra rb imm s
  | .fnz sl gd rd ra rb => Sys2Proof.Machine.execFnz sl gd rd ra rb s
  | .lsb sl gd rd ra => Sys2Proof.Machine.execLsb sl gd rd ra s
  | .ffs sl gd rd ra => Sys2Proof.Machine.execFfs sl gd rd ra s
  | .popc sl gd rd ra => Sys2Proof.Machine.execPopc sl gd rd ra s
  | .mul sl gd rd ra rb => Sys2Proof.Machine.execMul sl gd rd ra rb s
  | .cmpeq sl gd rd ra rb => Sys2Proof.Machine.execCmpeq sl gd rd ra rb s
  | .cmpltu sl gd rd ra rb => Sys2Proof.Machine.execCmpltu sl gd rd ra rb s
  | .cmpeqi sl gd rd ra imm => Sys2Proof.Machine.execCmpeqi sl gd rd ra imm s
  | .cmpltui sl gd rd ra imm => Sys2Proof.Machine.execCmpltui sl gd rd ra imm s
  | .tstz sl gd rd ra rb => Sys2Proof.Machine.execTstz sl gd rd ra rb s
  | .ld sl gd rd ra imm perr => Sys2Proof.Machine.execLd sl gd rd ra imm perr s
  | .st sl gd ra rb imm => Sys2Proof.Machine.execSt sl gd ra rb imm s
  | .sti sl gd rd ra rb imm => Sys2Proof.Machine.execSti sl gd rd ra rb imm s
  | .iflush sl gd => Sys2Proof.Machine.execIflush sl gd s
  | .br sl gd imm => Sys2Proof.Machine.execBr sl gd imm s
  | .jr sl gd ra => Sys2Proof.Machine.execJr sl gd ra s
  | .jal sl gd rd imm => Sys2Proof.Machine.execJal sl gd rd imm s
  | .done sl gd ra rb imm => Sys2Proof.Machine.execDone sl gd ra rb imm s
  | .emit sl gd ra => Sys2Proof.Machine.execEmit sl gd ra s
  | .seqEventStart sl perr => Sys2Proof.Machine.execSeqEventStart sl perr s
  | .seqWatchdog sl => Sys2Proof.Machine.execSeqWatchdog sl s
  | .victimDeadline sl => Sys2Proof.Machine.execVictimDeadline sl s
  | .readShared port h => Sys2Proof.Machine.execReadShared port h s
  | .readOwn port h => Sys2Proof.Machine.execReadOwn port h s
  | .readOnce port h => Sys2Proof.Machine.execReadOnce port h s
  | .upgrade port h => Sys2Proof.Machine.execUpgrade port h s
  | .writeInvFull port h => Sys2Proof.Machine.execWriteInvFull port h s
  | .writeInvPartial port h => Sys2Proof.Machine.execWriteInvPartial port h s
  | .writeStash port h => Sys2Proof.Machine.execWriteStash port h s
  | .readDev port h => Sys2Proof.Machine.execReadDev port h s
  | .writeDev port h => Sys2Proof.Machine.execWriteDev port h s
  | .fence port h => Sys2Proof.Machine.execFence port h s
  | .compAck port h => Sys2Proof.Machine.execCompAck port h s
  | .rspI port h => Sys2Proof.Machine.execRspI port h s
  | .rspS port h => Sys2Proof.Machine.execRspS port h s
  | .rspFwd port h => Sys2Proof.Machine.execRspFwd port h s
  | .evictNote port h => Sys2Proof.Machine.execEvictNote port h s
  | .stashDecline port h => Sys2Proof.Machine.execStashDecline port h s
  | .stashAccept port h => Sys2Proof.Machine.execStashAccept port h s
  | .snpData port h d => Sys2Proof.Machine.execSnpData port h d s
  | .wbData port h d => Sys2Proof.Machine.execWbData port h d s
  | .evictOffer port h d => Sys2Proof.Machine.execEvictOffer port h d s
  | .wrData port h d => Sys2Proof.Machine.execWrData port h d s
  | .wrDataPtl port h mask d => Sys2Proof.Machine.execWrDataPtl port h mask d s
  | .lInitParam port h => Sys2Proof.Machine.execLInitParam port h s
  | .lInitAck port h => Sys2Proof.Machine.execLInitAck port h s
  | .lRetryReq port h => Sys2Proof.Machine.execLRetryReq port h s
  | .snpShared port h => Sys2Proof.Machine.execSnpShared port h s
  | .snpInv port h => Sys2Proof.Machine.execSnpInv port h s
  | .snpFwdShared port h => Sys2Proof.Machine.execSnpFwdShared port h s
  | .snpFwdOwn port h => Sys2Proof.Machine.execSnpFwdOwn port h s
  | .stashOffer port h => Sys2Proof.Machine.execStashOffer port h s
  | .dataS port h d => Sys2Proof.Machine.execDataS port h d s
  | .dataF port h d => Sys2Proof.Machine.execDataF port h d s
  | .dataE port h d => Sys2Proof.Machine.execDataE port h d s
  | .dataM port h d => Sys2Proof.Machine.execDataM port h d s
  | .dataNc port h d => Sys2Proof.Machine.execDataNc port h d s
  | .comp port h => Sys2Proof.Machine.execComp port h s
  | .fenceDone port h => Sys2Proof.Machine.execFenceDone port h s
  | .wrPull port h => Sys2Proof.Machine.execWrPull port h s
  | .frozenAbort port h => Sys2Proof.Machine.execFrozenAbort port h s
  | .flitReceived port f => Sys2Proof.Machine.execFlitReceived port f s
  | .lretryReqRepeat port => Sys2Proof.Machine.execLretryReqRepeat port s
  | .ackTimeout port => Sys2Proof.Machine.execAckTimeout port s
  | .phyRecoveryEnd port up => Sys2Proof.Machine.execPhyRecoveryEnd port up s
  | .portL0Reached port rate width => Sys2Proof.Machine.execPortL0Reached port rate width s
  | .lInitParamResend port => Sys2Proof.Machine.execLInitParamResend port s
  | .initTimeout port => Sys2Proof.Machine.execInitTimeout port s
  | .initRetry port => Sys2Proof.Machine.execInitRetry port s
  | .sliceLookup sl f => Sys2Proof.Machine.execSliceLookup sl f s
  | .lineQueueResume sl line => Sys2Proof.Machine.execLineQueueResume sl line s
  | .setQueueResume sl => Sys2Proof.Machine.execSetQueueResume sl s
  | .mcDataReturn id e => Sys2Proof.Machine.execMcDataReturn id e s
  | .mcWriteAccept id => Sys2Proof.Machine.execMcWriteAccept id s
  | .farReadCompletion id r => Sys2Proof.Machine.execFarReadCompletion id r s
  | .farWriteCompletion id ok => Sys2Proof.Machine.execFarWriteCompletion id ok s
  | .snpTimeoutExpiry port line => Sys2Proof.Machine.execSnpTimeoutExpiry port line s
  | .farTimeoutExpiry id => Sys2Proof.Machine.execFarTimeoutExpiry id s
  | .stashOfferExpiry line => Sys2Proof.Machine.execStashOfferExpiry line s
  | .combineWindowExpiry line => Sys2Proof.Machine.execCombineWindowExpiry line s
  | .sideBufferAgeTick => Sys2Proof.Machine.execSideBufferAgeTick s
  | .nextLineCandidate sl => Sys2Proof.Machine.execNextLineCandidate sl s
  | .streamCandidateIssue port => Sys2Proof.Machine.execStreamCandidateIssue port s
  | .maintenanceWalkLine sl e => Sys2Proof.Machine.execMaintenanceWalkLine sl e s
  | .directoryWalkSet sl => Sys2Proof.Machine.execDirectoryWalkSet sl s
  | .patrolVisit set te le => Sys2Proof.Machine.execPatrolVisit set te le s
  | .dirRecallCandidate sl => Sys2Proof.Machine.execDirRecallCandidate sl s
  | .setLostScanEnd set e => Sys2Proof.Machine.execSetLostScanEnd set e s
  | .hashLine stream far e => Sys2Proof.Machine.execHashLine stream far e s
  | .holeTimeout stream => Sys2Proof.Machine.execHoleTimeout stream s
  | .sealRecordForm stream => Sys2Proof.Machine.execSealRecordForm stream s
  | .sealSignatureDone => Sys2Proof.Machine.execSealSignatureDone s
  | .sealSlotWriteDone idx ok => Sys2Proof.Machine.execSealSlotWriteDone idx ok s
  | .creditReturn port k => Sys2Proof.Machine.execCreditReturn port k s
  | .guarSample => Sys2Proof.Machine.execGuarSample s
  | .guarWindowEnd => Sys2Proof.Machine.execGuarWindowEnd s
  | .pfwNFall => Sys2Proof.Machine.execPfwNFall s
  | .pfwNRise => Sys2Proof.Machine.execPfwNRise s
  | .drainQuiesceEnd => Sys2Proof.Machine.execDrainQuiesceEnd s
  | .drainRecordsForm => Sys2Proof.Machine.execDrainRecordsForm s
  | .drainManifest => Sys2Proof.Machine.execDrainManifest s
  | .drainExtraClean e => Sys2Proof.Machine.execDrainExtraClean e s
  | .gpfPhase1Request => Sys2Proof.Machine.execGpfPhase1Request s
  | .gpfPhase1Timeout => Sys2Proof.Machine.execGpfPhase1Timeout s
  | .gpfPhase1Response fp ok => Sys2Proof.Machine.execGpfPhase1Response fp ok s
  | .gpfPhase2Request => Sys2Proof.Machine.execGpfPhase2Request s
  | .gpfPhase2Response fp ok => Sys2Proof.Machine.execGpfPhase2Response fp ok s
  | .gpfPhase2Timeout fp => Sys2Proof.Machine.execGpfPhase2Timeout fp s
  | .drainDone => Sys2Proof.Machine.execDrainDone s
  | .thermalSample temps => Sys2Proof.Machine.execThermalSample temps s
  | .thermalLevelFall => Sys2Proof.Machine.execThermalLevelFall s
  | .criticalLimit => Sys2Proof.Machine.execCriticalLimit s
  | .operatingHoursMark => Sys2Proof.Machine.execOperatingHoursMark s
  | .hoursWrite => Sys2Proof.Machine.execHoursWrite s
  | .measurementCycleEnd m => Sys2Proof.Machine.execMeasurementCycleEnd m s
  | .coreBinSwitch => Sys2Proof.Machine.execCoreBinSwitch s
  | .vidStep => Sys2Proof.Machine.execVidStep s
  | .channelRetrain ch eye => Sys2Proof.Machine.execChannelRetrain ch eye s
  | .aoVote u => Sys2Proof.Machine.execAoVote u s
  | .resetMirror => Sys2Proof.Machine.execResetMirror s
  | .managementWatchdog => Sys2Proof.Machine.execManagementWatchdog s
  | .resetNAssert => Sys2Proof.Machine.execResetNAssert s
  | .resetNDeassert => Sys2Proof.Machine.execResetNDeassert s
  | .vddAoPowerUp => Sys2Proof.Machine.execVddAoPowerUp s
  | .vddAoLoss => Sys2Proof.Machine.execVddAoLoss s
  | .firmwareStart romOk identOk sealOk kat => Sys2Proof.Machine.execFirmwareStart romOk identOk sealOk kat s
  | .channelTrainingEnd trained dense rate => Sys2Proof.Machine.execChannelTrainingEnd trained dense rate s
  | .memoryActive fp cap gpf dur dirty => Sys2Proof.Machine.execMemoryActive fp cap gpf dur dirty s
  | .memoryActiveTimeout fp => Sys2Proof.Machine.execMemoryActiveTimeout fp s
  | .bootExit => Sys2Proof.Machine.execBootExit s
  | .warmResetReboot => Sys2Proof.Machine.execWarmResetReboot s
  | .flashOperationDone ok => Sys2Proof.Machine.execFlashOperationDone ok s
  | .perstN => Sys2Proof.Machine.execPerstN s
  | .flr => Sys2Proof.Machine.execFlr s
  | .busMasterEnable on => Sys2Proof.Machine.execBusMasterEnable on s
  | .d3hotEntry => Sys2Proof.Machine.execD3hotEntry s
  | .d3hotExit => Sys2Proof.Machine.execD3hotExit s
  | .msixUnmask e => Sys2Proof.Machine.execMsixUnmask e s
  | .sqTailDoorbell n v => Sys2Proof.Machine.execSqTailDoorbell n v s
  | .cqHeadDoorbell n v => Sys2Proof.Machine.execCqHeadDoorbell n v s
  | .eventQueueHeadDoorbell v => Sys2Proof.Machine.execEventQueueHeadDoorbell v s
  | .sqEntryFetch n e ok => Sys2Proof.Machine.execSqEntryFetch n e ok s
  | .completionWrite n ok => Sys2Proof.Machine.execCompletionWrite n ok s
  | .eventQueueWrite w => Sys2Proof.Machine.execEventQueueWrite w s
  | .qp0Create => Sys2Proof.Machine.execQp0Create s
  | .qp0Delete => Sys2Proof.Machine.execQp0Delete s
  | .guardedPrimaryWrite off v size => Sys2Proof.Machine.execGuardedPrimaryWrite off v size s
  | .guardedPartnerWrite off v size => Sys2Proof.Machine.execGuardedPartnerWrite off v size s
  | .guardTimeout => Sys2Proof.Machine.execGuardTimeout s
  | .zeroiseArmExpiry => Sys2Proof.Machine.execZeroiseArmExpiry s
  | .aliasSetWrite off v size => Sys2Proof.Machine.execAliasSetWrite off v size s
  | .aliasClearWrite off v size => Sys2Proof.Machine.execAliasClearWrite off v size s
  | .aliasToggleWrite off v size => Sys2Proof.Machine.execAliasToggleWrite off v size s
  | .registerWrite off v size => Sys2Proof.Machine.execRegisterWrite off v size s
  | .devStatusRead viaAlias => Sys2Proof.Machine.execDevStatusRead viaAlias s
  | .guarMissRead viaAlias => Sys2Proof.Machine.execGuarMissRead viaAlias s
  | .hmfStatusRead viaAlias => Sys2Proof.Machine.execHmfStatusRead viaAlias s
  | .evfStatusRead viaAlias => Sys2Proof.Machine.execEvfStatusRead viaAlias s
  | .thermStatusRead viaAlias => Sys2Proof.Machine.execThermStatusRead viaAlias s
  | .counterWrite off v size => Sys2Proof.Machine.execCounterWrite off v size s
  | .counterLowRead r => Sys2Proof.Machine.execCounterLowRead r s
  | .counterHighRead off => Sys2Proof.Machine.execCounterHighRead off s
  | .hmfWrite v => Sys2Proof.Machine.execHmfWrite v s
  | .hmfWordTake perr => Sys2Proof.Machine.execHmfWordTake perr s
  | .evfRead perr => Sys2Proof.Machine.execEvfRead perr s
  | .bmcBlockRead code => Sys2Proof.Machine.execBmcBlockRead code s
  | .tapInstruction ins => Sys2Proof.Machine.execTapInstruction ins s
  | .recT0Reached => Sys2Proof.Machine.execRecT0Reached s
  | .recQuiesceTimeout => Sys2Proof.Machine.execRecQuiesceTimeout s
  | .recSpillWrite ok perr => Sys2Proof.Machine.execRecSpillWrite ok perr s
  | .replayCycle rec ok => Sys2Proof.Machine.execReplayCycle rec ok s
  | .farLinkStateChange fp link rate width => Sys2Proof.Machine.execFarLinkStateChange fp link rate width s
  | .widthFailed port => Sys2Proof.Machine.execWidthFailed port s
  | .refreshRateChange ch mult => Sys2Proof.Machine.execRefreshRateChange ch mult s
  | .continuousHealthTestFail test => Sys2Proof.Machine.execContinuousHealthTestFail test s

end Sys2Proof.Machine
end

