-- ==== Sys2Proof/Safety.lean ====
section
/-! DEFINITION. What counts as a safe run, when a command packet runs to its own effect, and the settings that only their own commands change. -/
namespace Sys2Proof

/-- The machine can go on from `s`: its next step is neither a fault nor a refusal. -/
def Safe (s : Machine.State) : Prop := ∃ t, Machine.step s = .next t

/-- The machine can go on for `n` steps from `s`. -/
def SafeFor : Nat → Machine.State → Prop
  | 0, _ => True
  | n + 1, s => ∃ t, Machine.step s = .next t ∧ SafeFor n t

end Sys2Proof

namespace Sys2Proof.Machine

/-- Opcode, modes, role (1 either, 2 the crypto officer), host reads and packet of every command that arrives as a packet, as the command
tables give them (R37, R96, R126, R157, R292, R319, R344, R360, R396, R416, R465, R497, R515). -/
def commandRow (c : Instr) : Option (Byte × List (BitVec 3) × Nat × Bool × Packet) :=
  match c with
  | .identify p => some (0x00, [mB, mY, mC, mR, mD], 0, false, p)
  | .queueCreate p => some (0x01, [mB, mY, mC, mR, mD], 0, false, p)
  | .queueDelete p => some (0x02, [mB, mY, mC, mR, mD], 0, false, p)
  | .eventQueueSet p => some (0x03, [mB, mY, mC, mR, mD], 0, false, p)
  | .modeSet p => some (0x05, [mB, mY, mC], 2, false, p)
  | .drain p => some (0x06, [mY, mC, mR], 1, false, p)
  | .resume p => some (0x07, [mD], 1, false, p)
  | .drainQuery p => some (0x08, [mY, mC, mR, mD], 0, false, p)
  | .warmReset p => some (0x09, [mY, mC], 2, false, p)
  | .resetRecordQuery p => some (0x0A, [mB, mY, mC, mR, mD], 2, false, p)
  | .regionSet p => some (0x10, [mY, mC], 0, false, p)
  | .regionClear p => some (0x11, [mY, mC], 0, false, p)
  | .regionPerm p => some (0x12, [mY, mC], 0, false, p)
  | .regionQuery p => some (0x13, [mY, mC], 0, false, p)
  | .regionLookup p => some (0x14, [mY, mC], 0, false, p)
  | .regionLock p => some (0x15, [mY, mC], 0, false, p)
  | .invalidateAll p => some (0x20, [mY], 0, false, p)
  | .cacheEnable p => some (0x21, [mY], 0, false, p)
  | .cacheDisable p => some (0x22, [mC], 0, false, p)
  | .wayEnable p => some (0x23, [mY, mC], 0, false, p)
  | .clean p => some (0x24, [mY, mC], 0, false, p)
  | .invalidate p => some (0x25, [mY, mC], 0, false, p)
  | .cleanInvalidate p => some (0x26, [mY, mC], 0, false, p)
  | .cacheQuery p => some (0x27, [mY, mC, mR, mD], 0, false, p)
  | .cacheReadSet p => some (0x28, [mY, mC], 0, false, p)
  | .partMapSet p => some (0x30, [mY, mC], 0, false, p)
  | .partMaskSet p => some (0x31, [mY, mC], 0, false, p)
  | .partQuery p => some (0x32, [mY, mC, mR, mD], 0, false, p)
  | .prefetchSet p => some (0x33, [mY, mC], 0, false, p)
  | .prefetchQuery p => some (0x34, [mY, mC, mR, mD], 0, false, p)
  | .policyLoad p => some (0x35, [mY, mC], 2, true, p)
  | .policyQuery p => some (0x36, [mY, mC, mR, mD], 0, false, p)
  | .policyDefault p => some (0x37, [mY, mC], 0, false, p)
  | .policyDataRead p => some (0x38, [mY, mC, mR], 0, false, p)
  | .policyDataWrite p => some (0x39, [mY, mC], 0, true, p)
  | .streamOpen p => some (0x40, [mY, mC], 1, false, p)
  | .streamClose p => some (0x41, [mY, mC], 1, false, p)
  | .streamQuery p => some (0x42, [mY, mC, mR, mD], 1, false, p)
  | .streamWriters p => some (0x43, [mY, mC], 1, false, p)
  | .streamAckGap p => some (0x44, [mY, mC], 1, false, p)
  | .streamNotify p => some (0x45, [mY, mC], 1, false, p)
  | .streamNotifyQuery p => some (0x46, [mY, mC, mR, mD], 1, false, p)
  | .streamGlobalSet p => some (0x47, [mY, mC], 1, false, p)
  | .streamGlobalQuery p => some (0x48, [mY, mC, mR, mD], 1, false, p)
  | .seal p => some (0x50, [mY, mC], 1, false, p)
  | .timeAnchor p => some (0x51, [mY, mC], 1, false, p)
  | .sealLogSet p => some (0x52, [mY, mC], 1, false, p)
  | .sealLogAck p => some (0x53, [mY, mC, mD], 1, false, p)
  | .sealLogQuery p => some (0x54, [mY, mC, mR, mD], 1, false, p)
  | .keyGenIdentity p => some (0x55, [mY], 2, false, p)
  | .keyGenSeal p => some (0x56, [mY, mC], 2, false, p)
  | .keyQuery p => some (0x57, [mB, mY, mC, mD], 1, false, p)
  | .keyZeroise p => some (0x58, [mY, mC], 2, false, p)
  | .authChallenge p => some (0x59, [mB, mY, mC], 0, false, p)
  | .authResponse p => some (0x5A, [mB, mY, mC], 0, true, p)
  | .authUserSet p => some (0x5B, [mY, mC], 2, true, p)
  | .approvedMode p => some (0x5C, [mY], 0, false, p)
  | .selfTest p => some (0x5D, [mY, mC], 1, false, p)
  | .regGuarSet p => some (0x60, [mY, mC], 0, false, p)
  | .regCapSet p => some (0x61, [mY, mC], 0, false, p)
  | .regFarPlan p => some (0x62, [mY, mC], 0, false, p)
  | .regParamSet p => some (0x63, [mY, mC], 0, false, p)
  | .regQuery p => some (0x64, [mY, mC, mR, mD], 0, false, p)
  | .regCapacityQuery p => some (0x65, [mY, mC, mR, mD], 0, false, p)
  | .errLogRead p => some (0x70, [mY, mC, mR, mD], 0, false, p)
  | .errLogAck p => some (0x71, [mY, mC, mR, mD], 0, false, p)
  | .errMirrorSet p => some (0x72, [mY, mC], 0, false, p)
  | .errQuery p => some (0x73, [mY, mC, mR, mD], 0, false, p)
  | .retireSet p => some (0x74, [mY, mC], 0, false, p)
  | .retireBank p => some (0x75, [mY, mC], 0, false, p)
  | .retireClear p => some (0x76, [mY], 0, false, p)
  | .retireQuery p => some (0x77, [mY, mC, mR, mD], 0, false, p)
  | .scrubSet p => some (0x78, [mY, mC], 0, false, p)
  | .farRecover p => some (0x79, [mY, mC], 0, false, p)
  | .freezeQuery p => some (0x7A, [mY, mC, mR, mD], 0, false, p)
  | .errInject p => some (0x7B, [mY, mC], 0, false, p)
  | .monPortSet p => some (0x80, [mY, mC, mR], 0, false, p)
  | .monSysSet p => some (0x81, [mY, mC, mR], 0, false, p)
  | .monQuery p => some (0x82, [mY, mC, mR, mD], 0, false, p)
  | .recConfig p => some (0x83, [mY, mC], 0, false, p)
  | .recStart p => some (0x84, [mY, mC], 0, false, p)
  | .recStop p => some (0x85, [mY, mC, mD], 0, false, p)
  | .recQuery p => some (0x86, [mY, mC, mR, mD], 0, false, p)
  | .replayStart p => some (0x87, [mY], 0, false, p)
  | .replayStop p => some (0x88, [mR], 0, false, p)
  | .replayQuery p => some (0x89, [mY, mC, mR, mD], 0, false, p)
  | .ageingMeasure p => some (0x8A, [mY, mC], 0, false, p)
  | .ageingQuery p => some (0x8B, [mB, mY, mC, mR, mD], 0, false, p)
  | .thermalQuery p => some (0x8C, [mB, mY, mC, mR, mD], 0, false, p)
  | .fwDownload p => some (0x90, [mB, mY, mC], 2, true, p)
  | .fwCommit p => some (0x91, [mB, mY, mC], 2, false, p)
  | .fwActivate p => some (0x92, [mB, mY, mC], 2, false, p)
  | .fwQuery p => some (0x93, [mB, mY, mC, mR, mD], 0, false, p)
  | .customerKeySet p => some (0x94, [mB, mY], 2, true, p)
  | .configWrite p => some (0x95, [mB, mY], 2, true, p)
  | .configQuery p => some (0x96, [mB, mY, mC, mR, mD], 0, false, p)
  | .portConfig p => some (0xA0, [mY, mC], 0, false, p)
  | .portReset p => some (0xA1, [mY, mC], 0, false, p)
  | .portQuery p => some (0xA2, [mY, mC, mR, mD], 0, false, p)
  | _ => none
/-- A command packet passes the gates before its own operand checks: commands are taken and this one is or comes next (R410), nothing orders it behind
another (R411), the mode is
one of its own and recovery accepts it (R416, R456), and its role is established (R319). -/
def ready (c : Instr) (s : State) : Bool :=
  match commandRow c with
  | some (op, modes, auth, reads, p) => !(s.deaf || !s.canTake op p) && !blocked op reads p s && !modeBad op modes s && !authBad auth s
  | none => false
/-- The state a command acts on once it has passed its checks: it has left the entries that wait or its SQ (R410, R411), and a change of the slices'
configuration stands in a running recording (R484). -/
def began (op : Byte) (p : Packet) (s : State) : State :=
  if ctrlOps.contains op then capCtrl (p.entry op) (startTaken op p s) else startTaken op p s
/-- A command packet that has passed its gates runs to its effect when none of its checks fails, and otherwise completes with the status of
the first that does, with no other effect (R411, R416); `settled`: what follows at once then happens. -/
def RunsTo (settled : Bool) (c : Instr) (op : Byte) (p : Packet) (s : State) (checks : List (Bool × BitVec 16)) (effect : State → State) : Prop :=
  ready c s = true →
    (firstFail checks = none → exec c s = .next (if settled then rowEnd s (effect (began op p s)) else effect (began op p s))) ∧
    (∀ st, firstFail checks = some st →
      exec c s = .next (if settled then rowEnd s (complete p st 0 (startTaken op p s)) else complete p st 0 (startTaken op p s)))

/-- Slice, guard field and issue conditions of every sequencer instruction (R134, R138-R142). -/
def seqRow (c : Instr) : Option (BitVec 3 × BitVec 4 × IKind) :=
  match c with
  | .nop sl gd => some (sl, gd, plain 0x00)
  | .add sl gd _ _ _ => some (sl, gd, plain 0x01)
  | .addi sl gd _ _ _ => some (sl, gd, plain 0x02)
  | .sub sl gd _ _ _ => some (sl, gd, plain 0x03)
  | .and sl gd _ _ _ => some (sl, gd, plain 0x04)
  | .andi sl gd _ _ _ => some (sl, gd, plain 0x05)
  | .or sl gd _ _ _ => some (sl, gd, plain 0x06)
  | .ori sl gd _ _ _ => some (sl, gd, plain 0x07)
  | .xor sl gd _ _ _ => some (sl, gd, plain 0x08)
  | .xori sl gd _ _ _ => some (sl, gd, plain 0x09)
  | .andn sl gd _ _ _ => some (sl, gd, plain 0x0A)
  | .shl sl gd _ _ _ => some (sl, gd, plain 0x0B)
  | .shr sl gd _ _ _ => some (sl, gd, plain 0x0C)
  | .shlv sl gd _ _ _ => some (sl, gd, plain 0x0D)
  | .shrv sl gd _ _ _ => some (sl, gd, plain 0x0E)
  | .movi sl gd _ _ => some (sl, gd, plain 0x0F)
  | .sel sl gd _ _ _ _ => some (sl, gd, plain 0x10)
  | .fnz sl gd _ _ _ => some (sl, gd, plain 0x11)
  | .lsb sl gd _ _ => some (sl, gd, plain 0x12)
  | .ffs sl gd _ _ => some (sl, gd, plain 0x13)
  | .popc sl gd _ _ => some (sl, gd, plain 0x14)
  | .mul sl gd _ _ _ => some (sl, gd, plain 0x15)
  | .cmpeq sl gd _ _ _ => some (sl, gd, plain 0x18)
  | .cmpltu sl gd _ _ _ => some (sl, gd, plain 0x19)
  | .cmpeqi sl gd _ _ _ => some (sl, gd, plain 0x1A)
  | .cmpltui sl gd _ _ _ => some (sl, gd, plain 0x1B)
  | .tstz sl gd _ _ _ => some (sl, gd, plain 0x1C)
  | .ld sl gd _ _ _ _ => some (sl, gd, plain 0x20)
  | .st sl gd _ _ _ => some (sl, gd, plain 0x21)
  | .sti sl gd _ _ _ _ => some (sl, gd, plain 0x22)
  | .iflush sl gd => some (sl, gd, ⟨0x23, true, false, 4⟩)
  | .br sl gd _ => some (sl, gd, ⟨0x30, true, true, 1⟩)
  | .jr sl gd _ => some (sl, gd, ⟨0x31, true, true, 1⟩)
  | .jal sl gd _ _ => some (sl, gd, ⟨0x32, true, true, 1⟩)
  | .done sl gd _ _ _ => some (sl, gd, ⟨0x38, true, false, 1⟩)
  | .emit sl gd _ => some (sl, gd, plain 0x39)
  | _ => none
/-- The sequencer of a slice issues an instruction with a guard field that holds (R134, R137, R140, R141): an event runs below its limit, and the
word that the fetch buffer holds for the program counter spells it. -/
def Issues (i : Instr) (sl : BitVec 3) (gd : BitVec 4) (s : State) : Prop :=
  s.sliceOff = false ∧ (∃ e, (s.seq sl.toNat).run = some e ∧ (s.seq sl.toNat).issued < evLimit e) ∧ (s.seq sl.toNat).land.guard gd = true ∧
    seqDecode sl (s.seq sl.toNat).word = some i
/-- The sequencer after an instruction of `n` clocks with effect `f` (R135, R136, R139, R141): due writes have landed, the instruction counts,
and the program counter goes to the branch target taken before a delay slot, or to the next address. -/
def seqStep (branch : Bool) (n : Nat) (f : Seq → Seq) (q : Seq) : Seq :=
  { (f { q.land with issued := q.land.issued + 1, lastIssue := q.land.clk, fresh := false, target := none, slot := branch }).goto (q.land.target.getD (q.land.pc + 1)) with clk := q.land.clk + n }
/-- A register result that lands after `k` clocks (R135). -/
def later (rd : BitVec 4) (k : Nat) (v : Seq → SWord) (q : Seq) : Seq := q.later ⟨false, rd, v q, q.clk + k⟩
/-- A predicate result, landing after one clock (R134, R138). -/
def laterP (rd : BitVec 4) (v : Seq → Bool) (q : Seq) : Seq := q.later ⟨true, rd, if v q then 1 else 0, q.clk + 1⟩

/-- An RSP or DAT message of an agent that stands no check against it (R180, R181, R201): the port is open, its credits are there, its fields are
sound, and no DAT message waits before it or for a line. -/
def answerSound (p : Nat) (h : Slot) (s : State) : Bool :=
  !s.off && decide (s.mode ≠ 4) && decide (p < s.nPorts) && (s.port p).open_ && decide (Hd.len (Hd.op h) ≤ NMap.get 0 (s.port p).rxCr (Hd.cls (Hd.op h))) &&
    !answerBad s p h && (decide (Hd.cls (Hd.op h) ≠ 3) || ((s.port p).rxDat.isEmpty && !datWaits s p h)) &&
    !(s.port p).rxDat.any (fun m => Hd.line m.h = Hd.line h)
/-- The state in which such a message takes its effect: its credits have come and gone back (R178), it has been counted, and it stands in a
running recording (R484). -/
def answerIn (p : Nat) (h mask : Slot) (d : Line) (s : State) : State :=
  let c := Hd.cls (Hd.op h)
  let n := Hd.len (Hd.op h)
  capAns p h mask d (credit p c n (arriveBytes h (monPort p (if c = 3 then 9 else 8) 1 (spend p c n s).1)))
/-- A message of a hub peer that stands no check against it (R180, R186, R201, R232) and stands behind no held one (R181, R215). -/
def hubSound (p : Nat) (h : Slot) (s : State) : Bool :=
  !s.off && decide (s.mode ≠ 4) && decide (p < s.nPorts) && (s.port p).open_ && decide (Hd.len (Hd.op h) ≤ NMap.get 0 (s.port p).rxCr (Hd.cls (Hd.op h))) &&
    (if Hd.cls (Hd.op h) = 1 then !snoopBad s p h else decide ((s.port p).cfg.peerHub = 1) && !hubBad s p h && !wrongSide s p h && !behind s p h)
/-- The state in which such a message takes its effect. -/
def hubIn (p : Nat) (h : Slot) (d : Line) (s : State) : State :=
  let c := Hd.cls (Hd.op h)
  let n := Hd.len (Hd.op h)
  let t := (spend p c n s).1
  if c = 1 then credit p c n t else capMsg p h 0 d (credit p c n (monPort p (if c = 3 then 9 else 8) 1 t))

/-- The settings that a limit of the spec bounds, and the queue. -/
structure Settings where
  /-- the queue -/
  pending : List Instr
  /-- SCRUB_HOURS (R377) -/
  scrub : Nat
  /-- CE_ROW_LIMIT (R380) -/
  ceLimit : Nat
  /-- CH_UE_LIMIT (R381) -/
  ueLimit : Nat
  /-- HOLE_TIMEOUT in µs (R293) -/
  holeTo : Nat
  /-- ADMIT (R360) -/
  admitPct : Nat
  /-- MARGIN (R360) -/
  margin : Nat
  /-- WINDOW in ms (R360) -/
  window : Nat
  /-- CAP of each pair that is not 1,024 (R349) -/
  cap : NMap Nat

/-- What only the commands and registers made for it change: the settings, key area and roles, the lock, KEY_STATE, FREEZE_MASK,
DURABLE_BUDGET, PFW_CONFIG, the guarded registers, ways, partitions, the test access port and the time anchor. -/
structure Kept where
  /-- settings and queue -/
  base : Settings
  /-- keys and roles (10) -/
  keys : Keys
  /-- REGION_LOCK (R43) -/
  lock : Trip 1
  /-- KEY_STATE (R315) -/
  key : Trip 3
  /-- FREEZE_MASK (R385) -/
  freeze : Trip 5
  /-- DURABLE_BUDGET (R283) -/
  budget : Trip 13
  /-- PFW_CONFIG (R325) -/
  pfw : Trip 64
  /-- ZEROISE_ARM (R317) -/
  zArm : Bool
  /-- SNP_TIMEOUT (R436) -/
  snpTo : BitVec 14
  /-- FAR_TIMEOUT (R436) -/
  farTo : BitVec 20
  /-- ways in use (R95) -/
  ways : BitVec 14
  /-- partition way masks (R128) -/
  pmask : NMap (BitVec 14)
  /-- partition map (R127) -/
  map : NMap (BitVec 4)
  /-- test access port instruction (R523) -/
  tap : BitVec 3
  /-- time anchor (R309) -/
  anchor : BitVec 64

/-- The part of a state that `Kept` names. -/
def State.kept (s : State) : Kept :=
  ⟨⟨s.pending, s.err.scrub, s.err.ceLimit, s.err.ueLimit, s.str.holeTo, s.regl.admitPct, s.regl.margin, s.regl.window, s.regl.cap⟩, s.keys, s.trip.lock, s.trip.key,
    s.trip.freeze, s.trip.budget, s.trip.pfw, s.regs.zArm, s.regs.snpTo, s.regs.farTo, s.cache.ways, s.cache.pmask, s.cache.map, s.ao.tap, s.ao.anchor⟩

/-- The settings lie in the ranges their commands accept (R293, R349, R360, R377, R380, R381). -/
abbrev Settings.inRange (b : Settings) : Prop :=
  b.scrub ≤ 168 ∧ 1 ≤ b.ceLimit ∧ 1 ≤ b.ueLimit ∧ 10 ≤ b.holeTo ∧ b.holeTo ≤ 1000000 ∧ 50 ≤ b.admitPct ∧ b.admitPct ≤ 100 ∧
    16 ≤ b.margin ∧ b.margin ≤ 64 ∧ 1 ≤ b.window ∧ b.window ≤ 1000 ∧ ∀ e ∈ b.cap, e.2 ≤ 1024

/-- The commands made to change something of `Kept`, or that reset the control path or more. -/
def changesKept : Instr → Bool
  | .perstN | .flr | .d3hotExit | .guardedPartnerWrite .. | .zeroiseArmExpiry | .aliasSetWrite .. | .aliasClearWrite .. | .aliasToggleWrite ..
  | .registerWrite .. | .regionLock .. | .wayEnable .. | .partMapSet .. | .partMaskSet .. | .scrubSet .. | .regCapSet .. | .regParamSet ..
  | .streamGlobalSet .. | .timeAnchor .. | .keyGenIdentity .. | .keyGenSeal .. | .keyZeroise .. | .authChallenge .. | .authResponse ..
  | .authUserSet .. | .approvedMode .. | .selfTest .. | .continuousHealthTestFail .. | .replayStart .. | .replayStop .. | .replayCycle ..
  | .pfwNFall | .drain .. | .aoVote .. | .thermalSample .. | .resetNAssert | .resetNDeassert | .vddAoPowerUp | .vddAoLoss | .firmwareStart ..
  | .warmResetReboot | .flashOperationDone .. | .customerKeySet .. | .tapInstruction .. => true
  | _ => false
/-- Sequencer instructions that touch nothing but their own sequencer: all but DONE and EMIT, outside a delay slot where they may not stand in
one, and with no parity error in what they load. -/
def ownSequencer (c : Instr) (s : State) : Bool :=
  match c, seqRow c with
  | .ld _ _ _ _ _ true, _ => false
  | _, some (sl, _, k) => k.op ≠ 0x38 && k.op ≠ 0x39 && (!k.noSlot || !(s.seq sl.toNat).slot) && (seqDecode sl (s.seq sl.toNat).word).isSome
  | _, none => false
/-- Queries that change nothing but what the control port gives back. -/
def isQuery : Instr → Bool
  | .identify .. | .drainQuery .. | .resetRecordQuery .. | .regionQuery .. | .regionLookup .. | .cacheQuery .. | .partQuery .. | .streamQuery ..
  | .sealLogQuery .. | .keyQuery .. | .regCapacityQuery .. | .errLogRead .. | .retireQuery .. | .freezeQuery .. | .monQuery .. | .recQuery .. | .replayQuery ..
  | .ageingQuery .. | .thermalQuery .. | .fwQuery .. | .configQuery .. => true
  | _ => false
/-- RESET_N and power: the events that clear the lock (R24). -/
def isReset : Instr → Bool
  | .resetNAssert | .vddAoPowerUp | .vddAoLoss => true
  | _ => false

end Sys2Proof.Machine
end

