-- ==== Sys2Proof/Certificates/Slice0/Obligations.lean ====
section
/-! DEFINITION. The statements about the model, for the provers. Rules are those of spec/; a number after 'log' is a row of the assumption log.
A packet command's next state is written over `began`, the state once it has left the entries that wait; `rowEnd` lets everything that
follows at once happen and puts the events of the row in the order of R419. -/
open Sys2Proof Sys2Proof.Machine

/-! ### The machine -/

/-- The step of this block: with a command at the front of the queue, a step is that command's effect with the queue's rest. -/
def Obligations.StepRunsTheFrontCommand : Prop :=
  ∀ (c : Instr) (cs : List Instr) (s : State), step { s with pending := c :: cs } = exec c { s with pending := cs }

/-- On an empty queue one AO clock passes; DEVICE_TIME counts while the AO block is powered (R308). The model's choice of the idle step is log 1. -/
def Obligations.IdleStepCountsDeviceTime : Prop :=
  ∀ s : State, s.pending = [] → ∃ t, step s = .next t ∧ t.pending = [] ∧
    t.ao.time = (if s.ao.up then s.ao.time + 1 else s.ao.time)

/-- No command stops the machine or touches the queue of waiting commands, in any state: what waits is taken by the step alone. -/
def Obligations.CommandsAnswerAndLeaveTheQueueAlone : Prop := ∀ (c : Instr) (s : State), ∃ t, exec c s = .next t ∧ t.pending = s.pending

/-- Every step keeps the bounded settings in the ranges their commands accept (R293, R349, R360, R377, R380, R381). -/
def Obligations.StepKeepsSettingsInRange : Prop :=
  ∀ s t : State, s.kept.base.inRange → step s = .next t → t.kept.base.inRange
/-- Reset: no region entry and no lock (R24), the register values the tables give (R95, R130, R208, R210, R325, R446, R477, R514), an empty queue, and
every bounded setting in its range. -/
def Obligations.ResetLeavesTheTablesValues : Prop :=
  let s := State.reset
  s.pending = [] ∧ s.regions = [] ∧ s.locked = false ∧ s.cache.ways = 0x3FFF ∧ s.cache.enabled = false ∧ s.cache.nlPorts = 0xFFF ∧ s.cache.spPorts = 0xFFF ∧
  s.cache.nlMax = 32 ∧ s.cache.spMax = 128 ∧ s.cache.spDepth = 8 ∧ s.cache.sbAge = 16 ∧ s.regs.snpTo = 100 ∧ s.regs.farTo = 1000 ∧
  s.pfwCfg = 0x0000000A00000104 ∧ s.regs.fifoCtrl = 0x030000C0 ∧ s.regs.monCtrl = 0x1FFF ∧ s.regs.monIeP = 0 ∧ s.regs.monIeS = 0 ∧
  s.regs.thermCtrl = 0x918C8A8801 ∧ s.regs.hmf.words = [] ∧ s.regs.evf.words = [] ∧ s.regs.zArm = false ∧ s.kept.base.inRange

/-! ### Command packets: each one's own effect, and the status of its first failing check -/

/-- The control port's commands (R421-R424): the IDENTIFY block is written; QUEUE_CREATE makes the pair with both pointers zero; QUEUE_DELETE stops taking and ends the pair once it is idle; EVENT_QUEUE_SET binds or unbinds the event queue. -/
def Obligations.QueueCommandsRunToTheirEffect : Prop := ∀ (p : Packet) (s : State),
  (RunsTo false (.identify p) 0x00 p s
    ([(p.rsv 8 0 true || badBuf p.addr 256 256, St.invalid_param)])
    (fun s => completeBlock p (identifyBlock s) St.ok 0 s)) ∧
  (let n := p.target.toNat
   RunsTo false (.queueCreate p) 0x01 p s
    ([(p.rsv 20 0 false || n = 0 || 15 < n || badQueue (p.par 0 8) (p.par 16 2) 64 || badQueue (p.par 8 8) (p.par 18 2) 16, St.invalid_param),
      ((s.qp n).on, St.queue_exists)])
    (fun s => complete p St.ok 0 (s.updQp n (fun _ => newPair (p.par 0 8) (p.par 8 8) (p.par 16 2 + 1) (p.par 18 2 + 1))))) ∧
  (let n := p.target.toNat
   RunsTo false (.queueDelete p) 0x02 p s
    ([(p.rsv 0 0 false || n = 0 || 15 < n || n = p.qp.toNat, St.invalid_param), (!(s.qp n).on, St.no_queue)])
    (fun s => endDelete (begin_ 0x02 p 1 0 0 (startDelete n s)) n)) ∧
  (RunsTo false (.eventQueueSet p) 0x03 p s
    ([(if p.flag 0 then p.rsv 56 1 true
        else p.rsv 11 1 true || decide (p.par 8 2 < 15) || badBuf p.addr 4096 ((p.par 8 2 + 1) * 32), St.invalid_param)])
    (fun s =>
      if p.flag 0 then complete p St.ok 0 { s with cp.eqOn := false, cp.eqArmed := false }
      else
        let s := { s with
          cp.eqOn := true, cp.eqBase := p.addr, cp.eqN := p.par 8 2 + 1, cp.eqHead := 0, cp.eqTail := 0, cp.eqPhase := true, cp.eqArmed := true
          cp.groups := BitVec.ofNat 8 (p.par 10 1) ||| 1 }
        complete p St.ok 0 { s with cp.staged := s.cp.staged.filter (fun e => s.groupOn e.code) }))

/-- The commands of modes, drains and resets (R261, R339, R341, R344, R454, R465). -/
def Obligations.ModeDrainAndResetCommandsRunToTheirEffect : Prop := ∀ (p : Packet) (s : State),
  (let m := p.par 0 1
   RunsTo true (.modeSet p) 0x05 p s
    (
      let up := s.mode = 2 && m = 3
      [(p.rsv 1 0 true || !(decide (m = s.mode.toNat) || (s.mode = 1 && m = 2) || up || (s.mode = 3 && m = 2)), St.invalid_param),
        (s.mode = 1 && m = 2 && !exitReady s, St.boot_pending), (up && s.popK.isNone, St.population_invalid), (up && !s.cache.invDone, St.not_invalidated)])
    (fun s =>
      if m = s.mode.toNat then complete p St.ok 0 s
      else if s.mode = 1 then complete p St.ok 0 (recompute (changeMode 2 2 s))
      else if s.mode = 2 then complete p St.ok 0 (recompute (changeMode 3 2 { s with cache.enabled := true }))
      else
        let id := s.nextId
        walkStart id 0x22 0 s.nSets 0x3FFF true false { begin_ 0x05 p 1 0 0 s with cache.disabling := true })) ∧
  (RunsTo true (.drain p) 0x06 p s
    ([(p.rsv 0 0 true, St.invalid_param)])
    (fun s => drainCause 1 2 (begin_ 0x06 p 1 0 0 s))) ∧
  (RunsTo true (.resume p) 0x07 p s
    ([(p.rsv 0 0 true, St.invalid_param), (!s.ao.drainDone, St.drain_busy), (s.drain.thermal, St.thermal), (!s.pfwLevel, St.pfw_low)])
    (fun s =>
      let back := if s.drain.from_ = 4 then 2 else s.drain.from_
      complete p St.ok 0 (resumeTo back s))) ∧
  (RunsTo false (.drainQuery p) 0x08 p s
    ([(p.rsv 8 0 true || badBuf p.addr 64 64, St.invalid_param)])
    (fun s => completeBlock p (reportBlock s.ao.rep) St.ok 0 s)) ∧
  (RunsTo true (.warmReset p) 0x09 p s
    ([(p.rsv 0 0 true, St.invalid_param)])
    (fun s => warmBegin (begin_ 0x09 p 1 0 0 s))) ∧
  (RunsTo false (.resetRecordQuery p) 0x0A p s
    ([(p.rsv 8 0 true || badBuf p.addr 64 64, St.invalid_param)])
    (fun s => completeBlock p (block 64 [(0, 8, aoWord s), (8, 8, s.ao.resetTime.toNat), (16, 8, s.ao.lost0.toNat), (24, 8, s.ao.lost1.toNat),
      (32, 8, s.ao.time.toNat), (40, 8, s.ao.bootCount.toNat)]) St.ok 0 s))

/-- The region commands (R37-R40, R43, R524): on an unlocked table they write it; on a locked one they complete with REGION_LOCKED and set LOCK_VIOLATION. -/
def Obligations.RegionCommandsRunToTheirEffect : Prop := ∀ (p : Packet) (s : State),
  (RunsTo true (.regionSet p) 0x10 p s
    (regionSetChecks p s)
    (fun s => if s.locked then lockedOut p s else regionWrite p s)) ∧
  (let i := p.target.toNat
   RunsTo true (.regionClear p) 0x11 p s
    (if s.locked then [] else
      [(p.rsv 0 0 false || decide (1023 < i), St.invalid_param), (!Rg.valid (s.region i), St.no_region), (entryHeld s i, St.region_busy)])
    (fun s => if s.locked then lockedOut p s else
      begin_ 0x11 p 2 0 0 (if s.replayable && decide (s.rec_.region = i) then recStop 4 s else s))) ∧
  (let i := p.target.toNat
   let m := fun (s : State) (v : Nat) => if s.boot.small then v % 256 else v
   RunsTo true (.regionPerm p) 0x12 p s
    (if s.locked then [] else
      [(p.rsv 4 0 false || decide (1023 < i) || decide (0xFFF < p.par 0 2) || decide (0xFFF < p.par 2 2), St.invalid_param),
        (!Rg.valid (s.region i), St.no_region)])
    (fun s =>
      if s.locked then lockedOut p s
      else complete p St.ok 0 { s with
        regions := NMap.upd 0 s.regions i (fun e => putBits (putBits e 142 12 (m s (p.par 0 2))) 154 12 (m s (p.par 2 2))) })) ∧
  (RunsTo false (.regionQuery p) 0x13 p s
    ([(p.rsv 8 0 false || decide (1023 < p.target.toNat) || badBuf p.addr 64 64, St.invalid_param)])
    (fun s => completeBlock p (regionBlock (s.region p.target.toNat)) St.ok 0 s)) ∧
  (RunsTo false (.regionLookup p) 0x14 p s
    ([(p.rsv 5 0 true, St.invalid_param)])
    (fun s =>
      let l : LineNo := BitVec.ofNat 40 (p.par 0 5)
      match s.cover l with
      | some (i, e) => complete p St.ok (lookupResult l i e) s
      | none => complete p St.no_region 0 s)) ∧
  (RunsTo false (.regionLock p) 0x15 p s
    ([(p.rsv 0 0 true, St.invalid_param)])
    (fun s => complete p St.ok 0 (if s.locked then lockViolation s else { s with trip.lock := Trip.all 1 })))

/-- The system-cache commands (R90-R105): CACHE_ENABLE changes to CACHED once INVALIDATE_ALL has run; the walks begin; the queries answer.
That a set whose tag block is uncorrectable is lost only while the cache is enabled is the model's choice (log 45). -/
def Obligations.CacheCommandsRunToTheirEffect : Prop := ∀ (p : Packet) (s : State),
  (RunsTo true (.invalidateAll p) 0x20 p s
    ([(p.rsv 0 0 true, St.invalid_param), (s.popK.isNone, St.population_invalid)])
    (walkCmd 0x20 p 0 0 0 true false)) ∧
  (RunsTo true (.cacheEnable p) 0x21 p s
    ([(p.rsv 0 0 true, St.invalid_param), (s.popK.isNone, St.population_invalid), (!s.cache.invDone, St.not_invalidated)])
    (fun s => complete p St.ok 0 (recompute (changeMode 3 2 { s with cache.enabled := true })))) ∧
  (RunsTo true (.cacheDisable p) 0x22 p s
    ([(p.rsv 0 0 true, St.invalid_param)])
    (fun s => walkCmd 0x22 p 0 s.nSets 0x3FFF true false { s with cache.disabling := true })) ∧
  (let m := BitVec.ofNat 14 (p.par 0 2)
   RunsTo true (.wayEnable p) 0x23 p s
    ([(p.rsv 2 0 true || decide (0x3FFF < p.par 0 2) || m = 0, St.invalid_param)])
    (fun s =>
      let off := s.cache.ways &&& ~~~m
      let s := kickAll { s with cache.ways := m }
      if s.mode = 3 && off ≠ 0 then walkCmd 0x23 p 0 s.nSets off true false s else complete p St.ok 0 s)) ∧
  (RunsTo true (.clean p) 0x24 p s
    (if p.flag 0 then setWayChecks p s else rangeChecks false p s)
    (fun s =>
      if p.flag 0 then walkCmd 0x24 p (p.par 0 8) (p.par 8 8) (BitVec.ofNat 14 (p.par 16 2)) true false s
      else walkCmd 0x24 p (p.par 0 5) (p.par 8 5) 0x3FFF false (p.flag 1) s)) ∧
  (RunsTo true (.invalidate p) 0x25 p s
    (if p.flag 0 then setWayChecks p s else rangeChecks true p s)
    (fun s =>
      if p.flag 0 then walkCmd 0x25 p (p.par 0 8) (p.par 8 8) (BitVec.ofNat 14 (p.par 16 2)) true false s
      else walkCmd 0x25 p (p.par 0 5) (p.par 8 5) 0x3FFF false (p.flag 1) s)) ∧
  (RunsTo true (.cleanInvalidate p) 0x26 p s
    (if p.flag 0 then setWayChecks p s else rangeChecks false p s)
    (fun s =>
      if p.flag 0 then walkCmd 0x26 p (p.par 0 8) (p.par 8 8) (BitVec.ofNat 14 (p.par 16 2)) true false s
      else walkCmd 0x26 p (p.par 0 5) (p.par 8 5) 0x3FFF false (p.flag 1) s)) ∧
  (RunsTo false (.cacheQuery p) 0x27 p s
    ([(p.rsv 0 0 true, St.invalid_param)])
    (fun s => complete p St.ok (cacheResult s) s)) ∧
  (let set := p.target.toNat
   RunsTo false (.cacheReadSet p) 0x28 p s
    ([(p.rsv 8 0 false || badBuf p.addr 128 128, St.invalid_param), (decide (s.nSets ≤ set), St.range_exceeds), (s.retired set, St.set_retired)])
    (fun s =>
      if (s.tbcOf set).valid then completeBlock p (leBytes 128 (s.curTb set).toNat) St.ok 0 s
      else match tbDecode (s.rowTb set) [] with
        | some (b, _) => if fmtOk b then completeBlock p (leBytes 128 b.toNat) St.ok 0 s
            else completeBlock p (leBytes 128 (s.rowTb set).toNat) St.uncorrectable 0 (if s.cache.enabled then setLost set s else s)
        | none => completeBlock p (leBytes 128 (s.rowTb set).toNat) St.uncorrectable 0 (if s.cache.enabled then setLost set s else s)))

/-- The partition and prefetch commands (R126-R131).
That candidates which go when a bit of SP_PORTS is cleared are not
counted in SP_DROPPED is the model's choice (log 83). -/
def Obligations.PartitionAndPrefetchCommandsRunToTheirEffect : Prop := ∀ (p : Packet) (s : State),
  (RunsTo true (.partMapSet p) 0x30 p s
    ([(p.rsv 24 0 true, St.invalid_param)])
    (fun s => complete p St.ok 0 (kickAll { s with cache.map := mapOf s (p.par 0 24) }))) ∧
  (RunsTo true (.partMaskSet p) 0x31 p s
    ([(p.rsv 2 0 false || decide (15 < p.target.toNat) || decide (0x3FFF < p.par 0 2) || p.par 0 2 = 0, St.invalid_param)])
    (fun s => complete p St.ok 0 (kickAll { s with cache.pmask := NMap.set 0x3FFF s.cache.pmask p.target.toNat (BitVec.ofNat 14 (p.par 0 2)) }))) ∧
  (RunsTo false (.partQuery p) 0x32 p s
    ([(p.rsv 8 0 true || badBuf p.addr 128 192, St.invalid_param)])
    (fun s => completeBlock p (partBlock s) St.ok 0 s)) ∧
  (RunsTo true (.prefetchSet p) 0x33 p s
    ([(prefetchBad p, St.invalid_param)])
    (fun s =>
      let m := fun (v : Nat) => BitVec.ofNat 12 (if s.boot.small then v % 256 else v)
      let sp := m (p.par 2 2)
      let s := (List.range 12).foldl (fun s n => if bit s.cache.spPorts n && !bit sp n then s.updPort n (fun q => { q with dets := [], cand := [] }) else s) s
      complete p St.ok 0 { s with
        cache.nlPorts := m (p.par 0 2), cache.spPorts := sp, cache.nlMax := p.par 4 2, cache.spMax := p.par 6 2, cache.spDepth := p.par 8 1
        cache.sbAge := p.par 9 2 })) ∧
  (RunsTo false (.prefetchQuery p) 0x34 p s
    ([(p.rsv 8 1 true || badBuf p.addr 128 128, St.invalid_param)])
    (fun s => completeBlock p (block 128 ((List.range 12).map (fun k => (8 * k, 8, (NMap.get 0 s.cache.pfCnt k).toNat)))) St.ok 0
      (if p.flag 0 then { s with cache.pfCnt := [] } else s)))

/-- The policy commands (R157-R161): an image that fails a check is refused, one that passes is loaded; data memory is read and written between two events. -/
def Obligations.PolicyCommandsRunToTheirEffect : Prop := ∀ (p : Packet) (s : State),
  (let len := p.par 8 4
   RunsTo false (.policyLoad p) 0x35 p s
    ([(p.rsv 12 0 true || badBuf p.addr 8 len, St.invalid_param), (!p.readOk, St.host_read_failed)] ++ imgChecks s len (p.data.take len))
    (polBegin 0x35 p)) ∧
  (RunsTo false (.policyQuery p) 0x36 p s
    ([(p.rsv 8 1 true || badBuf p.addr 128 128, St.invalid_param)])
    (fun s => completeBlock p (polBlock s) St.ok 0 (if p.flag 0 then { s with pol.cnt := [] } else s))) ∧
  (RunsTo false (.policyDefault p) 0x37 p s
    ([])
    (polBegin 0x37 p)) ∧
  (RunsTo false (.policyDataRead p) 0x38 p s
    ((7 < p.target.toNat, St.invalid_param) :: dataRange p false)
    (fun s => completeBlock p (((List.range (p.par 10 2)).map (fun k =>
        leBytes 8 (NMap.get 0 (s.seq p.target.toNat).dmem (p.par 8 2 + k)).toNat)).flatten) St.ok 0 s)) ∧
  (RunsTo false (.policyDataWrite p) 0x39 p s
    ((p.target.toNat = 0 || 255 < p.target.toNat, St.invalid_param) :: dataRange p true ++ [(!p.readOk, St.host_read_failed)])
    (fun s =>
      let ws := words64 (p.par 10 2) p.data
      complete p St.ok 0 ((List.range 8).foldl (fun s sl =>
        if bit p.target sl then s.updSeq sl (fun q => { q with
          dmem := (List.range ws.length).foldl (fun m k => NMap.set 0 m (p.par 8 2 + k) ((ws.getD k 0).setWidth 40)) q.dmem })
        else s) (if s.replayable then recStop 4 s else s))))

/-- The stream commands (R284-R295). -/
def Obligations.StreamCommandsRunToTheirEffect : Prop := ∀ (p : Packet) (s : State),
  (RunsTo true (.streamOpen p) 0x40 p s
    (openChecks p s)
    (fun s => complete p St.ok 0 { s.updCtx p.target.toNat (fun _ => openCtx p) with
      str.items := s.str.items.map (fun it => if it.stream = p.target then { it with own := false } else it) })) ∧
  (RunsTo true (.streamClose p) 0x41 p s
    ([(badSid p.target || p.rsv 0 0 false, St.invalid_param), ((s.ctx p.target.toNat).state = 0, St.stream_state)])
    (fun s => begin_ 0x41 p 1 0 0 (s.updCtx p.target.toNat (fun c => { c with state := 2 })))) ∧
  (RunsTo false (.streamQuery p) 0x42 p s
    ([(badSid p.target || p.rsv 8 0 false || badBuf p.addr 128 128, St.invalid_param)])
    (fun s =>
      let c := s.ctx p.target.toNat
      completeBlock p (ctxBytes c ++ block 32 [(0, 8, arrived c), (8, 8, unpersisted s p.target.toNat)]) St.ok 0 s)) ∧
  (let sid := p.target.toNat
   RunsTo true (.streamWriters p) 0x43 p s
    (
      let w := wrMaskOf (p.par 0 2)
      [(badSid p.target || p.rsv 2 0 false || decide (0xFFF < p.par 0 2) || w = 0 || decide (w &&& ~~~(regionWr (s.region (s.ctx sid).region.toNat)) ≠ 0),
        St.invalid_param), ((s.ctx sid).state ≠ 1, St.stream_state)])
    (fun s => complete p St.ok 0 (s.updCtx sid (fun c => { c with wrMask := wrMaskOf (p.par 0 2) })))) ∧
  (let n := p.par 0 5
   RunsTo true (.streamAckGap p) 0x44 p s
    (
      let c := s.ctx p.target.toNat
      [(badSid p.target || p.rsv 5 0 false || n = 0, St.invalid_param), (c.state = 0, St.stream_state), (!c.gapPend, St.no_gap),
        (decide (2 ^ 48 - 2 < c.wm + n), St.range_exceeds)])
    (begin_ 0x44 p 1 n 0)) ∧
  (let k := p.target.toNat
   let sid := p.par 0 4
   RunsTo true (.streamNotify p) 0x45 p s
    (if !p.flag 0 then [(decide (4095 < k), St.invalid_param)] else
      [(decide (4095 < k) || p.rsv 22 1 false || decide (0x3FFFF < sid) || p.par 4 4 ≠ 0 || p.par 14 2 ≠ 0, St.invalid_param),
        ((s.ctx sid).state ≠ 1, St.stream_state)])
    (fun s =>
      let s := { s with str.notices := NMap.upd Notice.init s.str.notices k (fun n =>
        if p.flag 0 then { n with armed := true, stream := BitVec.ofNat 18 sid, mark := p.par 8 6, step := p.par 16 6 } else { n with armed := false }) }
      complete p St.ok 0 s)) ∧
  (let k := p.target.toNat
   RunsTo false (.streamNotifyQuery p) 0x46 p s
    ([(decide (4095 < k) || p.rsv 8 1 false || badBuf p.addr 32 32, St.invalid_param)])
    (fun s => completeBlock p (noticeBytes (NMap.get Notice.init s.str.notices k)) St.ok 0
      (if p.flag 0 then { s with str.notices := NMap.upd Notice.init s.str.notices k (fun n => { n with fired := false, crossings := 0 }) } else s))) ∧
  (RunsTo true (.streamGlobalSet p) 0x47 p s
    ([(p.rsv 8 0 true || p.par 2 2 ≠ 0 || p.par 0 2 = 0 || decide (4096 < p.par 0 2) || decide (p.par 4 4 < 10) || decide (1000000 < p.par 4 4), St.invalid_param)])
    (fun s => complete p St.ok 0 { s with trip.budget := Trip.all (BitVec.ofNat 13 (p.par 0 2)), str.holeTo := p.par 4 4 })) ∧
  (RunsTo false (.streamGlobalQuery p) 0x48 p s
    ([(p.rsv 8 1 true || badBuf p.addr 64 64, St.invalid_param)])
    (fun s => completeBlock p (globalBlock s) St.ok 0 (if p.flag 0 then { s with str.overruns := 0, str.gaps := 0 } else s)))

/-- The seal and seal-log commands (R297, R305, R306, R309, R321, R322).
That SEAL_LOG_SET drops the records still waiting for the
old log is the model's choice (log 50). -/
def Obligations.SealCommandsRunToTheirEffect : Prop := ∀ (p : Packet) (s : State),
  (let sid := p.target.toNat
   RunsTo true (.seal p) 0x50 p s
    ([(badSid p.target || p.rsv 0 0 false, St.invalid_param), ((s.ctx sid).state ≠ 1, St.stream_state)])
    (fun s => begin_ 0x50 p 1 0 0 (sealPoint sid 8 s))) ∧
  (let sid := p.target.toNat
   RunsTo true (.timeAnchor p) 0x51 p s
    ([(p.rsv 8 1 false || decide (2 ^ 63 ≤ p.par 0 8) || (!p.flag 0 && badSid p.target), St.invalid_param),
      (!p.flag 0 && decide ((s.ctx sid).state ≠ 1), St.stream_state)])
    (fun s =>
      let s := { s with ao.anchor := p.addr - 40 * s.ao.time }
      let all := (s.str.ctx.filter (fun e => e.2.state = 1)).map (·.1)
      complete p St.ok 0 (if p.flag 0 then all.foldl (fun s k => sealPoint k 32 s) s else sealPoint sid 32 s))) ∧
  (let i := p.target.toNat
   RunsTo true (.sealLogSet p) 0x52 p s
    ([(p.rsv 0 0 false || decide (1023 < i) || !logOk (s.region i), St.invalid_param), (openStreams s ≠ 0, St.log_busy)])
    (fun (s : State) =>
      let gone := fun (r : FarReq) => match r.purp with | .slot _ => { r with purp := .headTable } | _ => r
      let s : State := { s with links.reqs := s.links.reqs.map gone, links.waitq := s.links.waitq.map gone }
      let s : State := { s with str.log := some i, str.logWrite := 0, str.logRead := 0, str.unpersisted := [], str.items := [], str.lowPosted := false }
      complete p St.ok 0 (if s.keySt = 2 then addItem 0xFFFFFFFE s.keys.cert false s else s))) ∧
  (let v := p.par 0 8
   RunsTo true (.sealLogAck p) 0x53 p s
    ([(p.rsv 8 0 true || decide (v < s.str.logRead) || decide (logPersisted s < v), St.invalid_param)])
    (fun s => complete p St.ok 0 { s with str.logRead := v })) ∧
  (RunsTo false (.sealLogQuery p) 0x54 p s
    ([(p.rsv 8 0 true || badBuf p.addr 64 64, St.invalid_param)])
    (fun s => completeBlock p (sealLogBlock s) St.ok 0 s))

/-- The key, role and approved-mode commands (R312-R320, R416): each makes its checks, the security statuses first, and has its effect. A KEY_GEN_IDENTITY
after the first sets LOCK_VIOLATION and changes no key. Otherwise KEY_GEN_IDENTITY, KEY_GEN_SEAL and KEY_ZEROISE, which uses up its arm and abandons the
signatures in progress, begin to write the key area, and complete with their effect when it is written: the identity pair, the seal pair with its serial and
certificate, or both private keys gone. Drawn keys and challenges are the model's free values of log 4, the number of a failed test is that of log 9.
The 96-byte signature at the host address and one response for each challenge are the model's choice (log 37), and so is SELF_TEST_FAILED as the
refusal of AUTH_CHALLENGE in the error state (log 49). -/
def Obligations.KeyCommandsRunToTheirEffect : Prop := ∀ (p : Packet) (s : State),
  (RunsTo true (.keyGenIdentity p) 0x55 p s
    ([(s.keySt = 0 && s.keys.errState, St.self_test_failed), (p.rsv 8 0 true || badBuf p.addr 1 96, St.invalid_param)])
    (fun s =>
      if s.keySt ≠ 0 then complete p St.ok (identDigest s) (lockViolation s)
      else if !p.ok then complete p St.self_test_failed 0 (testFailed s)
      else beginFlash 0x55 p keyOps s)) ∧
  (RunsTo true (.keyGenSeal p) 0x56 p s
    ([(s.keySt ≠ 1 && s.keySt ≠ 2, St.key_state), (s.keys.errState, St.self_test_failed), (p.rsv 0 0 true, St.invalid_param)])
    (fun s =>
      if !p.ok then complete p St.self_test_failed 0 (testFailed s)
      else beginFlash 0x56 p keyOps s)) ∧
  (RunsTo false (.keyQuery p) 0x57 p s
    ([(p.rsv 8 0 true || badBuf p.addr 1 256, St.invalid_param)])
    (fun s => completeBlock p (wordBytes 96 s.keys.identPub ++ wordBytes 160 s.keys.cert) St.ok 0 s)) ∧
  (RunsTo true (.keyZeroise p) 0x58 p s
    ([(!s.regs.zArm, St.not_armed), (p.rsv 0 0 true, St.invalid_param)])
    (fun s => abandonSigs true (beginFlash 0x58 p keyOps { s with keys.wiped := true, regs.zArm := false }))) ∧
  (let r := p.target.toNat
   RunsTo false (.authChallenge p) 0x59 p s
    ([(r = 0 && (officerKey s).isNone, St.no_officer_key), (s.keys.errState, St.self_test_failed),
      (p.rsv 8 0 false || decide (1 < r) || badBuf p.addr 1 48, St.invalid_param)])
    (fun s =>
      let c := Config.drbg s.free
      completeBlock p (wordBytes 48 c) St.ok 0 { s with
        free := s.free + 1, keys.chal := NMap.set 0 s.keys.chal r c, keys.chalOn := s.keys.chalOn ||| BitVec.ofNat 2 (2 ^ r) })) ∧
  (let r := p.target.toNat
   RunsTo false (.authResponse p) 0x5A p s
    ([(p.rsv 56 0 false || decide (1 < r) || badBuf p.addr 1 96, St.invalid_param), (!p.readOk, St.host_read_failed)])
    (fun s =>
      let good := responseOk s r (BitVec.ofNat 768 (leNat (p.data.take 96)))
      let s := { s with keys.chalOn := s.keys.chalOn &&& ~~~(BitVec.ofNat 2 (2 ^ r)) }
      if good then complete p St.ok 0 { s with keys.roles := s.keys.roles ||| BitVec.ofNat 2 (2 ^ r), keys.fails := NMap.set 0 s.keys.fails r 0 }
      else
        let n := NMap.get 0 s.keys.fails r + 1
        let s := { s with keys.fails := NMap.set 0 s.keys.fails r n }
        complete p St.auth_failed 0 (if n % 5 = 0 then postEvent 0x0403 [(0, r), (4, n)] s else s))) ∧
  (RunsTo false (.authUserSet p) 0x5B p s
    ([(p.rsv 8 0 true || badBuf p.addr 1 96, St.invalid_param), (!p.readOk, St.host_read_failed)])
    (fun s => complete p St.ok 0 { s with keys.userPub := BitVec.ofNat 768 (leNat (p.data.take 96)), keys.userOn := true })) ∧
  (RunsTo false (.approvedMode p) 0x5C p s
    ([(!s.locked, St.region_unlocked), (s.keySt ≠ 2, St.key_state), (!s.keys.testsOk, St.self_test_failed), (s.keys.tapOpen, St.tap_open),
      (!s.keys.custOn, St.no_officer_key), (p.rsv 0 0 true, St.invalid_param)])
    (fun s => complete p St.ok 0 { s with trip.key := Trip.all (s.keyState ||| 4) })) ∧
  (RunsTo true (.selfTest p) 0x5D p s
    ([(p.rsv 0 0 true, St.invalid_param)])
    (fun s => if p.ok then complete p St.ok 0 s else complete p St.self_test_failed 0 (testFailed s))) ∧
  (∀ g rest, s.off = false → s.boot.flash = ⟨some g.id, 1, false, none⟩ :: rest → s.cp.prog.find? (fun h => h.id = g.id) = some g →
    let v := { s with boot.flash := rest }
    let k := Config.genWrapped s.free
    let ends := fun (u : State) => u.boot.drainInBoot = false → exec (.flashOperationDone true) s = .next (rowEnd s u)
    (g.op = 0x55 → s.keySt = 0 → s.keys.errState = false →
      let t := setKeySt 1 { v with keys.identPub := publicOf k, keys.identPriv := k, keys.stored := 1, free := s.free + 1 }
      ends (finishBlock g (wordBytes 96 (publicOf k)) St.ok (identDigest t) t)) ∧
    (g.op = 0x56 → s.keySt = 1 ∨ s.keySt = 2 → s.keys.wiped = false → s.keys.errState = false →
      let t := setKeySt 2 { v with keys.sealPub := publicOf k, keys.sealPriv := k, keys.serial := s.keys.serial + 1, keys.stored := 2, free := s.free + 1 }
      let u := { t with keys.cert := certBytes t, free := s.free + 2 }
      ends (finish g St.ok 0 (if s.str.log.isSome then addItem 0xFFFFFFFE (certBytes t) false u else u))) ∧
    (g.op = 0x58 → ends (finish g St.ok 0 (setKeySt 3 { v with keys.identPriv := 0, keys.sealPriv := 0, keys.wiped := true, keys.stored := 3 }))))

/-- The regulation commands (R349-R353, R357, R360, R361). -/
def Obligations.RegulationCommandsRunToTheirEffect : Prop := ∀ (p : Packet) (s : State),
  (let k := pairOf p.target
   RunsTo true (.regGuarSet p) 0x60 p s
    ([(badPair s p.target || p.rsv 10 0 false || decide (k % 5 = 4) || decide (26200 < p.par 0 4) || decide (26200 < p.par 4 4) ||
        decide (100 < p.par 8 1) || decide (100 < p.par 9 1), St.invalid_param)])
    (fun s =>
      let g := guarOf s p
      match overcommit s k g with
      | some (r, x) => complete p St.overcommit (r + x % 2 ^ 40 * 256) s
      | none => complete p St.ok 0 (recomputeRsv (rescale { s with regl.guar := withGuar s k g }).1))) ∧
  (RunsTo true (.regCapSet p) 0x61 p s
    ([(badPair s p.target || p.rsv 2 0 false || decide (1024 < p.par 0 2), St.invalid_param)])
    (fun s => complete p St.ok 0 { s with regl.cap := NMap.set 1024 s.regl.cap (pairOf p.target) (p.par 0 2) })) ∧
  (let n := p.target.toNat
   RunsTo true (.regFarPlan p) 0x62 p s
    ([(p.rsv 8 0 false || decide (s.nFar ≤ n) || p.par 0 4 = 0 || decide (26200 < p.par 0 4) || p.par 4 4 = 0 || decide (26200 < p.par 4 4),
      St.invalid_param)])
    (fun s => complete p St.ok 0 (recompute (s.updFar n (fun f => { f with
      readPlan := BitVec.ofNat 32 (p.par 0 4), writePlan := BitVec.ofNat 32 (p.par 4 4) }))))) ∧
  (RunsTo true (.regParamSet p) 0x63 p s
    ([(p.rsv 4 0 true || decide (p.par 0 1 < 50) || decide (100 < p.par 0 1) || decide (p.par 1 1 < 16) || decide (64 < p.par 1 1) ||
      p.par 2 2 = 0 || decide (1000 < p.par 2 2), St.invalid_param)])
    (fun s => complete p St.ok 0 (recompute (windowStart { s with
      regl.admitPct := p.par 0 1, regl.margin := p.par 1 1, regl.window := p.par 2 2 })))) ∧
  (let k := pairOf p.target
   RunsTo false (.regQuery p) 0x64 p s
    ([(badPair s p.target || p.rsv 8 1 false || badBuf p.addr 64 64, St.invalid_param)])
    (fun s => completeBlock p (regBlock s k) St.ok 0
      (if p.flag 0 then { s with regl.stalls := NMap.set 0 s.regl.stalls k 0, regl.misses := NMap.set 0 s.regl.misses k 0 } else s))) ∧
  (RunsTo false (.regCapacityQuery p) 0x65 p s
    ([(p.rsv 8 0 true || badBuf p.addr 64 64, St.invalid_param)])
    (fun s => completeBlock p (capacityBlock s) St.ok 0 s))

/-- The error commands (R370, R377, R380-R384, R387, R392-R398). The index of RETIRE_CLEAR is log 35. -/
def Obligations.ErrorCommandsRunToTheirEffect : Prop := ∀ (p : Packet) (s : State),
  (let c := p.par 8 4
   RunsTo false (.errLogRead p) 0x70 p s
    ([(p.rsv 12 0 true || c = 0 || decide (4096 < c) || badBuf p.addr 32 (32 * c), St.invalid_param)])
    (fun s =>
      let n := min c (s.err.wr - s.err.rd)
      completeBlock p (logBytes s n) St.ok n s)) ∧
  (let v := p.par 0 8
   RunsTo false (.errLogAck p) 0x71 p s
    ([(p.rsv 8 0 true || decide (v < s.err.rd) || decide (s.err.wr < v), St.invalid_param)])
    (fun s => complete p St.ok 0 { s with err.rd := v })) ∧
  (let i := p.target.toNat
   RunsTo false (.errMirrorSet p) 0x72 p s
    ([(p.rsv 0 0 false || (decide (i ≠ 0xFFFF) && (decide (1023 < i) || !mirrorOk (s.region i))), St.invalid_param)])
    (fun s => complete p St.ok 0 { s with err.mirror := if i = 0xFFFF then none else some i })) ∧
  (RunsTo false (.errQuery p) 0x73 p s
    ([(p.rsv 8 1 true || badBuf p.addr 32 160, St.invalid_param)])
    (fun s => completeBlock p (errBlock s) St.ok 0 (if p.flag 0 then { s with err.cnt := [] } else s))) ∧
  (let n := p.target.toNat
   RunsTo true (.retireSet p) 0x74 p s
    ([(p.rsv 0 0 false, St.invalid_param), (decide (s.nSets ≤ n), St.range_exceeds),
      (!setGone s n && decide (4096 ≤ s.err.rlSets.length), St.retire_full)])
    (fun s => if setGone s n then complete p St.ok 0 s else walkCmd 0x74 p n 1 0x3FFF true false s)) ∧
  (let n := p.target.toNat
   RunsTo true (.retireBank p) 0x75 p s
    ([(p.rsv 0 0 false, St.invalid_param), (decide (511 < n) || s.popK.isNone || decide (2 ^ s.popC ≤ n % 32), St.range_exceeds),
      (!s.cache.retBanks.contains n && decide (64 ≤ s.err.rlBanks.length), St.retire_full)])
    (fun s => if s.cache.retBanks.contains n then complete p St.ok 0 s else walkCmd 0x75 p n 0 0x3FFF true false s)) ∧
  (let n := p.target.toNat
   let st := fun (s : State) => if n < 4096 then s.err.rlSets[n]? else none
   let bk := fun (s : State) => if n < 4096 then none else s.err.rlBanks[n - 4096]?
   RunsTo false (.retireClear p) 0x76 p s
    ([(p.rsv 0 1 false || (!p.flag 0 && (st s).isNone && (bk s).isNone), St.invalid_param)])
    (fun s =>
      let s' := begin_ 0x76 p 2 0 0 s
      healthJob (some s.nextId) listOps (if p.flag 0 then retireDrop (fun _ => true) (fun _ => true) s'
        else retireDrop (fun x => st s = some x) (fun x => bk s = some x) s'))) ∧
  (RunsTo false (.retireQuery p) 0x77 p s
    ([(p.rsv 8 0 true || badBuf p.addr 64 16536, St.invalid_param)])
    (fun s => completeBlock p (retireBytes s) St.ok 0 s)) ∧
  (RunsTo false (.scrubSet p) 0x78 p s
    ([(p.rsv 5 0 true || decide (168 < p.par 0 1) || p.par 1 1 ≠ 0 || p.par 2 2 = 0 || p.par 4 1 = 0, St.invalid_param)])
    (fun s => complete p St.ok 0 { s with err.scrub := p.par 0 1, err.ceLimit := p.par 2 2, err.ueLimit := p.par 4 1 })) ∧
  (let n := p.target.toNat
   RunsTo false (.farRecover p) 0x79 p s
    ([(p.rsv 0 0 false || decide (s.nFar ≤ n), St.invalid_param), (!(s.farP n).dead, St.not_dead)])
    (begin_ 0x79 p 1 0 0)) ∧
  (RunsTo false (.freezeQuery p) 0x7A p s
    ([(p.rsv 8 0 false || decide (s.nPorts ≤ p.target.toNat) || badBuf p.addr 32 32, St.invalid_param)])
    (fun s => completeBlock p (freezeBlock (s.port p.target.toNat)) St.ok 0 s)) ∧
  (let k := p.par 0 1
   let o := BitVec.ofNat 64 (p.par 8 8)
   RunsTo false (.errInject p) 0x7B p s
    ([(s.approved, St.inject_locked), (s.err.inj.isSome, St.inject_busy),
      (p.rsv 16 0 true || p.par 1 7 ≠ 0 || injBad s k o, St.invalid_param), (k = 2 && decide (s.nSets ≤ nbits o 25 0), St.range_exceeds)])
    (fun s => complete p St.ok 0 { s with err.inj := some ⟨k, o⟩ }))

/-- The monitor, recorder and replay commands (R478-R498). The byte places of event numbers are log 39, the snapshot layout log 40. -/
def Obligations.MonitorAndReplayCommandsRunToTheirEffect : Prop := ∀ (p : Packet) (s : State),
  (let n := p.target.toNat
   RunsTo false (.monPortSet p) 0x80 p s
    ([(p.rsv 4 0 false || decide (s.nPorts ≤ n) || (List.range 4).any (fun i => decide (0x10 < p.par i 1)), St.invalid_param)])
    (fun s => complete p St.ok 0 { s with
      regs.monPE := (List.range 4).foldl (fun m i => NMap.set 0 m (4 * n + i) (BitVec.ofNat 8 (p.par i 1))) s.regs.monPE })) ∧
  (RunsTo false (.monSysSet p) 0x81 p s
    ([(p.rsv 34 0 false || decide (7 < p.target.toNat) || monSysBad p, St.invalid_param)])
    (fun s => complete p St.ok 0 { s with regs.monSE := NMap.set 0 s.regs.monSE p.target.toNat (BitVec.ofNat 272 (p.par 0 34)) })) ∧
  (RunsTo false (.monQuery p) 0x82 p s
    ([(p.rsv 8 0 true || badBuf p.addr 64 448, St.invalid_param)])
    (fun s => completeBlock p (monBlock s) St.ok 0 s)) ∧
  (let r := p.par 2 2
   RunsTo false (.recConfig p) 0x83 p s
    ([(p.rsv 16 7 true || decide (1 < p.par 0 1) || p.par 1 1 ≠ 0 || p.par 4 4 ≠ 0 || decide (2 ^ 40 ≤ p.par 8 8) || p.par 8 8 = 0 || decide (1023 < r) ||
        !traceOk (s.region r) || (p.flag 0 && (p.par 0 1 = 1 || p.flag 1)), St.invalid_param),
      (decide (Rg.size (s.region r) < p.par 8 8), St.range_exceeds), (s.recording || s.quiescing, St.rec_active)])
    (fun s => complete p St.ok 0 { s with
      rec_.configured := true, rec_.region := r, rec_.limit := p.par 8 8
      rec_.cfg := BitVec.ofNat 4 (p.par 0 1 + 2 * b2n (p.flag 0) + 4 * b2n (p.flag 1) + 8 * b2n (p.flag 2)) })) ∧
  (RunsTo true (.recStart p) 0x84 p s
    ([(p.rsv 0 0 true || !s.rec_.configured, St.invalid_param), (s.recording || s.quiescing, St.rec_active)])
    (fun s => if s.replayable then freeSides { begin_ 0x84 p 1 0 0 s with rec_.st := 1 } else complete p St.ok 0 (recBegin s))) ∧
  (RunsTo false (.recStop p) 0x85 p s
    ([(p.rsv 0 0 true, St.invalid_param)])
    (fun s => complete p St.ok 0 (recStop 0 s))) ∧
  (RunsTo false (.recQuery p) 0x86 p s
    ([(p.rsv 8 0 true || badBuf p.addr 1 64, St.invalid_param)])
    (fun s => completeBlock p (recBlock s) St.ok 0 s)) ∧
  (let rs := recParse 4096 p.data
   RunsTo true (.replayStart p) 0x87 p s
    (replayChecks p rs s)
    (fun s => match startMismatch s (rs.headD ⟨0, 0, 0, 0, [], 0⟩).body with
      | some o => complete p St.trace_mismatch o s
      | none =>
        let s := complete p St.ok 0 (replayBegin p rs s)
        if s.rec_.rLeft = 0 then replayEnd 0 s else s)) ∧
  (RunsTo true (.replayStop p) 0x88 p s
    ([(p.rsv 0 0 true, St.invalid_param)])
    (fun s => complete p St.ok 0 (replayEnd 1 s))) ∧
  (RunsTo false (.replayQuery p) 0x89 p s
    ([(p.rsv 8 0 true || badBuf p.addr 1 128, St.invalid_param)])
    (fun s => completeBlock p (replayBlock s) St.ok 0 s)) ∧
  (RunsTo true (.ageingMeasure p) 0x8A p s
    ([(p.rsv 0 0 true, St.invalid_param)])
    (fun s => cycleDue 1 (begin_ 0x8A p 1 0 0 s))) ∧
  (RunsTo false (.ageingQuery p) 0x8B p s
    ([(p.rsv 8 0 true || badBuf p.addr 64 64, St.invalid_param)])
    (fun s => completeBlock p (ageBlock s) St.ok 0 s)) ∧
  (RunsTo false (.thermalQuery p) 0x8C p s
    ([(p.rsv 8 0 true || badBuf p.addr 64 64, St.invalid_param)])
    (fun s => completeBlock p (thermalBlock s) St.ok 0 s))

/-- The firmware and configuration commands (R457, R465-R470). CONFIG_QUERY without a valid copy is log 42.
That FW_COMMIT's target is invalid
while it is programmed (log 21), and that a configuration record of another MAGIC is refused (log 123), are the model's choices too. -/
def Obligations.FirmwareCommandsRunToTheirEffect : Prop := ∀ (p : Packet) (s : State),
  (let off := p.par 8 4
   let n := p.par 12 4
   RunsTo false (.fwDownload p) 0x90 p s
    ([(p.rsv 16 0 true || badBuf p.addr 8 n || off % 4096 ≠ 0 || n = 0 || decide (4194304 < n), St.invalid_param),
      (decide (4194304 < off + n), St.range_exceeds), (!p.readOk, St.host_read_failed)])
    (fun s =>
      let k := (n + 4095) / 4096
      beginFlash 0x90 p (k + (n + 255) / 256) { s with boot.staging := (List.range k).foldl (fun m i => NMap.set [] m (off / 4096 + i) []) s.boot.staging })) ∧
  (RunsTo false (.fwCommit p) 0x91 p s
    (commitChecks p s)
    (fun s =>
      let n := (stagedImage s (p.par 0 1)).length
      areaErased p.target.toNat (beginFlash 0x91 p ((n + 4095) / 4096 + (n + 255) / 256) s))) ∧
  (let t := p.target.toNat
   RunsTo true (.fwActivate p) 0x92 p s
    ([(t = 2 && s.mode = 1, St.mode_refused), (p.rsv 0 1 false || decide (2 < t), St.invalid_param),
        (decide (t < 2) && !bit s.boot.slotsOk t, St.image_invalid)] ++
        (if t = 2 then (s.boot.polBad, St.image_invalid) :: imgChecks s (leAt s.boot.polArea 8 4) s.boot.polArea else []))
    (fun s => if t = 2 then polBegin 0x92 p s else beginFlash 0x92 p 2 s)) ∧
  (RunsTo false (.fwQuery p) 0x93 p s
    ([(p.rsv 8 0 true || badBuf p.addr 128 128, St.invalid_param)])
    (fun s => completeBlock p (fwBlock s) St.ok 0 s)) ∧
  (let h := leNat (p.data.take 48)
   RunsTo false (.customerKeySet p) 0x94 p s
    ([(p.rsv 8 0 true || badBuf p.addr 1 48, St.invalid_param), (!p.readOk, St.host_read_failed), (h = 0, St.invalid_param)])
    (fun s => complete p St.ok 0 (if s.keys.custOn then lockViolation s else { s with keys.custOn := true, keys.cust := BitVec.ofNat 384 h }))) ∧
  (RunsTo false (.configWrite p) 0x95 p s
    ([(p.rsv 8 0 true || badBuf p.addr 1 512, St.invalid_param), (!p.readOk, St.host_read_failed), (configBad (startTaken 0x95 p s) (p.data.take 512), St.invalid_param)])
    (beginFlash 0x95 p 3)) ∧
  (RunsTo false (.configQuery p) 0x96 p s
    ([(p.rsv 8 0 true || badBuf p.addr 512 512, St.invalid_param)])
    (fun s => match s.boot.config with
      | some c => completeBlock p (wordBytes 512 c) St.ok 0 s
      | none => completeBlock p ((List.range 64).flatMap (fun i => wordBytes 8 (Config.freeWord (s.free + i)))) St.ok 0 { s with free := s.free + 64 }))

/-- The port commands (R205-R207, R229).
The model's choices here: PORT_CONFIG with ENABLE 1 for a disabled port only stores it (log 91), and
which ranges its overlap check compares (log 52). -/
def Obligations.PortCommandsRunToTheirEffect : Prop := ∀ (p : Packet) (s : State),
  (let n := p.target.toNat
   let b := p.par 0 16
   RunsTo false (.portConfig p) 0xA0 p s
    ([(p.rsv 16 0 false || s.nPorts ≤ n || portCfgBad b || !rangeOk s n (portCfgOf b), St.invalid_param)])
    (fun s => complete p St.ok 0 (s.updPort n (fun q => { q with cfgNext := portCfgOf b })))) ∧
  (let n := p.target.toNat
   RunsTo true (.portReset p) 0xA1 p s
    ([(p.rsv 0 0 false || s.nPorts ≤ n, St.invalid_param), ((s.port n).link = 3, St.port_active)])
    (fun s =>
      let s := begin_ 0xA1 p 1 0 0 s
      let q := s.port n
      resetStep2 (if q.open_ then loseAgent n s else s))) ∧
  (let n := p.target.toNat
   RunsTo false (.portQuery p) 0xA2 p s
    ([(p.rsv 8 0 false || s.nPorts ≤ n || badBuf p.addr 64 64, St.invalid_param)])
    (fun s => completeBlock p (portBlock (portShown s n)) St.ok 0 s))

/-! ### The policy sequencers -/

/-- The register instructions (R138): each gives the value of its table row after its latency, changes nothing but its own sequencer, and
moves on. `rg` reads g0 as zero. -/
def Obligations.RegisterInstructionsGiveTheirResults : Prop :=
  ∀ (sl : BitVec 3) (gd rd ra rb : BitVec 4) (imm : SWord) (s : State),
  let runs := fun (c : Instr) (t : State) => Issues c sl gd s → exec c s = .next t
  let res := fun (k : Nat) (v : Seq → SWord) => s.updSeq sl.toNat (seqStep false 1 (later rd k v))
  runs (.add sl gd rd ra rb) (res 1 fun q => q.rg ra + q.rg rb) ∧
  runs (.addi sl gd rd ra imm) (res 1 fun q => q.rg ra + imm) ∧
  runs (.sub sl gd rd ra rb) (res 1 fun q => q.rg ra - q.rg rb) ∧
  runs (.and sl gd rd ra rb) (res 1 fun q => q.rg ra &&& q.rg rb) ∧
  runs (.andi sl gd rd ra imm) (res 1 fun q => q.rg ra &&& imm) ∧
  runs (.or sl gd rd ra rb) (res 1 fun q => q.rg ra ||| q.rg rb) ∧
  runs (.ori sl gd rd ra imm) (res 1 fun q => q.rg ra ||| imm) ∧
  runs (.xor sl gd rd ra rb) (res 1 fun q => q.rg ra ^^^ q.rg rb) ∧
  runs (.xori sl gd rd ra imm) (res 1 fun q => q.rg ra ^^^ imm) ∧
  runs (.andn sl gd rd ra rb) (res 1 fun q => q.rg ra &&& ~~~(q.rg rb)) ∧
  runs (.shl sl gd rd ra imm) (res 1 fun q => if 40 ≤ imm.toNat % 64 then 0 else q.rg ra <<< (imm.toNat % 64)) ∧
  runs (.shr sl gd rd ra imm) (res 1 fun q => if 40 ≤ imm.toNat % 64 then 0 else q.rg ra >>> (imm.toNat % 64)) ∧
  runs (.shlv sl gd rd ra rb) (res 1 fun q => if 40 ≤ (q.rg rb).toNat % 64 then 0 else q.rg ra <<< ((q.rg rb).toNat % 64)) ∧
  runs (.shrv sl gd rd ra rb) (res 1 fun q => if 40 ≤ (q.rg rb).toNat % 64 then 0 else q.rg ra >>> ((q.rg rb).toNat % 64)) ∧
  runs (.movi sl gd rd imm) (res 1 fun _ => imm) ∧
  runs (.sel sl gd rd ra rb imm) (res 1 fun q => if q.pr (nbits imm 1 0) then q.rg ra else q.rg rb) ∧
  runs (.fnz sl gd rd ra rb) (res 1 fun q => if q.rg ra ≠ 0 then q.rg ra else q.rg rb) ∧
  runs (.lsb sl gd rd ra) (res 1 fun q => q.rg ra &&& -(q.rg ra)) ∧
  runs (.ffs sl gd rd ra) (res 2 fun q => ffs (q.rg ra)) ∧
  runs (.popc sl gd rd ra) (res 2 fun q => popc (q.rg ra)) ∧
  runs (.mul sl gd rd ra rb) (res 4 fun q => q.rg ra * q.rg rb)

/-- The compares (R138) write the predicate that RD[1:0] names, and NOP writes nothing. -/
def Obligations.ComparesWriteTheirPredicate : Prop :=
  ∀ (sl : BitVec 3) (gd rd ra rb : BitVec 4) (imm : SWord) (s : State),
  let runs := fun (c : Instr) (t : State) => Issues c sl gd s → exec c s = .next t
  let res := fun (v : Seq → Bool) => s.updSeq sl.toNat (seqStep false 1 (laterP rd v))
  runs (.nop sl gd) (s.updSeq sl.toNat (seqStep false 1 id)) ∧
  runs (.cmpeq sl gd rd ra rb) (res fun q => q.rg ra == q.rg rb) ∧
  runs (.cmpltu sl gd rd ra rb) (res fun q => (q.rg ra).ult (q.rg rb)) ∧
  runs (.cmpeqi sl gd rd ra imm) (res fun q => q.rg ra == imm) ∧
  runs (.cmpltui sl gd rd ra imm) (res fun q => (q.rg ra).ult imm) ∧
  runs (.tstz sl gd rd ra rb) (res fun q => (q.rg ra &&& q.rg rb) == 0)

/-- Loads, stores and jumps (R132, R138, R139, R140, R142, R152): LD reads data memory after three clocks, and one whose word fails parity counts and
logs the error, repairs the word from the image and ends its event by a fault; ST and STI write one word and nothing else, IFLUSH empties the fetch
buffer; a branch outside a delay slot sets the target that follows its delay slot, and JAL links its address plus 2. Of an event that a load waits for,
or whose victim choice then falls back, the parity clause speaks where the slice's sequencer is free afterwards. -/
def Obligations.MemoryAndJumpInstructionsGiveTheirResults : Prop :=
  ∀ (sl : BitVec 3) (gd rd ra rb : BitVec 4) (imm : SWord) (s : State),
  let runs := fun (c : Instr) (t : State) => Issues c sl gd s → exec c s = .next t
  runs (.ld sl gd rd ra imm false) (s.updSeq sl.toNat (seqStep false 1 (later rd 3 fun q => NMap.get 0 q.dmem ((q.rg ra + imm).toNat % 8192)))) ∧
  (Issues (.ld sl gd rd ra imm false) sl gd s → ∀ e, (s.seq sl.toNat).run = some e →
    let q := (s.seq sl.toNat).land
    let a := (q.rg ra + imm).toNat % 8192
    let u := seqFault sl.toNat 0x20 (seqParity sl.toNat a true (s.updSeq sl.toNat (fun _ => { q with
      issued := q.issued + 1, lastIssue := q.clk, fresh := false, target := none, slot := false, dmem := NMap.set 0 q.dmem a (imageWord s a) })))
    (e.kind ≠ 0 → e.kind ≠ 4 → polCmd s = none → exec (.ld sl gd rd ra imm true) s = .next (rowEnd s u)) ∧
    ((u.seq sl.toNat).run = none → exec (.ld sl gd rd ra imm true) s = .next (rowEnd s u))) ∧
  runs (.st sl gd ra rb imm) (s.updSeq sl.toNat (seqStep false 1 fun q => { q with
    dmem := NMap.set 0 q.dmem ((q.rg ra + imm).toNat % 8192) (q.rg rb) })) ∧
  runs (.sti sl gd rd ra rb imm) (s.updSeq sl.toNat (seqStep false 1 fun q => { q with
    imem := NMap.set 0 q.imem ((q.rg ra + imm).toNat % 2048) ((q.rg rb).setWidth 32 ++ (q.rg rd).setWidth 32) })) ∧
  ((s.seq sl.toNat).slot = false →
    runs (.iflush sl gd) (s.updSeq sl.toNat (seqStep false 4 fun q => { q with fbuf := none })) ∧
    runs (.br sl gd imm) (s.updSeq sl.toNat (seqStep true 1 fun q => { q with target := some (imm.setWidth 11) })) ∧
    runs (.jr sl gd ra) (s.updSeq sl.toNat (seqStep true 1 fun q => { q with target := some ((q.rg ra).setWidth 11) })) ∧
    runs (.jal sl gd rd imm) (s.updSeq sl.toNat (seqStep true 1 fun q =>
      { later rd 1 (fun q => BitVec.ofNat 40 (q.pc.toNat + 2)) q with target := some (imm.setWidth 11) })))

/-- An instruction issues only in a running event below its limit (R140), and only where the fetched word spells it; a word with an undefined opcode
faults (R138, R140). One whose guard does not hold writes nothing and takes one clock (R137); one that may not stand in a delay slot and executes
there faults (R139, R140). The model's own choices among these: a first DONE under the default image stands for its handler, whatever the word (log 6);
a branch, DONE or IFLUSH whose guard does not hold does not fault in a delay slot, and the instruction after a branch stands in one whether the branch's
guard held or not (log 86); a word with an undefined opcode faults whatever its guard (log 101); a row that the word does not spell changes nothing
(log 59). -/
def Obligations.SequencerInstructionGates : Prop :=
  ∀ (c : Instr) (sl : BitVec 3) (gd : BitVec 4) (k : IKind) (s : State), seqRow c = some (sl, gd, k) →
  let w := (s.seq sl.toNat).word
  ((s.seq sl.toNat).run = none → exec c s = .next s) ∧
  (∀ e, (s.seq sl.toNat).run = some e →
    (evLimit e ≤ (s.seq sl.toNat).issued → exec c s = .next s) ∧
    (s.sliceOff = false → (s.seq sl.toNat).issued < evLimit e →
      (standsIn s sl.toNat k = false → seqDecode sl w = none →
        exec c s = .next (rowEnd s (seqFault sl.toNat (nbits w 63 56) (s.updSeq sl.toNat Seq.land)))) ∧
      (standsIn s sl.toNat k = false → ∀ j, seqDecode sl w = some j → j ≠ asWord c → exec c s = .next s) ∧
      (standsIn s sl.toNat k = true ∨ seqDecode sl w = some (asWord c) →
        ((s.seq sl.toNat).land.guard gd = false → exec c s = .next (s.updSeq sl.toNat (seqStep k.branch 1 id))) ∧
        ((s.seq sl.toNat).land.guard gd = true → k.noSlot = true → (s.seq sl.toNat).slot = true →
          exec c s = .next (rowEnd s (seqFault sl.toNat k.op (s.updSeq sl.toNat Seq.land)))))))

/-- DONE ends an event that does not stand for the default image's handler (R148; log 6): the sequencer is free, the set's REPL is written from the
frame, a victim event gives the way it names, or the fallback where the result is late, declined or no eligible way (R150), and an INIT counts as ended
(R158). EMIT adds a next-line candidate with the region of the missing line, up to four in an event; a fifth is ignored and counted in EMIT_LIMIT, and
neither changes anything else (R143). Of a victim, an INIT or an event that a load waits for, the DONE clause speaks where the slice's sequencer is free
afterwards. -/
def Obligations.DoneAndEmitEndAndExtendTheEvent : Prop :=
  ∀ (sl : BitVec 3) (gd ra rb : BitVec 4) (imm : SWord) (e : SeqEv) (s : State), (s.seq sl.toNat).run = some e →
  let n := sl.toNat
  let q := (s.seq n).land
  (Issues (.done sl gd ra rb imm) sl gd s → (s.seq n).slot = false → ¬(defaultOn s = true ∧ (s.seq n).issued = 0) →
    let v := putRepl n e.set (newRepl q (bit imm 0) (q.rg rb)) (s.updSeq n (fun _ => { q with lastIssue := q.clk }.ended))
    (e.kind ≠ 0 → e.kind ≠ 4 → polCmd s = none → exec (.done sl gd ra rb imm) s = .next (rowEnd s v)) ∧
    (e.kind = 0 → let u := polWait (victimResult n e (q.rg ra) (q.clk + 1) v)
      (u.seq n).run = none → exec (.done sl gd ra rb imm) s = .next (rowEnd s u)) ∧
    (e.kind = 4 → let u := initEnd n true v
      (u.seq n).run = none → exec (.done sl gd ra rb imm) s = .next (rowEnd s u)) ∧
    (e.kind ≠ 0 → e.kind ≠ 4 → (polWait v |>.seq n).run = none → exec (.done sl gd ra rb imm) s = .next (rowEnd s (polWait v)))) ∧
  (∀ (r : SWord) (now : Nat), e.late = false →
    (e.d + 24 < now → victimResult n e r now s = victimFallback n 5 e s) ∧
    (now ≤ e.d + 24 → bit r 4 = true → victimResult n e r now s = victimFallback n 7 e s) ∧
    (now ≤ e.d + 24 → bit r 4 = false →
      (nbits r 3 0 ≤ 13 → (eligBy s e.pmask e.set (e.fillKind = 2)).testBit (nbits r 3 0) = true →
        victimResult n e r now s = victimGive n e (some (nbits r 3 0)) s) ∧
      (13 < nbits r 3 0 ∨ (eligBy s e.pmask e.set (e.fillKind = 2)).testBit (nbits r 3 0) = false →
        victimResult n e r now s = victimFallback n 6 e s))) ∧
  (Issues (.emit sl gd ra) sl gd s → ∃ t, exec (.emit sl gd ra) s = .next t ∧
    let l := q.rg ra
    ((s.seq n).emits < 4 → { t with slices := s.slices } = s ∧ ∀ m, t.slice m = { s.slice m with
      seq := if m = n then seqStep false 1 (fun q => { q with emits := q.emits + 1 }) (s.seq n) else (s.slice m).seq
      nl := (s.slice m).nl ++ if m = homeSlice l then
        [(l, (match s.coverNew e.line with | some (i, _) => i | none => 1024), e.port.toNat, e.cls.setWidth 3)] else [] }) ∧
    (4 ≤ (s.seq n).emits → t = cntPol 12 1 (s.updSeq n (seqStep false 1 id))))

/-- The default policy (R113-R115, R156): the walk of its tree reaches an eligible way; with every way eligible it reaches a way that was weakly
inserted and not one that was touched. With the default image in force a DONE as the first instruction of a hit or a fill stands for that image's
handler of five instructions (the model's choice, log 6): the sequencer is free after it and the set's REPL is the updated tree, zero above it. -/
def Obligations.DefaultPolicyFollowsItsTree : Prop :=
  (∀ (r : BitVec 13) (el : BitVec 14), el ≠ 0 → ∃ w, w < 14 ∧ treeWalk r el = BitVec.ofNat 14 (2 ^ w) ∧ el.getLsbD w = true) ∧
  (∀ (r : BitVec 13) (w : Nat), w < 14 →
    treeWalk (treePoint true w r) 0x3FFF = BitVec.ofNat 14 (2 ^ w) ∧ treeWalk (treePoint false w r) 0x3FFF ≠ BitVec.ofNat 14 (2 ^ w)) ∧
  ∀ (sl : BitVec 3) (gd ra rb : BitVec 4) (imm : SWord) (e : SeqEv) (s : State), s.sliceOff = false → (s.seq sl.toNat).run = some e →
    (s.seq sl.toNat).land.guard gd = true → (s.seq sl.toNat).slot = false → defaultOn s = true → (s.seq sl.toNat).issued = 0 → e.kind = 1 ∨ e.kind = 2 → polCmd s = none →
    exec (.done sl gd ra rb imm) s = .next (rowEnd s (putRepl sl.toNat e.set
      (defaultRepl e.kind.toNat e.fillKind.toNat e.way.toNat ((NMap.get 0 (s.seq sl.toNat).land.dmem 8).setWidth 13))
      (s.updSeq sl.toNat (fun q => { q.land with lastIssue := q.land.clk, clk := q.land.clk + 4 }.ended))))

/-- A free sequencer starts its next event (R144-R147): the frame stands in data memory words 0 to 15, the entry's first instruction issues one
clock after it; an event past its limit is aborted and counted (R140); at D + 24 a victim choice not yet given takes the fallback (R150). -/
def Obligations.SequencerEventsStartAndEnd : Prop := ∀ (sl : BitVec 3) (s : State), s.sliceOff = false →
  (∀ e vq uq gone, (s.seq sl.toNat).run = none → nextEvent s sl.toNat = (some e, vq, uq, gone) → e.kind ≠ 4 →
    let f := max e.d (s.seq sl.toNat).lastEnd + 1
    let fr := frameWords (cntPol 8 gone s) e f
    exec (.seqEventStart sl 0) s = .next (rowEnd s ((cntPol e.kind.toNat 1 (cntPol 8 gone s)).updSeq sl.toNat (fun q =>
      let q : Seq := { q with
        vq := vq, uq := uq, run := some e, pend := [], target := none, slot := false, issued := 0, emits := 0, clk := f + 1
        lastIssue := f + 1, fresh := false, pc := (NMap.get 0 s.pol.entry e.kind.toNat).setWidth 11
        g := NMap.set 0 (NMap.set 0 (NMap.set 0 q.g 1 (fr.getD 0 0)) 2 (fr.getD 3 0)) 3 (fr.getD 8 0)
        dmem := (List.range 16).foldl (fun m k => NMap.set 0 m k (fr.getD k 0)) q.dmem }
      { q with fbuf := q.fetch q.pc })))) ∧
  (∀ e, (s.seq sl.toNat).run = some e → evLimit e ≤ (s.seq sl.toNat).issued →
    exec (.seqWatchdog sl) s = .next (rowEnd s (seqAbort sl.toNat (cntPol 9 1 (s.updSeq sl.toNat (fun q => { q with clk := q.lastIssue })))))) ∧
  (∀ e, (s.seq sl.toNat).run = some e → e.kind = 0 → e.late = false →
    exec (.victimDeadline sl) s = .next (rowEnd s (victimFallback sl.toNat 5 e (s.updSeq sl.toNat (fun q => { q with run := some { e with late := true } }))))) ∧
  (∀ v rest, (s.seq sl.toNat).run = none → (s.seq sl.toNat).vq = v :: rest →
    exec (.victimDeadline sl) s = .next (rowEnd s (victimFallback sl.toNat 5 v (s.updSeq sl.toNat (fun q => { q with vq := rest })))))

/-- Decoding the word of a sequencer instruction gives the instruction back, with every operand at every value (R134, R138); a parity error of
a load is no part of its word. -/
def Obligations.SequencerWordsDecodeBack : Prop :=
  ∀ (c : Instr) (sl : BitVec 3) (gd : BitVec 4) (k : IKind) (w : BitVec 64), seqRow c = some (sl, gd, k) → seqEncode c = some w →
    (∀ rd ra imm, c ≠ .ld sl gd rd ra imm true) → seqDecode sl w = some c

/-! ### Walkan messages and the link layer -/

/-- REQ messages on an open port (R178, R187): each takes one REQ credit and joins its port's receive buffer behind those before it; what may
be taken is taken at once. -/
def Obligations.RequestsJoinTheirPortsBuffer : Prop := ∀ (port : BitVec 4) (h : Slot) (s : State),
  s.off = false → s.mode ≠ 4 → port.toNat < s.nPorts → (s.port port.toNat).open_ = true → 0 < NMap.get 0 (s.port port.toNat).rxCr 0 →
  let got := fun (op : Nat) => rowEnd s (s.updPort port.toNat (fun q => { q with
    rxReq := q.rxReq ++ [⟨putBits h 0 8 op, 0, 0, false⟩], rxCr := NMap.set 0 q.rxCr 0 (NMap.get 0 (s.port port.toNat).rxCr 0 - 1)
    fenceAt := if op = 0x19 then q.fenceAt ++ [s.nextId] else q.fenceAt }))
  exec (.readShared port h) s = .next (got 0x10) ∧ exec (.readOwn port h) s = .next (got 0x11) ∧ exec (.readOnce port h) s = .next (got 0x12) ∧
  exec (.upgrade port h) s = .next (got 0x13) ∧ exec (.writeInvFull port h) s = .next (got 0x14) ∧ exec (.writeInvPartial port h) s = .next (got 0x15) ∧
  exec (.writeStash port h) s = .next (got 0x16) ∧ exec (.readDev port h) s = .next (got 0x17) ∧ exec (.writeDev port h) s = .next (got 0x18) ∧
  exec (.fence port h) s = .next (got 0x19)

/-- Sound snoop answers, acknowledgements, evictions, stash answers and write data take their effect (R190, R191, R194, R195, R197, R198, R214), each where
the transaction or the directory entry it answers is there. A second answer to a snoop and one that does not fit it are unexpected responses (R202; that an
answer R190 does not list for the snoop is one is the model's choice of log 90); an eviction from a port that the directory does not record, or of a line
that no entry covers, is answered with Comp and logged as stale (R35, R219). SnpData with a GRANT goes to the requester that the snoop named. -/
def Obligations.SoundAnswersTakeTheirEffect : Prop := ∀ (port : BitVec 4) (h mask : Slot) (d : Line) (f : DirFault) (s : State),
  let p := port.toNat
  let m := fun (op : Nat) => putBits h 0 8 op
  let u := fun (op : Nat) => answerIn p (m op) mask d s
  let l := fun (op : Nat) => Hd.line (m op)
  let v := dirUpset (Hd.line h) f s
  (∀ t, answerSound p (m 0x61) s = true → (s.slice (homeSlice (l 0x61))).tt.find? (fun t => t.line = l 0x61 && t.grant = some p) = some t →
    exec (.compAck port h) s = .next (rowEnd s (compAck p (m 0x61) (answerIn p (m 0x61) 0 0 s)))) ∧
  (∀ sl t op, answerSound p (m 0x62) s = true → snoopOn s p (l 0x62) = some (sl, t, op) → t.noFill || t.fwd →
    exec (.rspI port h) s = .next (rowEnd s (badAnswer p 4 (m 0x62) (answerIn p (m 0x62) 0 0 s)))) ∧
  (∀ sl t op, answerSound p (m 0x62) s = true → snoopOn s p (l 0x62) = some (sl, t, op) → t.noFill = false → t.fwd = false →
    exec (.rspI port h) s = .next (rowEnd s (snoopIn sl t p (dirDrop p t.line (answerIn p (m 0x62) 0 0 s))))) ∧
  (∀ sl t op, answerSound p (m 0x63) s = true → snoopOn s p (l 0x63) = some (sl, t, op) → t.noFill = false → t.fwd = false → op = 0x40 ∨ op = 0x42 →
    exec (.rspS port h) s = .next (rowEnd s (snoopIn sl t p (dirShare t.line (answerIn p (m 0x63) 0 0 s))))) ∧
  (∀ sl t op, answerSound p (m 0x63) s = true → snoopOn s p (l 0x63) = some (sl, t, op) → t.noFill || t.fwd || (op ≠ 0x40 && op ≠ 0x42) →
    exec (.rspS port h) s = .next (rowEnd s (badAnswer p 4 (m 0x63) (answerIn p (m 0x63) 0 0 s)))) ∧
  (∀ sl t op, answerSound p (m 0x64) s = true → snoopOn s p (l 0x64) = some (sl, t, op) → op = 0x42 ∨ op = 0x43 → t.fwd = false →
    let v := updTxn sl t.id (fun u => { u with fwd := true }) (if op = 0x43 then dirDrop p t.line (answerIn p (m 0x64) 0 0 s) else answerIn p (m 0x64) 0 0 s)
    exec (.rspFwd port h) s = .next (rowEnd s (if t.noFill then snoopIn sl t p v else v))) ∧
  (∀ sl t op, answerSound p (m 0x64) s = true → snoopOn s p (l 0x64) = some (sl, t, op) → (op ≠ 0x42 && op ≠ 0x43) || t.fwd →
    exec (.rspFwd port h) s = .next (rowEnd s (badAnswer p 4 (m 0x64) (answerIn p (m 0x64) 0 0 s)))) ∧
  (let u := dirFix (l 0x65) (dirMeet p (l 0x65) (answerIn p (m 0x65) 0 0 v));
    answerSound p (m 0x65) v = true →
    ((u.dirOf (l 0x65)).holders.testBit p = true →
      exec (.evictNote port ⟨h, f⟩) s = .next (rowEnd v (evictUp (l 0x65) none (evictComp p (m 0x65) (dirDrop p (l 0x65) u))))) ∧
    ((u.dirOf (l 0x65)).holders.testBit p = false →
      exec (.evictNote port ⟨h, f⟩) s = .next (rowEnd v (evictComp p (m 0x65) (stale p (m 0x65) u))))) ∧
  (∀ sl t, answerSound p (m 0x66) s = true → offerOn s p (l 0x66) = some (sl, t) →
    exec (.stashDecline port h) s = .next (rowEnd s (kick sl (stashOver sl t (answerIn p (m 0x66) 0 0 s))))) ∧
  (∀ x, answerSound p (m 0x6A) s = true → offerOn s p (l 0x6A) = some x →
    exec (.stashAccept port h) s = .next (rowEnd s (stashAccept p (m 0x6A) (answerIn p (m 0x6A) 0 0 s)))) ∧
  (∀ sl t op, answerSound p (m 0x88) s = true → snoopOn s p (l 0x88) = some (sl, t, op) → Hd.grant (m 0x88) = 0 → t.fwd = false →
      t.noFill = false → op ≠ 0x43 ∨ (s.port p).cfg.peerHub ≠ 0 →
    exec (.snpData port h d) s = .next (rowEnd s (snpToHub sl p op t (m 0x88) d (answerIn p (m 0x88) 0 d s)))) ∧
  (∀ sl t op, answerSound p (m 0x88) s = true → forAgent s p (m 0x88) = false → snoopOn s p (l 0x88) = some (sl, t, op) → Hd.grant (m 0x88) ≠ 0 →
    ((t.noFill || !grantFits op (Hd.grant (m 0x88)) || decide (Hd.dst (m 0x88) ≠ Hd.src t.h)) = false →
      exec (.snpData port h d) s = .next (rowEnd s (snpRouted sl p t (m 0x88) d (answerIn p (m 0x88) 0 d s)))) ∧
    ((t.noFill || !grantFits op (Hd.grant (m 0x88)) || decide (Hd.dst (m 0x88) ≠ Hd.src t.h)) = true →
      exec (.snpData port h d) s = .next (rowEnd s (badAnswer p 4 (m 0x88) (answerIn p (m 0x88) 0 d s))))) ∧
  (∀ sl t op, answerSound p (m 0x88) s = true → snoopOn s p (l 0x88) = some (sl, t, op) → Hd.grant (m 0x88) = 0 → t.fwd || t.noFill →
      exec (.snpData port h d) s = .next (rowEnd s (badAnswer p 4 (m 0x88) (answerIn p (m 0x88) 0 d s)))) ∧
  (let u := dirFix (l 0x89) (dirMeet p (l 0x89) (answerIn p (m 0x89) 0 d v));
    answerSound p (m 0x89) v = true →
    exec (.wbData port ⟨h, f⟩ d) s = .next (rowEnd v (wbData p (m 0x89) d (answerIn p (m 0x89) 0 d v))) ∧
    (u.uncovered (l 0x89) = true ∨ ((u.dirOf (l 0x89)).holders.testBit p = false ∧ unresolvedOn u (l 0x89) = none) →
      exec (.wbData port ⟨h, f⟩ d) s = .next (rowEnd v (evictComp p (m 0x89) (stale p (m 0x89) (dropSilent p (m 0x89) u)))))) ∧
  (let u := dirFix (l 0x8A) (dirMeet p (l 0x8A) (answerIn p (m 0x8A) 0 d v));
    answerSound p (m 0x8A) v = true →
    exec (.evictOffer port ⟨h, f⟩ d) s = .next (rowEnd v (evictOffer p (m 0x8A) d (answerIn p (m 0x8A) 0 d v))) ∧
    (u.uncovered (l 0x8A) = true ∨ (u.dirOf (l 0x8A)).holders.testBit p = false →
      exec (.evictOffer port ⟨h, f⟩ d) s = .next (rowEnd v (evictComp p (m 0x8A) (stale p (m 0x8A) u))))) ∧
  (∀ x, answerSound p (m 0x8B) s = true → pullOn s p (Hd.tag (m 0x8B)) = some x →
    exec (.wrData port h d) s = .next (rowEnd s (wrData p (m 0x8B) fullMask d (answerIn p (m 0x8B) 0 d s)))) ∧
  (∀ x, answerSound p (m 0x8C) s = true → pullOn s p (Hd.tag (m 0x8C)) = some x →
    exec (.wrDataPtl port h mask d) s = .next (rowEnd s (wrData p (m 0x8C) mask d (u 0x8C))))

/-- Messages from the hub nearer home that stand no check and behind no held message (R181, R189-R191, R200, R234-R237): a snoop opens its line, Data and SnpData bring the upward request of
their TAG its grant, Comp and WrPull go on with the write or eviction of theirs, FenceDone and FrozenAbort end what they answer, and a StashOffer is answered
with StashDecline. -/
def Obligations.HubMessagesTakeTheirEffect : Prop := ∀ (port : BitVec 4) (h : Slot) (d : Line) (f : DirFault) (s : State),
  let p := port.toNat
  let m := fun (op : Nat) => putBits h 0 8 op
  let u := fun (op : Nat) (d : Line) => hubIn p (m op) d s
  let v := dirUpset (Hd.line h) f s
  (hubSound p (m 0x40) v = true → exec (.snpShared port ⟨h, f⟩) s = .next (rowEnd v (homeSnoop p (m 0x40) (hubIn p (m 0x40) 0 v)))) ∧
  (hubSound p (m 0x41) v = true → exec (.snpInv port ⟨h, f⟩) s = .next (rowEnd v (homeSnoop p (m 0x41) (hubIn p (m 0x41) 0 v)))) ∧
  (hubSound p (m 0x42) v = true → exec (.snpFwdShared port ⟨h, f⟩) s = .next (rowEnd v (homeSnoop p (m 0x42) (hubIn p (m 0x42) 0 v)))) ∧
  (hubSound p (m 0x43) v = true → exec (.snpFwdOwn port ⟨h, f⟩) s = .next (rowEnd v (homeSnoop p (m 0x43) (hubIn p (m 0x43) 0 v)))) ∧
  (hubSound p (m 0x44) s = true → exec (.stashOffer port h) s = .next (rowEnd s (tx p (Hd.mk 0x66 s.links.base (s.peer p) (Hd.tag (m 0x44)) (Hd.line (m 0x44)) 0 0) 0
    (u 0x44 0)))) ∧
  (hubSound p (m 0x80) s = true → exec (.dataS port h d) s = .next (rowEnd s (upData p (m 0x80) d (u 0x80 d)))) ∧
  (hubSound p (m 0x81) s = true → exec (.dataF port h d) s = .next (rowEnd s (upData p (m 0x81) d (u 0x81 d)))) ∧
  (hubSound p (m 0x82) s = true → exec (.dataE port h d) s = .next (rowEnd s (upData p (m 0x82) d (u 0x82 d)))) ∧
  (hubSound p (m 0x83) s = true → exec (.dataM port h d) s = .next (rowEnd s (upData p (m 0x83) d (u 0x83 d)))) ∧
  (hubSound p (m 0x84) s = true → exec (.dataNc port h d) s = .next (rowEnd s (upData p (m 0x84) d (u 0x84 d)))) ∧
  (hubSound p (m 0x88) s = true → exec (.snpData port h d) s = .next (rowEnd s (upData p (m 0x88) d (u 0x88 d)))) ∧
  (hubSound p (m 0x60) s = true → exec (.comp port h) s = .next (rowEnd s (upComp p (m 0x60) (u 0x60 0)))) ∧
  (hubSound p (m 0x68) s = true → exec (.fenceDone port h) s = .next (rowEnd s (upFence p (Hd.tag (m 0x68)) (decide (Hd.status (m 0x68) ≠ 0)) (u 0x68 0)))) ∧
  (hubSound p (m 0x69) s = true → exec (.wrPull port h) s = .next (rowEnd s (upPull p (m 0x69) (u 0x69 0)))) ∧
  (hubSound p (m 0x67) s = true → exec (.frozenAbort port h) s = .next (rowEnd s (upFrozen p (m 0x67) (u 0x67 0))))

/-- LINK messages and the timers of a link (R163, R170, R172-R179, R205, R507): in initialisation the peer's LInitParam is checked for revision, identity and
credits, its credits are taken once and LInitAck answers it, and the port is up when both sides have acknowledged revision 1; otherwise the port is held
down. A retry request for a flit of the replay buffer is answered from there, for the next flit with nothing, and for any other by Recovery. A port trains
at a rate within MAX_RATE and its cap, with the configuration stored last. That a port which is up ignores LInitParam is the model's choice (log 111). -/
def Obligations.LinkMessagesAndTimersTakeTheirEffect : Prop := ∀ (port : BitVec 4) (h : Slot) (rate : BitVec 2) (width : Byte) (s : State), s.off = false →
  let p := port.toNat
  let q := s.port p
  let par := putBits h 0 8 0xF0
  let ack := bits (putBits h 0 8 0xF1) 15 8
  let e := bits (putBits h 0 8 0xF2) 23 8
  let got := s.updPort p (fun q => { q with peerId := bits par 43 26, peerSize := bits par 127 110 })
  let cr := fun (l : List Nat) => (l.zip (List.range 4)).foldl (fun (m : NMap Nat) x => NMap.set 0 m x.2 x.1) []
  let ackOk := nbits (putBits h 0 8 0xF1) 127 16 = 0
  let reqOk := nbits (putBits h 0 8 0xF2) 127 24 = 0
  (¬ackOk → q.link = 2 ∨ (q.open_ = true ∧ q.inRec = false) →
    exec (.lInitAck port h) s = .next (rowEnd s (resetDone p (badAnswer p 3 (putBits h 0 8 0xF1) s)))) ∧
  (¬reqOk → q.open_ = true → q.inRec = false → exec (.lRetryReq port h) s = .next (rowEnd s (resetDone p (badAnswer p 3 (putBits h 0 8 0xF2) s)))) ∧
  (q.link = 2 →
    (bit par 8 = false → exec (.lInitParam port h) s = .next (rowEnd s (holdPort p 1 got))) ∧
    (bit par 8 = true → identOk got p par = false → exec (.lInitParam port h) s = .next (rowEnd s (holdPort p 2 got))) ∧
    (bit par 8 = true → identOk got p par = true → minsOk got p par = false → exec (.lInitParam port h) s = .next (rowEnd s (holdPort p 3 got))) ∧
    (bit par 8 = true → identOk got p par = true → minsOk got p par = true → q.gotParam = false →
      exec (.lInitParam port h) s = .next (rowEnd s (initDone p (txLink p initAck (got.updPort p (fun r => { r with
        gotParam := true, rev := 1, txCr := cr [nbits par 73 62, nbits par 85 74, nbits par 97 86, nbits par 109 98]
        rxCr := cr [512, if q.cfg.peerHub = 1 then 512 else 0, 512, 2304] })))))) ∧
    (bit par 8 = true → identOk got p par = true → minsOk got p par = true → q.gotParam = true →
      exec (.lInitParam port h) s = .next (rowEnd s (initDone p (txLink p initAck got)))) ∧
    (ackOk → ack = 1 → exec (.lInitAck port h) s = .next (rowEnd s (initDone p (s.updPort p (fun q => { q with gotAck := some 1 }))))) ∧
    (ackOk → ack ≠ 1 → exec (.lInitAck port h) s = .next (rowEnd s (holdPort p 1 (s.updPort p (fun q => { q with gotAck := some ack }))))) ∧
    exec (.lInitParamResend port) s = .next (rowEnd s (txLink p (initParam s p) s)) ∧
    exec (.initTimeout port) s = .next (rowEnd s (holdPort p 5 s))) ∧
  (q.link ≠ 2 → exec (.lInitParam port h) s = .next (rowEnd s s) ∧ (ackOk → exec (.lInitAck port h) s = .next (rowEnd s s))) ∧
  (q.open_ = true → q.inRec = false → reqOk →
    (q.replay.any (fun x => x.1 = e) = true → q.replayFrom ≠ some e → exec (.lRetryReq port h) s = .next (rowEnd s (replayFrom p e s))) ∧
    (q.replay.any (fun x => x.1 = e) = true → q.replayFrom = some e → exec (.lRetryReq port h) s = .next (rowEnd s s)) ∧
    (q.replay.any (fun x => x.1 = e) = false → e = q.txSeq → exec (.lRetryReq port h) s = .next (rowEnd s s)) ∧
    (q.replay.any (fun x => x.1 = e) = false → e ≠ q.txSeq → exec (.lRetryReq port h) s = .next (rowEnd s (recovery p s)))) ∧
  (q.open_ = true → q.inRec = false →
    (q.inRetry = true → exec (.lretryReqRepeat port) s = .next (rowEnd s (txLink p (retryReq q.rxE) s))) ∧
    (∀ x rest, q.replay = x :: rest →
      exec (.ackTimeout port) s = .next (rowEnd s (replayFrom p x.1 (s.updPort p (fun q => { q with ackTimeouts := q.ackTimeouts + 1 })))))) ∧
  (q.inRec = true → exec (.phyRecoveryEnd port true) s =
    .next (rowEnd s (recompute (flowCredits p (flushTx p (s.updPort p (fun q => { q with inRec := false, replayFrom := none }))))))) ∧
  (q.inRec = true → exec (.phyRecoveryEnd port false) s = .next (rowEnd s (linkDown p s))) ∧
  (q.link = 1 → width = 4 ∨ width = 8 → rate.toNat ≤ q.cfg.maxRate.toNat → rate.toNat ≤ q.rateCap.toNat →
    (q.cfgNext.enable = true → exec (.portL0Reached port rate width) s = .next (rowEnd s (startInit p rate width s))) ∧
    (q.cfgNext.enable = false → exec (.portL0Reached port rate width) s = .next (rowEnd s (resetDone p (trainPort p s))))) ∧
  (q.link = 4 → q.hold = 5 → q.cfg.enable = true → exec (.initRetry port) s = .next (rowEnd s (s.updPort p (fun q => { q with
    cfg := q.cfgNext, link := if q.cfgNext.enable then 1 else 0, hold := 0 })))) ∧
  (q.link = 1 → exec (.widthFailed port) s = .next (rowEnd s (holdPort p 4 s)))

/-- A flit on an open link (R166-R171, R178): one whose CRC fails is counted and asks for a retry; a control flit gives its credits and ACK and its
LINK messages; the flit of the expected sequence number advances it and delivers its slots, and its ACK goes back; a flit of another number is dropped after its
credits and ACK.
That slots of a control flit which hold no LINK message are ignored (log 51), and which IDLE flits are shown (log 97), is the model's
choice. -/
def Obligations.FlitsAreDeliveredInSequence : Prop := ∀ (port : BitVec 4) (f : Flit) (s : State),
  let p := port.toNat
  s.off = false → p < s.nPorts → (s.port p).open_ = true → (s.port p).inRec = false →
  let good := (crc64 (leBytes 248 (nbits f 1983 0))).toNat = nbits f 2047 1984
  let t := ackIn p (bits f 1983 1968) (creditsIn p f s)
  (¬good → exec (.flitReceived port f) s = .next (rowEnd s (txLink p (retryReq (s.port p).rxE)
    (monPort p 4 1 (s.updPort p (fun q => { q with crcErrors := q.crcErrors + 1, inRetry := true })))))) ∧
  (good → bits f 1967 1952 = (0xFFFF : BitVec 16) → exec (.flitReceived port f) s = .next (rowEnd s ((List.range 15).foldl (fun s i =>
    if 0xF0 ≤ Hd.op (slotOf f i) then linkIn p (slotOf f i) s else s) t))) ∧
  (good → bits f 1967 1952 ≠ (0xFFFF : BitVec 16) → bits f 1967 1952 = (t.port p).rxE → (t.port p).open_ = true →
    let u := (List.range 15).foldl (fun s i => slotIn p (slotOf f i) s) (monPort p 2 1 (t.updPort p (fun q => { q with rxE := seqNext q.rxE, inRetry := false })))
    exec (.flitReceived port f) s = .next (rowEnd s (if (u.port p).open_ && !(u.port p).inRec then ctrlFlit p 0 u else u))) ∧
  (good → bits f 1967 1952 ≠ (0xFFFF : BitVec 16) → bits f 1967 1952 ≠ (t.port p).rxE → exec (.flitReceived port f) s = .next (rowEnd s t))

/-! ### Slices, far memory, prefetching and walks -/

/-- The rows of a slice whose clock runs (R74, R75, R213, R216, R338, R348): a lookup takes a walk's line that is due before any request, otherwise the
oldest request of the next port in turn, and leaves it where it is when it would find the line-conflict queue full; how the 8 clocks between two walk
lines are counted is the model's choice (log 92); a queued line resumes once it is closed and has a TT entry, a parked set once it has a way; what
a memory controller returns goes to the transaction that waits for it; in REPLAY the recorded returns stand for it (R493). -/
def Obligations.SliceRowsServeTheirQueues : Prop := ∀ (sl : BitVec 3) (s : State), s.sliceOff = false →
  let n := sl.toNat
  let h := s.slice n
  (∀ f p i, ((List.range 12).map (fun k => (h.rr + 1 + k) % 12)).find? (fun p => h.inq.any (fun i => i.port = p)) = some p →
    h.inq.find? (fun i => i.port = p) = some i →
    let u := s.updSlice n (fun h => { h with inq := h.inq.erase i, rr := p, walkClk := min 8 (h.walkClk + 1) })
    walkDue s n = false →
    (2048 ≤ h.lineQ.length → stopsAt2 s n i = true → exec (.sliceLookup sl f) s = .next (rowEnd s (arbTick n s))) ∧
    (h.lineQ.length < 2048 ∨ stopsAt2 s n i = false → exec (.sliceLookup sl f) s = .next (rowEnd s (arbitrate n i (stepTwo n f i
      (capLookup n i (if stopsAt2 u n i then u else capTouch n i.port (Hd.line i.h) u))))))) ∧
  (∀ f, walkDue s n = true → exec (.sliceLookup sl f) s = .next (rowEnd s (walkVisit n [] f.dir s))) ∧
  (∀ f, walkDue s n = false → h.inq = [] → exec (.sliceLookup sl f) s = .next (rowEnd s (arbTick n s))) ∧
  (∀ (q : Queued) i, h.lineQ.find? (fun i => Hd.line i.h = q.line) = some i → i.walk = none → h.isOpen q.line = false → entReady s n i = true →
    exec (.lineQueueResume sl q) s = .next (rowEnd s (admitIn n i (lookFaults n q.fault i (s.updSlice n (fun h => { h with lineQ := h.lineQ.erase i })))))) ∧
  (∀ id, h.setQ.find? (fun i => match s.txn n i with | some t => wayRoom s n t | none => true) = some id →
    exec (.setQueueResume sl) s = .next (rowEnd s (run n id (updTxn n id (fun u => { u with ph := .start, queued := false })
      (s.updSlice n (fun h => { h with setQ := h.setQ.erase id })))))) ∧
  (s.mode = 4 → ∀ (id : Nat) (e : ErrPat), exec (.mcDataReturn id e) s = .next (rowEnd s s) ∧ exec (.mcWriteAccept id) s = .next (rowEnd s s)) ∧
  (s.mode ≠ 4 → ∀ (id : Nat) (e : ErrPat) (m : McReq), s.cache.mc.find? (fun m => m.id = id && m.kind ≠ .accept) = some m →
    let u := capMcData m e { s with cache.mc := s.cache.mc.filter (fun x => x.id ≠ id) }
    (m.kind = .tag → exec (.mcDataReturn id e) s = .next (rowEnd s (kick m.sl (tagReturn m e u)))) ∧
    (∀ w t, m.kind = .line w → u.txn m.sl m.txn = some t → t.ph = .lineRead → exec (.mcDataReturn id e) s = .next (rowEnd s (lineReturn m.sl t w (m.decoded e) u))) ∧
    (∀ l w, m.kind = .vict l w → exec (.mcDataReturn id e) s = .next (rowEnd s (victReturn m l w e u)))) ∧
  (s.mode ≠ 4 → ∀ (id : Nat) (m : McReq), s.cache.mc.find? (fun m => m.id = id && m.kind = .accept) = some m →
    exec (.mcWriteAccept id) s = .next (rowEnd s (kick m.sl (run m.sl m.txn (updTxn m.sl m.txn (fun u => { u with accepts := u.accepts - 1 })
      (capMcAccept m { s with cache.mc := s.cache.mc.filter (fun x => x.id ≠ id) }))))))

/-- Far completions, timeouts and link changes (R198, R208, R210, R248, R255, R353): each ends the request, snoop, offer or combining line
it is for; a completion later than its timeout is discarded and counted.
That FAR_LINK_STATE_CHANGE carries the link layer's retries, each logged
as FAR_LINK with count 1, is the model's choice (log 116). -/
def Obligations.CompletionsAndTimeoutsEndWhatTheyAreFor : Prop := ∀ s : State, s.off = false →
  (∀ id d psn q, s.mode ≠ 4 → s.links.reqs.find? (fun q => q.id = id && !q.write && !q.atIssue) = some q →
    exec (.farReadCompletion id (.data d psn)) s = .next (rowEnd s (farEnd q (.inr (d, psn)) s)) ∧
    exec (.farReadCompletion id .error) s = .next (rowEnd s (farEnd q (.inl 0) s))) ∧
  (∀ id q, s.mode ≠ 4 → s.links.reqs.find? (fun q => q.id = id && q.write && !q.atIssue) = some q →
    exec (.farWriteCompletion id true) s = .next (rowEnd s (farEnd q (.inr (0, false)) s)) ∧
    exec (.farWriteCompletion id false) s = .next (rowEnd s (farEnd q (.inl 0) s))) ∧
  (∀ id r, s.links.reqs.find? (fun q => q.id = id && !q.write && !q.atIssue) = none → s.links.late.contains id = true →
    exec (.farReadCompletion id r) s = .next (rowEnd s (cntErr 11 1 { s with links.late := s.links.late.erase id }))) ∧
  (∀ id q, s.mode ≠ 4 → s.links.reqs.find? (fun q => q.id = id && !q.atIssue) = some q →
    exec (.farTimeoutExpiry id) s = .next (rowEnd s (farEnd q (.inl 1) (farDead q.port { s with links.late := s.links.late ++ [id] })))) ∧
  (∀ (port : BitVec 4) line, awaited s port.toNat line = true → exec (.snpTimeoutExpiry port line) s = .next (rowEnd s (loseAgent port.toNat s))) ∧
  (∀ line t, (s.slice (homeSlice line)).tt.find? (fun t => t.line = line && t.offer) = some t →
    s.sliceOff = false → exec (.stashOfferExpiry line) s = .next (rowEnd s (kick (homeSlice line) (stashOver (homeSlice line) t s)))) ∧
  (∀ line, s.sliceOff = false → exec (.combineWindowExpiry line) s = .next (rowEnd s (closeCombines (fun b => b.line = line) s))) ∧
  (∀ (fp : BitVec 2) rate width, fp.toNat < s.nFar →
    let now := fun (up : Bool) => rowEnd s (recompute (s.updFar fp.toNat (fun f => { f with up := up, rate := rate, width := width })))
    exec (.farLinkStateChange fp .down rate width) s = .next (now false) ∧
    ((s.farP fp.toNat).up = true ∨ rate.toNat ≤ (s.farP fp.toNat).rateCap.toNat → exec (.farLinkStateChange fp .up rate width) s = .next (now true)) ∧
    ((s.farP fp.toNat).up = true → exec (.farLinkStateChange fp .retry rate width) s = .next (rowEnd s (logErr 0x0024 0 2 fp.toNat 0 0 1 s)))) ∧
  (∀ (ch : BitVec 5) (mult : BitVec 3), mult = 1 ∨ mult = 2 ∨ mult = 4 → ch.toNat < s.nChan →
    exec (.refreshRateChange ch mult) s = .next (rowEnd s (recompute { s with cache.refresh := NMap.set 1 s.cache.refresh ch.toNat mult.toNat })))

/-- Prefetch candidates go to their home slice, oldest first, behind a walk's line that is due and every REQ that is ready there (R75; log 92): dropped and counted, or a transaction of their own
(R116, R117, R120, R121); in REPLAY they come from the trace (R493); a tick ages the side buffers (R124). -/
def Obligations.PrefetchRowsIssueTheOldestCandidate : Prop := ∀ s : State, s.sliceOff = false →
  (∀ sl : BitVec 3, s.mode = 4 ∨ walkDue s sl.toNat = true ∨ nextReq s sl.toNat ≠ none → exec (.nextLineCandidate sl) s = .next (rowEnd s s)) ∧
  (∀ port : BitVec 4, s.mode = 4 → exec (.streamCandidateIssue port) s = .next (rowEnd s s)) ∧
  (∀ (port : BitVec 4) l i rest, (s.port port.toNat).cand = (l, i) :: rest → walkDue s (homeSlice l) = true ∨ nextReq s (homeSlice l) ≠ none →
    exec (.streamCandidateIssue port) s = .next (rowEnd s s)) ∧
  (∀ (sl : BitVec 3) l i p c rest, s.quiescing = false → s.mode ≠ 4 → walkDue s sl.toNat = false → nextReq s sl.toNat = none → (s.slice sl.toNat).nl = (l, i, p, c) :: rest →
    let u := capIn p sl.toNat (intDesc 0xC9 l.toNat 0 1) 0 [] (s.updSlice sl.toNat (fun h => { h with nl := rest, walkClk := min 8 (h.walkClk + 1) }))
    let v := dirMeet p l (monSys 1 1 ⟨none, some l, some c.toNat, none⟩ u)
    (candDropped v .nextLine l i p c.toNat = true → exec (.nextLineCandidate sl) s = .next (rowEnd s (cntPf 1 1 v))) ∧
    (candDropped v .nextLine l i p c.toNat = false → exec (.nextLineCandidate sl) s = .next (rowEnd s (candidate .nextLine l i p c.toNat u)))) ∧
  (∀ (port : BitVec 4) l i rest, s.quiescing = false → s.mode ≠ 4 → (s.port port.toNat).cand = (l, i) :: rest → walkDue s (homeSlice l) = false →
    nextReq s (homeSlice l) = none →
    let u := capIn port.toNat (homeSlice l) (intDesc 0xC9 l.toNat 0 0) 0 [] (arbTick (homeSlice l) (s.updPort port.toNat (fun q => { q with cand := rest })))
    let v := dirMeet port.toNat l (monSys 1 1 ⟨none, some l, some 1, none⟩ u)
    (candDropped v .stream l i port.toNat 1 = true → exec (.streamCandidateIssue port) s = .next (rowEnd s (cntPf 5 1 v))) ∧
    (candDropped v .stream l i port.toNat 1 = false → exec (.streamCandidateIssue port) s = .next (rowEnd s (candidate .stream l i port.toNat 1 u)))) ∧
  exec .sideBufferAgeTick s = .next (rowEnd s ((List.range 8).foldl (fun s sl => ageSlice sl s) s))

/-- The visits of walks, of the patrol and of the recovery of directory entries and lost sets (R40, R98, R101, R224, R371, R374, R377): each acts on
the next place that is its own; a patrol visit whose tag block cannot be decoded loses the set. -/
def Obligations.WalkRowsVisitTheirNextPlace : Prop := ∀ s : State, s.sliceOff = false →
  (∀ (sl : BitVec 3) e f k x, nextAgain s sl.toNat = some (k, x) → exec (.maintenanceWalkLine sl ⟨e, f⟩) s = .next (rowEnd s (visitAgain sl.toNat k x e s))) ∧
  (∀ (sl : BitVec 3) e f k i, s.walk = some k → nextAgain s sl.toNat = none →
    walkReady s sl.toNat k.cmd = some i →
    let n := sl.toNat
    let l := Hd.line i.h
    let v := dirFix l (dirMeet 20 l (dirUpset l f s))
    let sn := if k.recl then reclSnoops v k.op l else []
    let u := v.updSlice n (fun h => { h with lineQ := h.lineQ.erase i })
    (sn ≠ [] → exec (.maintenanceWalkLine sl ⟨e, f⟩) s =
      .next (rowEnd s (reclTxn n l sn false (updWalk k.cmd (fun k => { k with recs := k.recs ++ [v.nextId] }) v)))) ∧
    (sn = [] → v.combOf n l = none → v.cache.enabled = false →
      (∀ set w, walkPlace u k i = some (set, w) → exec (.maintenanceWalkLine sl ⟨e, f⟩) s = .next (rowEnd s (visitEnt n l i.ent (visitWay n k set w e u)))) ∧
      (walkPlace u k i = none → exec (.maintenanceWalkLine sl ⟨e, f⟩) s = .next (rowEnd s (visitEnt n l i.ent (if k.op = 0x22 then u else sbDiscard n l u))))) ∧
    (∀ set w, sn = [] → v.combOf n l = none → walkPlace v k i = some (set, w) → (v.slice n).lostSets.contains set = false → (v.tbcOf set).valid = true →
      walkPlace u k i = some (set, w) → exec (.maintenanceWalkLine sl ⟨e, f⟩) s = .next (rowEnd s (visitEnt n l i.ent (visitWay n k set w e u))))) ∧
  (∀ (sl : BitVec 3) e f k x, s.quiescing = false → s.walk = some k → nextAgain s sl.toNat = none →
    walkReady s sl.toNat k.cmd = none → walkNext s k sl.toNat = some x → (s.slice sl.toNat).lineQ.length + (s.slice sl.toNat).inq.length < 2048 →
    (k.byset = true → ((s.slice sl.toNat).resv s (x / 16)).testBit (x % 16) = false) →
    let n := sl.toNat
    let l := if k.byset then s.wayLine (x / 16) (x % 16) else rangeLine s k n x
    let j : SliceIn := ⟨12, Hd.mk 0 0 0 0 l 0 0, s.regionIx l, none, 0, false, BitVec.ofNat 64 s.cycle, none, false, 0, some (k.cmd, x), 0⟩
    let c := capWalk k.op n l (b2n k.byset + 2 * b2n k.recl) x k.cmd (if lineTaken s n l then s else capTouch n 20 l s)
    let u := updWalk k.cmd (fun k => { k with pos := NMap.set 0 k.pos n (x + 1) })
      ((monSys 1 1 (attrLine l) c).updSlice n (fun h => { h with lineQ := h.lineQ ++ [j], walkClk := 0 }))
    (walkReady u n k.cmd = none → exec (.maintenanceWalkLine sl ⟨e, f⟩) s = .next (rowEnd s u)) ∧
    (∀ i, walkReady u n k.cmd = some i → exec (.maintenanceWalkLine sl ⟨e, f⟩) s = .next (rowEnd s (walkAct n k i e f u)))) ∧
  (∀ (sl : BitVec 3) f d, (s.slice sl.toNat).dirWalk = some d → exec (.directoryWalkSet ⟨sl, f⟩) s = .next (rowEnd s (resetStep2 (dirVisit sl.toNat f s)))) ∧
  (∀ (set : BitVec 26) te le, s.mode = 3 → s.quiescing = false → s.err.scrub ≠ 0 → set.toNat < s.nSets → s.retired set.toNat = false →
    (s.slice (set.toNat % 8)).lostSets.contains set.toNat = false →
    let n := set.toNat
    let c := capWalk 0x78 (n % 8) 0 0 n 0 s
    let v := patrolAt (n + 1) (patrolAt c.cache.patrol c)
    let r := tbDecode (v.rowTb n) te
    let u := burstsNow 2 n 14 (v.wayLine n 0) (decStat r) v
    (r = none → exec (.patrolVisit set te le) s = .next (rowEnd s (setLost n u))) ∧
    (∀ b, r = some (b, 0) → fmtOk b = true → exec (.patrolVisit set te le) s = .next (rowEnd s (patrolLines n le u)))) ∧
  (∀ (sl : BitVec 3) f b l rest, (s.slice sl.toNat).dirBad.find? (fun b => !b.left.isEmpty) = some b → b.left = l :: rest → lineBusy s sl.toNat l = false →
    exec (.dirRecallCandidate ⟨sl, f⟩) s = .next (rowEnd s (recallNext sl.toNat f s))) ∧
  (∀ (set : BitVec 26) e, (s.slice (set.toNat % 8)).lostSets.contains set.toNat = true →
    exec (.setLostScanEnd set e) s = .next (rowEnd s (scanEnd set.toNat e s)))

/-! ### Streams, seals and regulation -/

/-- The rows of the seal engines (R265, R274, R275, R288, R299, R303, R306, R307): a line that is not poisoned is absorbed and HASHED goes on, a poisoned
one becomes BAD; a hole whose time is over becomes BAD with cause MISSING and ends the longer wait of a close that has no write to wait for; records form while the log has room, are signed in order, and are persisted when their slot is written.
When the longer wait of a close ends (log 77), and the far reads of hashing ending within
their row (log 88), are the model's choices. -/
def Obligations.StreamAndSealRowsAdvanceTheirStream : Prop := ∀ s : State, s.off = false →
  (∀ (stream : BitVec 18) far e, s.sliceOff = false → s.drain.step < 5 → canHash (s.ctx stream.toNat) = true →
    let sid := stream.toNat
    let n := (s.ctx sid).hashed
    let l := (s.ctx sid).lineOfOff n
    let r := hashRead l far e (capIn 21 (homeSlice l) (intDesc 0xCA l.toNat 0 0) 0 [] s)
    let c := capOut 21 (homeSlice l) (intDesc 0xCA l.toNat 0 0) (if r.2.2 then [] else wordBytes 128 r.2.1) r.1
    (r.2.2 = true → exec (.hashLine stream far e) s = .next (rowEnd s (offBad sid n 2 c))) ∧
    (r.2.2 = false → exec (.hashLine stream far e) s = .next (rowEnd s ((releaseOff sid (hashedAt sid (n + 1)
      ((monSys 0x14 1 ⟨none, none, none, none⟩ c).updCtx sid (fun c => { c with sha := shaBlock c.sha (wordBytes 128 r.2.1) })))).updCtx sid
        (fun c => { c with hole := c.theHole }))))) ∧
  (∀ (stream : BitVec 18) n, (s.ctx stream.toNat).hole = some n → exec (.holeTimeout stream) s = .next (rowEnd s (offBad stream.toNat n 4 (closeWaited stream.toNat s)))) ∧
  (∀ stream : BitVec 18, s.mode ≠ 5 → (s.ctx stream.toNat).pendF ≠ 0 → (s.ctx stream.toNat).inFlight = false → (s.ctx stream.toNat).state ≠ 0 →
    logRoom s (s.ctx stream.toNat) = true → exec (.sealRecordForm stream) s = .next (rowEnd s (formRecord stream.toNat false s))) ∧
  (∀ it, s.str.items.find? (fun it => it.wantSig && !it.placed) = some it → exec .sealSignatureDone s = .next (rowEnd s (signItem it s))) ∧
  (∀ idx ok,
    let out := (s.links.reqs ++ s.links.waitq).filter (fun r => r.purp = .slot idx)
    let u := out.foldl (fun s r => farEnd r (if ok then .inr (r.data, r.psn) else .inl 0) s)
      { s with links.waitq := s.links.waitq.filter (fun r => r.purp ≠ .slot idx) }
    let lost := u.str.items.any (fun it => it.placed && decide (it.idx = idx) && it.lost)
    exec (.sealSlotWriteDone idx ok) s = .next (rowEnd s (slotDone idx (ok && !lost) u)) ∧
    (∀ it, u.str.items.find? (fun it => it.placed && it.idx = idx && !it.waitDead) = some it →
      slotDone idx (ok && !lost) u = if ok && !lost then itemDone it u else placeItem it u))

/-- The rows of regulation (R282, R346, R357): freed credits go back where the durable budget allows them; a guarantee's demand is sampled; a window ends with its
misses counted, and the next begins. -/
def Obligations.RegulationRowsCountAndReturn : Prop := ∀ s : State, s.off = false →
  (∀ (port : BitVec 4) (k : Nat), k ≠ 0 → k ≤ NMap.get 0 (s.port port.toNat).freed 0 → (s.port port.toNat).open_ = true → mayReturn s port.toNat k = true →
    exec (.creditReturn port k) s = .next (rowEnd s (flowCredits port.toNat (s.updPort port.toNat (fun q => { q with
      freed := NMap.upd 0 q.freed 0 (· - k), rxCr := NMap.upd 0 q.rxCr 0 (· + k), crOwe := NMap.upd 0 q.crOwe 0 (· + k) }))))) ∧
  exec .guarSample s = .next (rowEnd s { s with
    regl.samples := s.regl.samples + 1
    regl.demand := (List.range 60).foldl (fun m k => if demands s k then NMap.upd 0 m k (· + 1) else m) s.regl.demand }) ∧
  (s.mode = 2 ∨ s.mode = 3 →
    let miss := s.regl.guar.filter (fun e => missed s e.1 e.2)
    let v := miss.foldl (fun s e => guarMissed e.1 e.2 s) s
    let u := if miss = [] then v else sendMsix 17 v
    exec .guarWindowEnd s = .next (rowEnd s (recomputeRsv (windowStart { u with regl.lat := windowLat u, regl.delivLast := u.regl.deliv }))))

/-! ### Drains, temperature and ageing -/

/-- PFW_N, the drain's rows and DRAIN_DONE (R310, R324-R331): a fall starts a drain, a rise during one is reported; each step's row acts in its
own step, and step 9's asserts DRAIN_DONE and ends the DRAIN command. -/
def Obligations.DrainRowsActInTheirStep : Prop := ∀ s : State, s.off = false →
  (bit s.pfwCfg 8 = true → s.mode = 2 ∨ s.mode = 3 ∨ s.mode = 4 → exec .pfwNFall s = .next (rowEnd s (drainEnter 0 3 { s with ao.pfwHigh := false }))) ∧
  (bit s.pfwCfg 8 = true → s.mode = 5 → s.ao.drainDone = false →
    exec .pfwNRise s = .next { s with ao.pfwHigh := true, ao.rep.flags := s.ao.rep.flags ||| 1 }) ∧
  (bit s.pfwCfg 8 = true → s.mode ≠ 5 → exec .pfwNRise s = .next { s with ao.pfwHigh := true }) ∧
  (s.drain.step = 2 → exec .drainQuiesceEnd s = .next (rowEnd s (quiesceEnd s))) ∧
  (s.drain.step = 5 → (∀ k ∈ s.drain.streams, (s.ctx k).inFlight = false ∧ (s.ctx k).state ≠ 0) →
    exec .drainRecordsForm s = .next (rowEnd s (s.drain.streams.foldl (fun s k => if (s.ctx k).state = 0 then s else drainRecord k s)
      { s with drain.streams := [] }))) ∧
  (s.drain.step = 5 → s.drain.man = false → s.drain.streams = [] →
    exec .drainManifest s = .next (rowEnd s (addItem 0xFFFFFFFF (manifestBytes s) (canSign s) { s with drain.man := true }))) ∧
  (∀ e set w, s.drain.step = 6 → s.drain.extra ≠ 0 → (plainDirty s).find? (fun x => !lineBusy s (x.1 % 8) (s.wayLine x.1 x.2)) = some (set, w) →
    let c := cleanWay (set % 8) set w e s
    exec (.drainExtraClean e) s = .next (rowEnd s { c.1 with drain.extra := c.1.drain.extra - 1, drain.extraOut := c.1.drain.extraOut ++ c.2.toList })) ∧
  (s.drain.step = 9 → s.ao.drainDone = false → exec .drainDone s = .next (rowEnd s (drainEnd s)))

/-- The global persistent flush (R328, R330): each phase is sent to every GPF device that is not DEAD, an answer or a timeout ends it for its port,
and a port that did not answer with success stands in GPF_FAILED. -/
def Obligations.GpfPhasesEndWithEveryAnswer : Prop := ∀ (fp : BitVec 2) (ok : Bool) (s : State), s.off = false →
  let sent := fun (ph : Nat) => rowEnd s (gpfEnd ((gpfPorts s).foldl (fun s f =>
    { s with drain.gpfWait := s.drain.gpfWait ||| BitVec.ofNat 4 (2 ^ f) }.put (.gpf f ph)) s))
  let b := BitVec.ofNat 4 (2 ^ fp.toNat)
  let got := fun (ok : Bool) => rowEnd s (gpfEnd { s with
    drain.gpfWait := s.drain.gpfWait &&& ~~~b, ao.rep.gpfFailed := if ok then s.ao.rep.gpfFailed else s.ao.rep.gpfFailed ||| b })
  (s.drain.step = 7 → s.drain.gpfWait = 0 → exec .gpfPhase1Request s = .next (sent 1)) ∧
  (s.drain.step = 8 → s.drain.gpfWait = 0 → exec .gpfPhase2Request s = .next (sent 2)) ∧
  (s.drain.step = 7 → bit s.drain.gpfWait fp.toNat = true → exec (.gpfPhase1Response fp ok) s = .next (got ok)) ∧
  (s.drain.step = 8 → bit s.drain.gpfWait fp.toNat = true → exec (.gpfPhase2Response fp ok) s = .next (got ok)) ∧
  (s.drain.step = 8 → bit s.drain.gpfWait fp.toNat = true → exec (.gpfPhase2Timeout fp) s = .next (got false)) ∧
  (s.drain.step = 7 → s.drain.gpfWait ≠ 0 → ∃ t, exec .gpfPhase1Timeout s = .next (rowEnd s t) ∧ t.drain.gpfWait = 0 ∧ t.drain.step = 8 ∧
    t.ao.rep.step = 7 ∧ t.ao.rep.gpfFailed = s.ao.rep.gpfFailed ||| s.drain.gpfWait)

/-- Temperature (R511, R512, R514): a sample gives the sensors, Tj as their highest and PEAK, and raises the level to the highest threshold reached;
it trips when Tj comes to TRIP_C, and from 150 °C shuts the hub down; a fall lowers the level one step; the critical limit shuts the hub down. -/
def Obligations.ThermalRowsMoveTheLevel : Prop := ∀ s : State, s.off = false → s.ao.up = true →
  (∀ temps : List Byte,
    let l := (List.range 16).map (fun i => temps.getD i 0)
    let tj := l.foldl (fun a x => if a < x then x else a) (0 : Byte)
    let t := { s with ao.sensors := l, ao.tj := tj, ao.peak := if s.ao.peak < tj then tj else s.ao.peak }
    let u := setLevel (max t.ao.level.toNat (levelFor t tj)) t
    (∀ x ∈ l, x ≤ tj) ∧ s.ao.level ≤ u.ao.level ∧
    (tj.toNat < 150 + 64 → tj.toNat < thermC s 32 + 64 → exec (.thermalSample temps) s = .next (rowEnd s u)) ∧
    (150 + 64 ≤ tj.toNat → exec (.thermalSample temps) s = .next (rowEnd s (shutDown u))) ∧
    (tj.toNat < 150 + 64 → thermC s 32 + 64 ≤ tj.toNat → s.ao.tj.toNat < thermC s 32 + 64 → exec (.thermalSample temps) s = .next (rowEnd s (trip u)))) ∧
  (s.ao.level ≠ 0 → s.ao.tj.toNat + 5 ≤ levelC s s.ao.level.toNat + 64 → exec .thermalLevelFall s = .next (setLevel (s.ao.level.toNat - 1) s)) ∧
  exec .criticalLimit s = .next { s with ao.thermtrip := true, ao.stopped := true }

/-- Ageing (R502, R504, R506, R507): hours reach the next multiple of 1,000 and start a measurement cycle, a cycle ends with its plan, the bin and
then the supply voltage move to the plan a step at a time, a retrained channel keeps its eye.
That the hours go to the next multiple of 1,000, and to the saved value plus 24, is
the model's choice (log 18). -/
def Obligations.AgeingRowsFollowThePlan : Prop := ∀ s : State, s.off = false →
  (exec .operatingHoursMark s = .next (cycleDue 0 { s with
    ao.hours := BitVec.ofNat 32 ((s.ao.hours.toNat / 1000 + 1) * 1000), ao.hourT := 0 })) ∧
  (let n := max s.ao.hours.toNat (s.age.hoursSaved.toNat + 24)
   let v := { s with ao.hours := BitVec.ofNat 32 n }
   let u := if s.ao.hours.toNat / 1000 < n / 1000 then cycleDue 0 v else v
   exec .hoursWrite s = .next (healthJob none fieldOps { u with age.hoursSaved := u.ao.hours })) ∧
  (∀ m, s.age.measuring = true → exec (.measurementCycleEnd m) s = .next (rowEnd s (cycleEnd m s))) ∧
  (s.age.bin < s.age.binPlan → exec .coreBinSwitch s = .next (rowEnd s (recompute (planEnd { s with age.bin := s.age.binPlan })))) ∧
  (s.boot.fwRun = true → ¬ s.age.bin < s.age.binPlan →
    (s.age.vid < s.age.vidPlan → exec .vidStep s =
      .next (rowEnd s (planEnd { s with age.vid := s.age.vid + 1, age.vidOn := s.age.vidOn || decide (s.age.vid + 1 = s.age.vidPlan) }))) ∧
    (s.age.vidPlan < s.age.vid → exec .vidStep s =
      .next (rowEnd s (planEnd { s with age.vid := s.age.vid - 1, age.vidOn := s.age.vidOn || decide (s.age.vid - 1 = s.age.vidPlan) })))) ∧
  (∀ (ch : BitVec 5) (eye : BitVec 16), s.cache.trained = true → ch.toNat < s.channels + s.cache.quar.length →
    exec (.channelRetrain ch eye) s = .next { s with age.eyes := NMap.set 1000 s.age.eyes ch.toNat eye.toNat })

/-! ### Upsets, resets and boot -/

/-- The vote of the triplicated fields (R363): a copy that disagrees with the other two is counted and logged, and one that agrees changes nothing;
three copies that differ take the value of the table: the mode comes from the AO mirror and the working modes drain, the lock closes, every kind of error
freezes, a transaction ends with nothing sent, a region entry loses VALID. The mirror copies the lost-write counts (R262); the watchdog restarts the
firmware (R474); a failed health test enters the error state (R320). That flash work begun for a command goes on without its completion after the
watchdog is the model's choice (log 22). -/
def Obligations.VotesMirrorAndWatchdogAct : Prop := ∀ s : State, s.off = false →
  (∀ (f i : Nat) (v : BitVec 64), exec (.aoVote .none) s = .next s ∧
    (let differs := (f = 0 ∧ s.trip.mode.vote 0 ≠ v.setWidth 3) ∨ (f = 1 ∧ s.trip.lock.vote 0 ≠ v.setWidth 1) ∨ (f = 2 ∧ s.trip.freeze.vote 0 ≠ v.setWidth 5) ∨
        (f = 3 ∧ s.trip.budget.vote 0 ≠ v.setWidth 13) ∨ (f = 4 ∧ s.trip.pfw.vote 0 ≠ v.setWidth 64) ∨ (f = 5 ∧ s.trip.key.vote 0 ≠ v.setWidth 3) ∨ f = 6 ∨ f = 7
     (differs → exec (.aoVote (.one f i v)) s = .next (rowEnd s (logErr 0x0013 0 6 0 0 0 f (cntErr 7 1 s)))) ∧
     (¬differs → exec (.aoVote (.one f i v)) s = .next (rowEnd s s))) ∧
    (let u := logErr 0x0014 5 6 0 0 0 f s
     let w := writeMode u.ao.modeMirror u
     (f = 0 → exec (.aoVote (.all f i)) s = .next (rowEnd s (if w.mode = 2 ∨ w.mode = 3 ∨ w.mode = 4 then drainCause 1 7 w else w))) ∧
     (f = 6 → ∀ sl t, txnAny u i = some (sl, t) → exec (.aoVote (.all f i)) s = .next (rowEnd s (txnLost sl t true u))) ∧
     (f = 6 → txnAny u i = none → exec (.aoVote (.all f i)) s = .next (rowEnd s u)) ∧
     (8 ≤ f → exec (.aoVote (.all f i)) s = .next (rowEnd s s)) ∧
     (f = 1 → exec (.aoVote (.all f i)) s = .next (rowEnd s { u with trip.lock := Trip.all 1 })) ∧
     (f = 2 → exec (.aoVote (.all f i)) s = .next (rowEnd s { u with trip.freeze := Trip.all 0x1F })) ∧
     (f = 3 → exec (.aoVote (.all f i)) s = .next (rowEnd s { u with trip.budget := Trip.all 1 })) ∧
     (f = 4 → exec (.aoVote (.all f i)) s = .next (rowEnd s { u with trip.pfw := Trip.all pfwReset })) ∧
     (f = 5 → exec (.aoVote (.all f i)) s = .next (rowEnd s (testFailed u))) ∧
     (f = 7 → exec (.aoVote (.all f i)) s = .next (rowEnd s { u with
       regions := NMap.upd 0 u.regions i (fun e => e &&& ~~~(BitVec.ofNat 320 (2 ^ 63))) })))) ∧
  exec .resetMirror s = .next { s with
    ao.mirWb := satCount 16 (plainHeld s), ao.mirDirty := satCount 40 s.cache.dirtyPlain, ao.mirDur := satCount 40 (durableHeld s) } ∧
  (s.boot.fwRun = true → exec .managementWatchdog s = .next (rowEnd s (logErr 0x0041 5 5 0 0 0 0
    (let t := s.cp.taken.foldl (fun s t => complete (takenPacket t) St.mc_restart 0 s) { s with cp.taken := [] }
     let u := t.cp.prog.foldl (fun s g => complete g.p St.mc_restart 0 s) t
     { u with cp.prog := u.cp.prog.map Prog.lose, boot.fwRun := false, boot.start := 2 })))) ∧
  (∀ test : Byte, exec (.continuousHealthTestFail test) s = .next (rowEnd s (cryptoError test.toNat s)))

/-- RESET_N and the AO supply (R24, R262, R327, R341, R429, R450, R458, R472, R475). Asserting RESET_N keeps the AO block, with the reset record taken
in it, the boot flash (boot record, slots, policy area, configuration record, key area, health page, staging) and the fuses; every other field takes its
reset value: regions and lock, registers, control port, slices, cache, policy, links, streams, drain, regulation, error log, recorder, firmware state.
Deasserting it enters BOOT. AO power-up and the loss of the AO supply lose the AO block as well. That a deferred ageing cycle outlasts RESET_N, and where
the hours of the AO block come from at power-up, is the model's choice (log 18); what the health page holds is at work from reset on (log 7). -/
def Obligations.ResetRowsKeepWhatTheirTableKeeps : Prop := ∀ s : State,
  let r := State.reset
  let h := s.boot.health
  let fresh := fun (t : State) =>
    t.regions = [] ∧ t.slices = [] ∧ t.cache = r.cache ∧ t.pol = r.pol ∧ t.str = r.str ∧ t.drain = r.drain ∧ t.regl = r.regl ∧ t.rec_ = r.rec_ ∧
    t.regs = r.regs ∧ t.cp = r.cp ∧ t.cycle = r.cycle ∧ { t.links with ports := [], far := [] } = r.links ∧
    (∀ p, p < 12 → t.port p = { Port.init with marginLow := (s.port p).marginLow, rateCap := (s.port p).rateCap }) ∧
    (∀ f, f < 4 → t.farP f = { FarPort.init with rateCap := (s.farP f).rateCap }) ∧
    t.trip = { r.trip with mode := Trip.all 0, key := Trip.all (s.keys.stored.setWidth 3) } ∧
    t.err = { r.err with rlSets := h.rlSets, rlBanks := h.rlBanks, rlGen := h.rlGen, rlPop := h.rlPop } ∧
    t.keys = { s.keys with
      wiped := false, errState := false, testsOk := false, chal := [], chalOn := 0, roles := 0, fails := [], userPub := 0, userOn := false } ∧
    t.boot = { s.boot with
      fwRun := false, halted := false, recovery := false, fallback := false, running := 0, tested := [], polRefused := false, staged := 0
      configUse := none, dirtyCnt := h.dirty, flash := [], drainInBoot := false, cold := true, start := 0 } ∧
    { t.age with deferred := false, why := 0 } = { s.age with
      bin := s.age.binPlan, vid := 10, vidOn := false, measuring := false, why := 0, deferred := false, eyes := [], history := h.history
      hoursSaved := h.hours, throttled := 0 }
  (s.ao.inReset = false → s.ao.up = true → ∃ t, exec .resetNAssert s = .next t ∧ fresh t ∧ t.mode = 0 ∧ t.locked = false ∧
    t.age.deferred = s.age.deferred ∧
    t.ao = { s.ao with
      inReset := true, drainDone := true, modeMirror := 0, modeBefore := s.ao.modeMirror
      kind := 1, modeAtEdge := s.ao.modeMirror, ddAtEdge := s.ao.drainDone, resetTime := s.ao.time
      lost0 := BitVec.ofNat 64 (s.ao.mirDirty.toNat + s.ao.mirWb.toNat * 2 ^ 40), lost1 := BitVec.ofNat 64 (s.ao.mirDur.toNat + 2 ^ 63)
      rep.flags := if s.drain.step ≠ 0 && !s.ao.drainDone then s.ao.rep.flags ||| 8 else s.ao.rep.flags }) ∧
  (s.ao.inReset = true → s.ao.up = true → ∃ u t, exec .resetNDeassert s = .next t ∧ t = changeMode 1 0 u ∧ t.mode = 1 ∧
    t.ao.inReset = false ∧ t.ao.drainDone = false ∧ u = (let v := { s with ao.inReset := false, ao.drainDone := false }
      if s.ao.modeBefore = 0 then v else postEvent 0x0002 [(0, s.ao.modeBefore.toNat), (1, 0), (2, 0)] v)) ∧
  (s.ao.up = false → ∃ u t, exec .vddAoPowerUp s = .next t ∧ t = (if s.ao.inReset then u else changeMode 1 0 u) ∧ fresh u ∧
    t.mode = (if s.ao.inReset then 0 else 1) ∧ t.locked = false ∧ t.regions = [] ∧ t.age.deferred = false ∧
    u.ao = { r.ao with
      inReset := s.ao.inReset, bootCount := 0, firstBoot := true, drainDone := s.ao.inReset, modeMirror := if s.ao.inReset then 0 else 1, hours := h.hours }) ∧
  (s.ao.up = true → ∃ t, exec .vddAoLoss s = .next t ∧ fresh t ∧ t.mode = 0 ∧ t.locked = false ∧ t.age.deferred = false ∧
    t.ao = { r.ao with
      up := false, inReset := s.ao.inReset, bootCount := 0, firstBoot := true, drainDone := true, modeMirror := 0, hours := 0 }) ∧
  (s.ao.up = false → exec .resetNAssert s = .next { s with ao.inReset := true } ∧ exec .resetNDeassert s = .next { s with ao.inReset := false } ∧
    exec .vddAoLoss s = .next s) ∧
  (s.ao.inReset = true → exec .resetNAssert s = .next s) ∧ (s.ao.inReset = false → exec .resetNDeassert s = .next s) ∧
  (s.ao.up = true → exec .vddAoPowerUp s = .next s)

/-- The rows of booting and of the boot flash (R55, R56, R342, R370, R383, R453-R457, R473): training fixes the population, a device of an enabled
far port becomes active, the hub leaves BOOT when its conditions hold, a warm reset reboots after its walk, a flash operation ends. -/
def Obligations.BootRowsBringTheHubUp : Prop := ∀ s : State, s.off = false →
  (∀ identOk sealOk kat slot, s.boot.fwRun = false → s.boot.halted = false → s.boot.recovery = false → s.ao.firstBoot = false → pickSlot s = some slot →
    exec (.firmwareStart true identOk sealOk kat) s = .next (rowEnd s (firmwareRuns slot identOk sealOk kat s))) ∧
  (∀ identOk sealOk kat, s.boot.fwRun = false → s.boot.halted = false → s.boot.recovery = false → s.boot.start = 0 →
    exec (.firmwareStart false identOk sealOk kat) s = .next (rowEnd s { s with boot.halted := true })) ∧
  (∀ trained (dense : BitVec 32) rate, s.mode = 1 → s.boot.cold = false → s.cache.trained = false →
    exec (.channelTrainingEnd trained dense rate) s = .next (rowEnd s (recompute (applyRetire { s with
      cache.chans := chansOf s trained dense, cache.dense := decide (dense &&& trained ≠ 0) && decide (chansOf s trained dense ≠ 3), cache.trained := true
      cache.rate := if rate < s.age.ratePlan then s.age.ratePlan else rate })))) ∧
  (∀ (fp : BitVec 2) cap gpf dur dirty, let f := fp.toNat
    recovering s f = none → s.mode = 1 → s.boot.cold = false → f < s.nFar → (s.farP f).enable = true → (s.farP f).active = false → (s.farP f).dead = false →
    exec (.memoryActive fp cap gpf dur dirty) s = .next (rowEnd s (dirtyRead f dirty ((s.updFar f (fun q => { q with active := true })).updFar f (fun q => { q with
      cap := cap, gpf := gpf, gpfDur := dur.duration, gpfPower := dur.power })))) ∧
    exec (.memoryActiveTimeout ⟨fp, none⟩) s = .next (rowEnd s (farDead f s)) ∧
    (∀ e, exec (.memoryActiveTimeout ⟨fp, some e⟩) s = .next (rowEnd s (farDead f (dirtyRead f e.dirty (s.updFar f (fun q => { q with
      cap := e.cap, gpf := e.gpf, gpfDur := e.phase2.duration, gpfPower := e.phase2.power }))))))) ∧
  (∀ (fp : BitVec 2) cap gpf dur dirty g, recovering s fp.toNat = some g →
    (portQuiet s fp.toNat = true → exec (.memoryActive fp cap gpf dur dirty) s = .next (rowEnd s (recovered fp.toNat g cap gpf dur dirty s))) ∧
    (∀ e, exec (.memoryActiveTimeout ⟨fp, e⟩) s = .next (rowEnd s (finish g St.far_unresponsive 0 s)))) ∧
  (s.mode = 1 → exitReady s = true → holdInBoot s = false → exec .bootExit s = .next (rowEnd s (recompute (changeMode 2 1 s)))) ∧
  (s.drain.warm = 4 → exec .warmResetReboot s = .next (rowEnd s (warmReboot s))) ∧
  (∀ ok j rest, s.boot.flash = j :: rest → s.boot.drainInBoot = false →
    (1 < j.left → exec (.flashOperationDone ok) s =
      .next (rowEnd s { s with boot.flash := { j with left := j.left - 1, bad := j.bad || !ok } :: rest })) ∧
    (j.left = 1 → j.keep = none →
      ∀ u, u = jobEnd { j with left := 0, bad := j.bad || !ok } { s with boot.flash := rest } → u.boot.drainInBoot = false →
      exec (.flashOperationDone ok) s = .next (rowEnd s u)))

/-! ### The control port, the register space and the recorder -/

/-- PERST_N, FLR and D3hot exit reset the control path and nothing else (R404, R429): every queue pair is deleted and the event queue unbound, while its
staged events stay; the MSI-X table, the PCIe configuration, the queue pair 0 fields, FIFO_CTRL and both FIFOs take their reset values, authenticated
roles end, and every other register, key and block keeps its value. Commands already taken go on with no pair to answer to. Bus Master Enable, D3hot
entry, an unmasked vector and QP0_ENABLE act as R403, R405 and R407 say, and in D3hot no memory request acts. The reset values of the MSI-X table (log
10) and of the capabilities (log 121) are PRESUMED; the model's own choices are that commands taken go on in order and that undefined ones and
QUEUE_DELETE end with the reset (log 120), that an outstanding challenge ends with the roles (log 37), and the pair latched while pair 0 is still being
deleted (log 115). -/
def Obligations.ControlPathEventsActOnTheControlPath : Prop := ∀ s : State,
  (s.off = false → exec .perstN s = .next (resetControl s) ∧ exec .flr s = .next (resetControl s) ∧
    (s.cp.d3 = true → exec .d3hotExit s = .next (resetControl s)) ∧ (s.cp.d3 = false → exec .d3hotExit s = .next s)) ∧
  (let t := resetControl s
   let r := State.reset
   (∀ n, t.qp n = QP.init) ∧
   t.regs = { s.regs with
     qp0Sq := 0, qp0Cq := 0, qp0Size := 0, qp0En := false, fifoCtrl := r.regs.fifoCtrl, hmf := Fifo.init, evf := Fifo.init } ∧
   t.keys = { s.keys with roles := 0, chalOn := 0 } ∧
   (∀ v, v < 32 → bit t.cp.masked v = true ∧ NMap.get (0, 0) t.cp.table v = (0, 0)) ∧
   { t.cp with taken := [], prog := [] } = { r.cp with ahead := s.cp.ahead, groups := s.cp.groups, staged := s.cp.staged, evLost := s.cp.evLost, evSeq := s.cp.evSeq } ∧
   (∀ x ∈ t.cp.taken, t.pairOn (takenPacket x) = false) ∧ (∀ x ∈ s.cp.taken, definedOps.contains (nbits x.2 7 0) = true → (lostPair x.1, x.2) ∈ t.cp.taken) ∧
   (∀ g ∈ t.cp.prog, t.pairOn g.p = false) ∧ (∀ g ∈ s.cp.prog, g.op ≠ 0x02 → g.lose ∈ t.cp.prog) ∧
   t.mode = s.mode ∧ t.regions = s.regions ∧ t.trip = s.trip ∧ t.str = s.str ∧ t.slices = s.slices ∧ { t.cache with walks := s.cache.walks } = s.cache ∧ t.links = s.links ∧
   t.cache.walks.map (fun k => { k with behind := [] }) = s.cache.walks.map (fun k => { k with behind := [] }) ∧
   t.err = s.err ∧ t.pol = s.pol ∧ t.regl = s.regl ∧ t.boot = s.boot ∧ t.age = s.age ∧ t.ao = s.ao ∧ t.rec_ = s.rec_ ∧ t.drain = s.drain ∧
   t.cycle = s.cycle ∧ t.out = s.out) ∧
  (s.off = true → exec .perstN s = .next s ∧ exec .flr s = .next s ∧ exec .d3hotExit s = .next s ∧ exec .d3hotEntry s = .next s ∧
    exec .qp0Create s = .next s ∧ exec .qp0Delete s = .next s ∧ (∀ b, exec (.busMasterEnable b) s = .next s) ∧ ∀ e, exec (.msixUnmask e) s = .next s) ∧
  (s.off = false →
    exec (.busMasterEnable false) s = .next { s with cp.bme := false } ∧
    exec (.busMasterEnable true) s = .next (flushHeld { s with cp.bme := true }) ∧
    exec .d3hotEntry s = .next { s with cp.d3 := true } ∧
    (∀ e : MsixEntry, s.cp.d3 = false →
      let t := { s with
        cp.masked := s.cp.masked &&& ~~~(BitVec.ofNat 32 (2 ^ e.vec.toNat)), cp.pend := s.cp.pend &&& ~~~(BitVec.ofNat 32 (2 ^ e.vec.toNat))
        cp.table := NMap.set (0, 0) s.cp.table e.vec.toNat (e.addr, e.data) }
      exec (.msixUnmask e) s = .next (if bit s.cp.pend e.vec.toNat then sendMsix e.vec.toNat t else t)) ∧
    (s.cp.d3 = true → (∀ e, exec (.msixUnmask e) s = .next s) ∧ ∀ n v, exec (.sqTailDoorbell n v) s = .next s ∧ exec (.cqHeadDoorbell n v) s = .next s ∧
      exec (.eventQueueHeadDoorbell v) s = .next s ∧ exec .qp0Create s = .next s ∧ exec .qp0Delete s = .next s ∧
      (∀ off size, exec (.registerWrite (.bar0 off) v size) s = .next s) ∧ (∀ off size, exec (.registerWrite (.bar2 off) v size) s = .next s)) ∧
    (s.cp.d3 = false → s.regs.qp0En = false →
      let sq := nbits s.regs.qp0Size 15 0
      let cq := nbits s.regs.qp0Size 31 16
      let bad := badQueue s.regs.qp0Sq.toNat sq 64 || badQueue s.regs.qp0Cq.toNat cq 16
      let q := newPair s.regs.qp0Sq.toNat s.regs.qp0Cq.toNat (sq + 1) (cq + 1)
      (bad = true → exec .qp0Create s = .next (postEvent 0x0004 [(0, 0), (1, 5)] s)) ∧
      (bad = false → (s.qp 0).on = false → exec .qp0Create s = .next ({ s with regs.qp0En := true }.updQp 0 (fun _ => q))) ∧
      (bad = false → (s.qp 0).on = true → exec .qp0Create s = .next { s with regs.qp0En := true, cp.qp0Next := some q }) ∧
      exec .qp0Delete s = .next s) ∧
    (s.cp.d3 = false → s.regs.qp0En = true → exec .qp0Create s = .next s ∧
      exec .qp0Delete s = .next (endDelete (startDelete 0 { s with regs.qp0En := false, cp.qp0Next := none }) 0)))

/-- Doorbells and the queues in host memory (R406, R408-R415, R418): a doorbell in its range moves its pointer; an entry fetched in turn is taken,
or completes with INVALID_OPCODE unless it is ORDERED behind others; a completion is written where the CQ tail stands and the tail moves. -/
def Obligations.QueuesMoveEntriesAndCompletions : Prop := ∀ (n : BitVec 4) (v : BitVec 64) (s : State), s.off = false → s.cp.d3 = false →
  let q := s.qp n.toNat
  let t := nbits v 15 0
  (q.on = true → inRing q.sqN q.sqTail ((q.sqHead + q.sqN - 1) % q.sqN) t = true → q.deleting = false →
    exec (.sqTailDoorbell n v) s = .next (s.updQp n.toNat (fun q => { q with sqTail := t }))) ∧
  (q.on = true → inRing q.cqN q.cqHead q.cqTail t = true →
    exec (.cqHeadDoorbell n v) s = .next (if t = q.cqTail then s.updQp n.toNat (fun q => { q with cqHead := t, armed := true })
      else sendMsix n.toNat (s.updQp n.toNat (fun q => { q with cqHead := t, armed := false })))) ∧
  (s.cp.eqOn = true → inRing s.cp.eqN s.cp.eqHead s.cp.eqTail t = true →
    exec (.eventQueueHeadDoorbell v) s = .next (if t = s.cp.eqTail then { s with cp.eqHead := t, cp.eqArmed := true }
      else sendMsix 16 { s with cp.eqHead := t, cp.eqArmed := false })) ∧
  (q.on = false → exec (.sqTailDoorbell n v) s = .next (badDoorbell n.toNat t s) ∧ exec (.cqHeadDoorbell n v) s = .next (badDoorbell n.toNat t s)) ∧
  (∀ e : BitVec 512, mayTake s n.toNat = true → turnOf s n.toNat = true →
    let u := { s with cp.rr := n }.updQp n.toNat (fun q => { q with sqHead := (q.sqHead + 1) % q.sqN })
    let m : BitVec 5 := n.setWidth 5
    let behind := bit e 15 && (s.cp.prog.any (fun g => g.p.qp = m) || s.cp.taken.any (fun t => t.1 = m))
    (definedOps.contains (nbits e 7 0) = true ∨ behind = true → exec (.sqEntryFetch n e true) s = .next { u with cp.taken := s.cp.taken ++ [(m, e)] }) ∧
    (definedOps.contains (nbits e 7 0) = false → behind = false → exec (.sqEntryFetch n e true) s =
      .next (u.updQp n.toNat (fun q => { q with waiting := q.waiting ++ [(0, bits e 31 16, St.invalid_opcode)] }))) ∧
    exec (.sqEntryFetch n e false) s =
      .next (postEvent 0x0004 [(0, n.toNat), (1, 2)] ({ s with cp.rr := n }.updQp n.toNat (fun q => { q with stopped := true })))) ∧
  (∀ c rest, q.waiting = c :: rest → s.dmaOff = false → q.cqRoom = true →
    let u := (s.put (.host (q.cqBase + BitVec.ofNat 64 (16 * q.cqTail)) (completionBytes n.toNat q c))).updQp n.toNat QP.push
    exec (.completionWrite n true) s = .next (endDeletes (if q.armed then sendMsix n.toNat u else u))) ∧
  (∀ perr e rest, s.cp.staged = e :: rest → s.dmaOff = false → s.cp.eqOn = true → (s.cp.eqTail + 1) % s.cp.eqN ≠ s.cp.eqHead →
    let p := s.put (.host (s.cp.eqBase + BitVec.ofNat 64 (32 * s.cp.eqTail)) (eventBytes s e perr))
    let u := { p with
      cp.staged := rest, cp.evLost := false, cp.eqArmed := false
      cp.eqPhase := if s.cp.eqTail + 1 = s.cp.eqN then !s.cp.eqPhase else s.cp.eqPhase, cp.eqTail := (s.cp.eqTail + 1) % s.cp.eqN }
    exec (.eventQueueWrite ⟨true, perr⟩) s = .next (if s.cp.eqArmed then sendMsix 16 u else u))

/-- Writes of BAR0, BAR2 and the configuration space (R401, R409, R427-R439): an aligned 64-bit write gives a register its RW bits, an alias sets,
clears or toggles them, a guarded value takes effect with its complement in time, every other access of the guarded range discards the pending half, a
locked field does not change and LOCK_VIOLATION is set, any other width is a bad access, and so is a request longer than 8 bytes wherever it falls. The
252 AO clocks of the guarded pair, an alias write to a guarded address having no effect and one to KEY_STATE setting LOCK_VIOLATION are the model's
reading (log 56); what BAR2 and the capabilities take is PRESUMED (log 121). -/
def Obligations.RegisterWritesFollowTheirAccessCodes : Prop := ∀ (off : BitVec 20) (v : BitVec 64) (s : State), s.off = false → s.cp.d3 = false →
  let o := off.toNat
  let write := fun (size : BitVec 4) => exec (.registerWrite (.bar0 off) v size) s
  let dropped := if s.regs.guardP.isSome then guardFailed s else s
  (o < 0x8000 → o % 8 = 0 → o ≠ 0x18 → lockedReg s o = false → rwMask s o ≠ 0 → write 8 = .next (rwWrite o (v &&& rwMask s o) s)) ∧
  (o < 0x8000 → o % 8 = 0 → lockedReg s o = true → write 8 = .next (lockViolation s)) ∧
  (o < 0x8000 → ∀ size : BitVec 4, size ≠ 8 ∨ o % 8 ≠ 0 → write size = .next (badAccess s)) ∧
  exec (.registerWrite (.bar0 0x18) v 8) s = .next (lockViolation s) ∧
  (o < 0x8000 → o % 8 = 0 → o ≠ 0x18 → lockedReg s o = false → rwMask s o = 0 → write 8 = .next s) ∧
  (∀ size : BitVec 4, (0x10000 ≤ o → o < 0x20000 → write size = exec (.aliasSetWrite off v size) s) ∧
    (0x20000 ≤ o → o < 0x30000 → write size = exec (.aliasClearWrite off v size) s) ∧
    (0x30000 ≤ o → o < 0x40000 → write size = exec (.aliasToggleWrite off v size) s) ∧
    (0x8000 ≤ o → o < 0x8800 → write size = exec (.guardedPrimaryWrite off v size) s) ∧
    (0x8800 ≤ o → o < 0x9000 → write size = exec (.guardedPartnerWrite off v size) s) ∧
    (0x9000 ≤ o → o < 0x10000 → size ≠ 8 ∨ o % 8 ≠ 0 → write size = .next (badAccess s)) ∧
    (0x9000 ≤ o → o < 0x10000 → size = 8 → o % 8 = 0 → write size = .next s) ∧
    (0x50000 ≤ o → o < 0x60000 → write size = exec (.counterWrite off v size) s) ∧
    (0x60000 ≤ o → o < 0x70000 → size ≠ 8 ∨ o % 8 ≠ 0 → write size = .next (badAccess s)) ∧
    (0x60000 < o → o < 0x70000 → size = 8 → o % 8 = 0 → write size = .next s) ∧
    (0x40000 ≤ o → o < 0x50000 → ¬(size = 4 ∧ o % 4 = 0) → ¬(size = 8 ∧ o % 8 = 0) → write size = .next (badAccess s)) ∧
    (0x70000 ≤ o → size ≤ 8 → write size = .next s) ∧ (0x70000 ≤ o → 8 < size → write size = .next (badAccess s))) ∧
  (∀ size : BitVec 4, size = 4 ∨ size = 8 →
    (∀ n : BitVec 4, exec (.registerWrite (.bar0 (0x40000 + 16 * n.setWidth 20)) v size) s = exec (.sqTailDoorbell n v) s ∧
      exec (.registerWrite (.bar0 (0x40008 + 16 * n.setWidth 20)) v size) s = exec (.cqHeadDoorbell n v) s) ∧
    exec (.registerWrite (.bar0 0x40100) v size) s = exec (.eventQueueHeadDoorbell v) s) ∧
  exec (.registerWrite (.bar0 0x60000) v 8) s = exec (.hmfWrite v) s ∧
  (o % 0x10000 = 0x18 → ∀ s', s' = lockViolation s →
    exec (.aliasSetWrite off v 8) s = .next s' ∧ exec (.aliasClearWrite off v 8) s = .next s' ∧ exec (.aliasToggleWrite off v 8) s = .next s') ∧
  (∀ size : BitVec 4, size ≠ 8 ∨ o % 8 ≠ 0 → exec (.aliasSetWrite off v size) s = .next (badAccess s) ∧
    exec (.aliasClearWrite off v size) s = .next (badAccess s) ∧ exec (.aliasToggleWrite off v size) s = .next (badAccess s)) ∧
  (let a := o % 0x10000
   a % 8 = 0 → a ≠ 0x18 → ¬(0x8000 ≤ a ∧ a < 0x9000) → rwMask s a ≠ 0 →
   let old := rwRead s a &&& rwMask s a
   let w := v &&& rwMask s a
   (lockedReg s a = false →
     exec (.aliasSetWrite off v 8) s = .next (rwWrite a (old ||| w) s) ∧ exec (.aliasClearWrite off v 8) s = .next (rwWrite a (old &&& ~~~w) s) ∧
     exec (.aliasToggleWrite off v 8) s = .next (rwWrite a (old ^^^ w) s)) ∧
   (lockedReg s a = true →
     exec (.aliasSetWrite off v 8) s = .next (lockViolation s) ∧ exec (.aliasClearWrite off v 8) s = .next (lockViolation s) ∧
     exec (.aliasToggleWrite off v 8) s = .next (lockViolation s))) ∧
  (let a := o % 0x10000
   a % 8 = 0 → a ≠ 0x18 → ((0x8000 ≤ a ∧ a < 0x9000) ∨ rwMask s a = 0) →
   exec (.aliasSetWrite off v 8) s = .next s ∧ exec (.aliasClearWrite off v 8) s = .next s ∧ exec (.aliasToggleWrite off v 8) s = .next s) ∧
  (let a := 0x8000 + o % 0x800
   (guardedReg a = true → exec (.guardedPrimaryWrite off v 8) s = .next { dropped with regs.guardP := some (BitVec.ofNat 20 a, v, s.ao.time) }) ∧
   (guardedReg a = false → o % 8 = 0 → exec (.guardedPrimaryWrite off v 8) s = .next dropped) ∧
   (∀ size : BitVec 4, size ≠ 8 ∨ o % 8 ≠ 0 → exec (.guardedPrimaryWrite off v size) s = .next (badAccess dropped) ∧
     exec (.guardedPartnerWrite off v size) s = .next (badAccess dropped)) ∧
   (o % 8 = 0 → s.regs.guardP = none →
     exec (.guardedPartnerWrite off v 8) s = .next (if guardedReg a = true then guardFailed s else s)) ∧
   (∀ po pv tm, o % 8 = 0 → s.regs.guardP = some (po, pv, tm) →
     (po.toNat = a → v = ~~~pv → (s.ao.time - tm).toNat ≤ 252 →
       exec (.guardedPartnerWrite off v 8) s = .next (guardedSet a pv { s with regs.guardP := none })) ∧
     (po.toNat ≠ a ∨ v ≠ ~~~pv ∨ 252 < (s.ao.time - tm).toNat → exec (.guardedPartnerWrite off v 8) s = .next (guardFailed s)))) ∧
  (∀ w t, (lockedReg t 0x8008 = true → guardedSet 0x8008 w t = lockViolation t) ∧ (lockedReg t 0x8010 = true → guardedSet 0x8010 w t = lockViolation t) ∧
    (guardedSet 0x8000 w t).regs.zArm = decide (nbits w 31 0 = 0xA55A) ∧
    (lockedReg t 0x8008 = false → (guardedSet 0x8008 w t).regs.snpTo.toNat = clamp 10 10000 (nbits w 13 0)) ∧
    (lockedReg t 0x8010 = false → (guardedSet 0x8010 w t).regs.farTo.toNat = clamp 50 1000000 (nbits w 19 0))) ∧
  exec .guardTimeout s = .next dropped ∧
  exec .zeroiseArmExpiry s = .next { s with regs.zArm := false } ∧
  (o % 8 = 0 → exec (.counterWrite off v 8) s = .next (match ctrAt s (o % 0x10000) with
    | some c => ctrSet v { s with regs.latchOff := none } c
    | none => { s with regs.latchOff := none })) ∧
  (∀ size : BitVec 4, size ≠ 8 ∨ o % 8 ≠ 0 → exec (.counterWrite off v size) s = .next (badAccess { s with regs.latchOff := none })) ∧
  (∀ n : BitVec 5,
    let e := NMap.get (0, 0) s.cp.table n.toNat
    let word := fun (k : BitVec 14) => exec (.registerWrite (.bar2 (16 * n.setWidth 14 + k)) v 4) s
    word 0 = .next { s with cp.table := NMap.set (0, 0) s.cp.table n.toNat (putBits e.1 0 32 (nbits v 31 0), e.2) } ∧
    word 4 = .next { s with cp.table := NMap.set (0, 0) s.cp.table n.toNat (putBits e.1 32 32 (nbits v 31 0), e.2) } ∧
    word 8 = .next { s with cp.table := NMap.set (0, 0) s.cp.table n.toNat (e.1, bits v 31 0) } ∧
    (bit v 0 = true → word 12 = .next { s with cp.masked := s.cp.masked ||| BitVec.ofNat 32 (2 ^ n.toNat) }) ∧
    (bit v 0 = false → word 12 = .next (sendPending { s with cp.masked := s.cp.masked &&& ~~~(BitVec.ofNat 32 (2 ^ n.toNat)) }))) ∧
  (∀ (p : BitVec 14) size, 512 ≤ p.toNat → exec (.registerWrite (.bar2 p) v size) s = .next s) ∧
  (∀ w size, exec (.registerWrite (.header w) v size) s = .next s) ∧
  (∀ r size, exec (.registerWrite (.cfg r) v size) s = .next (cfgWrite r v s)) ∧
  (bit v 15 = true → cfgWrite .devCtl v s = resetControl s)

/-- The reads that clear (R358, R430, R436, R447, R514): each gives its register and clears its RC fields, and clears none through an alias; a guarded
register reads as its value and its partner as the complement, MODE as the mode, a doorbell as the hub's own index, a reserved offset as zero, any read
of the guarded range discards a pending half, and a bad read gives zero and clears nothing (R409, R427, R428, R431, R432); BAR2 reads as the MSI-X table
and the pending bits (R401); the management bus reads its word in every mode while the AO block is powered (R522). That the row COUNTER_LOW_READ carries
every other read of the host is the model's choice (logs 64, 117), and the words of the capabilities are PRESUMED (log 121). -/
def Obligations.ReadsGiveTheirRegisterAndClear : Prop := ∀ s : State,
  (s.off = false → s.cp.d3 = false →
    exec (.devStatusRead true) s = .next (s.put (.read (devStatus s))) ∧
    exec (.devStatusRead false) s = .next ({ s with regs.lockViol := false, regs.guardFail := false, regs.accessErr := false }.put (.read (devStatus s))) ∧
    exec (.guarMissRead true) s = .next (s.put (.read (s.regs.guarMiss.setWidth 64))) ∧
    exec (.guarMissRead false) s = .next ({ s with regs.guarMiss := 0 }.put (.read (s.regs.guarMiss.setWidth 64))) ∧
    exec (.hmfStatusRead true) s = .next (s.put (.read (fifoStatus false s))) ∧
    exec (.hmfStatusRead false) s = .next ({ s with
      regs.hmf := { s.regs.hmf with crossings := 0, overruns := 0, overrun := false, crossed := false } }.put (.read (fifoStatus false s))) ∧
    exec (.evfStatusRead true) s = .next (s.put (.read (fifoStatus true s))) ∧
    exec (.evfStatusRead false) s = .next ({ s with
      regs.evf := { s.regs.evf with crossings := 0, overruns := 0, overrun := false, crossed := false } }.put (.read (fifoStatus true s))) ∧
    exec (.thermStatusRead true) s = .next (s.put (.read (thermStatus s))) ∧
    exec (.thermStatusRead false) s = .next ({ s with ao.peak := s.ao.tj, ao.tripped := false }.put (.read (thermStatus s)))) ∧
  (s.off = false → s.cp.d3 = false → s.regs.guardP = none → let read := fun (off : BitVec 20) (size : BitVec 4) => exec (.counterLowRead ⟨.bar0 off, size⟩) s
    read 0x8008 8 = .next (s.put (.read (s.regs.snpTo.setWidth 64))) ∧ read 0x8808 8 = .next (s.put (.read (~~~(s.regs.snpTo.setWidth 64)))) ∧
    read 0x8010 8 = .next (s.put (.read (s.regs.farTo.setWidth 64))) ∧ read 0x8810 8 = .next (s.put (.read (~~~(s.regs.farTo.setWidth 64)))) ∧
    read 0x8 8 = .next (s.put (.read (s.mode.setWidth 64))) ∧ read 0x10008 8 = .next (s.put (.read (s.mode.setWidth 64))) ∧
    (∀ size, size ≠ 8 → read 0x10 size = .next ((badAccess s).put (.read 0))) ∧
    (∀ n : BitVec 4, read (0x40000 + 16 * n.setWidth 20) 8 = .next (s.put (.read (BitVec.ofNat 64 (s.qp n.toNat).sqHead))) ∧
      read (0x40008 + 16 * n.setWidth 20) 8 = .next (s.put (.read (BitVec.ofNat 64 (s.qp n.toNat).cqTail)))) ∧
    read 0x40100 8 = .next (s.put (.read (BitVec.ofNat 64 s.cp.eqTail))) ∧ read 0x8018 8 = .next (s.put (.read 0)) ∧ read 0x8818 8 = .next (s.put (.read 0)) ∧
    (∀ off size, 0x70000 ≤ off.toNat → size ≤ 8 → read off size = .next (s.put (.read 0))) ∧
    (∀ off size, 0x70000 ≤ off.toNat → 8 < size → read off size = .next ((badAccess s).put (.read 0)))) ∧
  (s.off = false → s.cp.d3 = false → s.regs.guardP ≠ none → ∀ off : BitVec 20, 0x8000 ≤ off.toNat → off.toNat < 0x9000 →
    (∀ size : BitVec 4, size ≠ 8 ∨ off.toNat % 8 ≠ 0 → exec (.counterLowRead ⟨.bar0 off, size⟩) s = .next ((badAccess (guardFailed s)).put (.read 0))) ∧
    (off.toNat % 8 = 0 → ∃ w, exec (.counterLowRead ⟨.bar0 off, 8⟩) s = .next ((guardFailed s).put (.read w)) ∧
      (off.toNat < 0x8800 → w = guardedGet s off.toNat) ∧ (0x8800 ≤ off.toNat → guardedReg (off.toNat - 0x800) = true → w = ~~~guardedGet s (off.toNat - 0x800)))) ∧
  (s.off = false → s.cp.d3 = false → ∀ n : BitVec 5, let e := NMap.get (0, 0) s.cp.table n.toNat
    let word := fun (k : BitVec 14) => exec (.counterLowRead ⟨.bar2 (16 * n.setWidth 14 + k), 4⟩) s
    word 0 = .next (s.put (.read (BitVec.ofNat 64 (nbits e.1 31 0)))) ∧ word 4 = .next (s.put (.read (BitVec.ofNat 64 (nbits e.1 63 32)))) ∧
    word 8 = .next (s.put (.read (e.2.setWidth 64))) ∧ word 12 = .next (s.put (.read (BitVec.ofNat 64 (b2n (bit s.cp.masked n.toNat))))) ∧
    exec (.counterLowRead ⟨.bar2 0x1000, 4⟩) s = .next (s.put (.read (s.cp.pend.setWidth 64)))) ∧
  (s.off = false → ∀ (r : CfgReg) (w size : BitVec 4), exec (.counterLowRead ⟨.cfg r, size⟩) s = .next (s.put (.read (cfgRead s r))) ∧
    exec (.counterLowRead ⟨.header w, size⟩) s = .next (s.put (.read (BitVec.ofNat 64 (leAt (configHeader s) (4 * w.toNat) 4))))) ∧
  (∀ code : Byte, s.ao.up = true → exec (.bmcBlockRead code) s = .next (s.put (.bmc (bmcWord s code.toNat))))

/-- The message FIFOs and the test access port (R444, R445, R523): a word written joins the Host Message FIFO with its SEQ, or overruns it when full;
the firmware answers an ECHO; the Event FIFO gives its oldest word, and zero when empty; a closed or undefined instruction is BYPASS (its code, and that
it acts so, are PRESUMED, log 41), and EXTEST, EXTEST_PULSE and EXTEST_TRAIN behave as BYPASS while RESET_N is high. -/
def Obligations.FifosAndTestPortActAsTheirTables : Prop := ∀ (v : BitVec 64) (s : State), s.off = false → s.cp.d3 = false →
  (s.regs.hmf.words.length < 256 → exec (.hmfWrite v) s = .next (judgeFifo false { s with regs.hmf := { s.regs.hmf with
    words := s.regs.hmf.words ++ [fifoWord s.regs.hmf.seq (bits v 47 40) (bits v 39 0)], seq := s.regs.hmf.seq + 1 } })) ∧
  (256 ≤ s.regs.hmf.words.length → exec (.hmfWrite v) s = .next (overrunFifo false s)) ∧
  (∀ w rest, s.regs.hmf.words = w :: rest → s.boot.fwRun = true →
    let u := judgeFifo false { s with regs.hmf := { s.regs.hmf with words := rest } }
    exec (.hmfWordTake false) s = .next (if nbits w 47 40 = 1 then evfPush 0x81 (bits w 39 0) u else u) ∧
    exec (.hmfWordTake true) s = .next (logErr 0x0015 2 5 0 0 0 (nbits w 62 48 * 256) u)) ∧
  (s.regs.evf.words = [] → ∀ perr, exec (.evfRead perr) s = .next (s.put (.read 0))) ∧
  (∀ w rest, s.regs.evf.words = w :: rest →
    let u := { s with regs.evf := { s.regs.evf with words := rest } }
    exec (.evfRead false) s = .next ((judgeFifo true u).put (.read w)) ∧
    exec (.evfRead true) s = .next ((judgeFifo true (logErr 0x0015 2 5 0 0 0 (nbits w 62 48 * 256 + 1) u)).put (.read (w ||| 0x8000000000000000)))) ∧
  (∀ ins : BitVec 3,
    (ins.toNat < 6 ∨ (ins = 6 ∧ s.keys.tapOpen = true) → exec (.tapInstruction ins) s = .next { s with ao.tap := ins }) ∧
    (ins = 7 ∨ (ins = 6 ∧ s.keys.tapOpen = false) → exec (.tapInstruction ins) s = .next { s with ao.tap := 0 })) ∧
  (∀ t : State, (t.ao.tap.toNat < 3 ∨ t.ao.tap = 6 ∨ t.ao.inReset = true → tapActs t = t.ao.tap) ∧
    (3 ≤ t.ao.tap.toNat → t.ao.tap.toNat < 6 → t.ao.inReset = false → tapActs t = 0))

/-- The recorder's rows (R489, R491, R493, R494, R496): capture starts once the slices are idle, gives up at its timeout, spills one trace line at
a time, wrapping at LIMIT or stopping there, and stops when a spill write fails; a replay cycle whose trace cannot be read ends the replay, any other
injects and compares its records in order. -/
def Obligations.RecorderRowsCaptureAndReplay : Prop := ∀ s : State, s.off = false →
  (s.quiescing = true → slicesIdle s = true → exec .recT0Reached s = .next (rowEnd s (recStartEnd St.ok (recBegin s)))) ∧
  (s.quiescing = true → exec .recQuiesceTimeout s = .next (rowEnd s (recStartEnd St.quiesce_failed { s with rec_.st := 0 }))) ∧
  (∀ ok perr, s.mode ≠ 4 →
    let due := (s.recording = true ∧ 128 ≤ s.rec_.staging.length) ∨ (s.recording = false ∧ s.rec_.st = 3 ∧ s.rec_.staging ≠ [])
    let wrap := bit s.rec_.cfg 2
    let good := ok = true ∧ traceOk (s.region s.rec_.region) = true ∧ deadAt s (spillLine s) = false
    let u := if perr then logSram 11 5 0 0 s else s
    let v := { u with
      rec_.staging := u.rec_.staging.drop 128, rec_.lines := s.rec_.lines + 1, rec_.units := s.rec_.units + 8
      rec_.poisoned := s.rec_.poisoned + b2n perr }.put (.trace (spillLine s) (slice0 s.rec_.staging 0 128) perr)
    (¬due → exec (.recSpillWrite ok perr) s = .next (rowEnd s s)) ∧
    (due → good → (wrap = true ∨ s.rec_.lines + 1 < s.rec_.limit) → exec (.recSpillWrite ok perr) s = .next (rowEnd s v)) ∧
    (due → good → wrap = false → s.rec_.lines + 1 = s.rec_.limit → exec (.recSpillWrite ok perr) s = .next (rowEnd s (recStop 1 v))) ∧
    (due → wrap = false → s.rec_.limit ≤ s.rec_.lines →
      exec (.recSpillWrite ok perr) s = .next (rowEnd s (recStop 1 { s with rec_.staging := [] }))) ∧
    (due → ¬good → (wrap = true ∨ s.rec_.lines < s.rec_.limit) → exec (.recSpillWrite ok perr) s = .next (rowEnd s (recStop 3
      (logErr 0x0022 3 2 (s.farOf (spillLine s)).1 0 (spillLine s).toNat (if deadAt s (spillLine s) then 2 else 0) (cntErr 9 1 { s with rec_.staging := [] })))))) ∧
  (s.mode = 4 → ∀ ok perr, exec (.recSpillWrite ok perr) s = .next (rowEnd s s)) ∧
  (∀ b, s.mode = 4 → exec (.replayCycle b false) s = .next (rowEnd s (replayEnd 4 s))) ∧
  (∀ b, s.mode = 4 →
    let u := (recCycles 4096 ((recParse 4096 b).take s.rec_.rLeft)).foldl replayGroup s
    (u.mode ≠ 4 ∨ u.rec_.rLeft ≠ 0 → exec (.replayCycle b true) s = .next (rowEnd s u)) ∧
    (u.mode = 4 → u.rec_.rLeft = 0 → u.rec_.rOut = [] → exec (.replayCycle b true) s = .next (rowEnd s (replayEnd 0 u))) ∧
    (∀ x rest, u.mode = 4 → u.rec_.rLeft = 0 → u.rec_.rOut = x :: rest →
      exec (.replayCycle b true) s = .next (rowEnd s (diverge x.1 2 (0, 0) x.2 u))))

/-! ### Rules of the whole machine -/

/-- The gates of every command packet, in order (R319, R410, R411, R416, R456): where no command is taken, or this one is neither taken nor next,
nothing happens, one that must wait joins the taken entries, one in a wrong mode or without its role completes with MODE_REFUSED or AUTH_REQUIRED and no other effect. -/
def Obligations.CommandPacketsPassTheirGates : Prop :=
  ∀ (c : Instr) (s : State) (op : Byte) (modes : List (BitVec 3)) (auth : Nat) (reads : Bool) (p : Packet),
    commandRow c = some (op, modes, auth, reads, p) →
    let gives := fun (t : State) => exec c s = .next t ∨ exec c s = .next (act s t)
    (s.deaf = true ∨ s.canTake op p = false → gives s) ∧
    (s.deaf = false → s.canTake op p = true → blocked op reads p s = true → gives (waitTaken op p s)) ∧
    (s.deaf = false → s.canTake op p = true → blocked op reads p s = false → modeBad op modes s = true →
      gives (complete p St.mode_refused 0 (startTaken op p s))) ∧
    (s.deaf = false → s.canTake op p = true → blocked op reads p s = false → modeBad op modes s = false → authBad auth s = true →
      gives (complete p St.auth_required 0 (startTaken op p s)))

/-- What only certain commands change: every other command, in every state, leaves the settings, keys and roles, the lock, FREEZE_MASK, DURABLE_BUDGET,
PFW_CONFIG, the guarded registers, ways, partitions, the test port and the time anchor as they are. -/
def Obligations.OnlyTheirOwnCommandsChangeProtectedState : Prop :=
  ∀ (c : Instr) (s t : State), changesKept c = false → exec c s = .next t → t.kept = s.kept

/-- The locked region table (R43): the commands that change it complete with REGION_LOCKED, leave it alone and set LOCK_VIOLATION with its counter, a
second REGION_LOCK completes normally, the queries stay available; and no command but a reset or power event (R24) clears a set lock. -/
def Obligations.LockedRegionTableStaysLocked : Prop :=
  (∀ (p : Packet) (s : State), s.locked = false → ready (.regionLock p) s = true → p.rsv 0 0 true = false →
    exec (.regionLock p) s = .next (rowEnd s (complete p St.ok 0 { began 0x15 p s with trip.lock := Trip.all 1 }))) ∧
  (∀ (p : Packet) (s : State), s.locked = true →
    let out := fun (op : Byte) (st : BitVec 16) => complete p st 0 (lockViolation (began op p s))
    (ready (.regionSet p) s = true → exec (.regionSet p) s = .next (rowEnd s (out 0x10 St.region_locked))) ∧
    (ready (.regionClear p) s = true → exec (.regionClear p) s = .next (rowEnd s (out 0x11 St.region_locked))) ∧
    (ready (.regionPerm p) s = true → exec (.regionPerm p) s = .next (rowEnd s (out 0x12 St.region_locked))) ∧
    (ready (.regionLock p) s = true → p.rsv 0 0 true = false → exec (.regionLock p) s = .next (rowEnd s (out 0x15 St.ok))) ∧
    (∀ op st, (out op st).regions = s.regions ∧ (out op st).trip = s.trip ∧ (out op st).regs.lockViol = true ∧
      (out op st).regs.lockViols = s.regs.lockViols + 1) ∧
    (ready (.regionQuery p) s = true → (p.rsv 8 0 false || decide (1023 < p.target.toNat) || badBuf p.addr 64 64) = false →
      exec (.regionQuery p) s = .next (completeBlock p (regionBlock (s.region p.target.toNat)) St.ok 0 (began 0x13 p s))) ∧
    (∀ i e, ready (.regionLookup p) s = true → p.rsv 5 0 true = false → s.cover (BitVec.ofNat 40 (p.par 0 5)) = some (i, e) →
      exec (.regionLookup p) s = .next (complete p St.ok (lookupResult (BitVec.ofNat 40 (p.par 0 5)) i e) (began 0x14 p s)))) ∧
  (∀ (c : Instr) (s t : State), isReset c = false → s.trip.lock = Trip.all 1 → exec c s = .next t → t.trip.lock = Trip.all 1)

/-- The home slice of a line (R22): three parities over every third bit; the eight lines of an aligned block fall on eight slices, and an aligned
granule of 32 lines puts four on each. -/
def Obligations.HomeSliceIsTheParityOfEveryThirdBit : Prop :=
  (∀ l : LineNo, homeSlice l =
    4 * b2n (([2, 5, 8, 11, 14, 17, 20, 23, 26, 29, 32, 35, 38].map (fun i => l.getLsbD i)).foldl xor false) +
    2 * b2n (([1, 4, 7, 10, 13, 16, 19, 22, 25, 28, 31, 34, 37].map (fun i => l.getLsbD i)).foldl xor false) +
    b2n (([0, 3, 6, 9, 12, 15, 18, 21, 24, 27, 30, 33, 36, 39].map (fun i => l.getLsbD i)).foldl xor false)) ∧
  (∀ (b : Nat), b < 2 ^ 37 → ∀ i < 8, homeSlice (BitVec.ofNat 40 (8 * b + i)) = homeSlice (BitVec.ofNat 40 (8 * b)) ^^^ i) ∧
  (∀ (b : Nat), b < 2 ^ 35 → ∀ n < 8, ((List.range 32).filter (fun i => homeSlice (BitVec.ofNat 40 (32 * b + i)) = n)).length = 4) ∧
  (List.range 16).map (fun i => homeSlice (BitVec.ofNat 40 i)) = [0, 1, 2, 3, 4, 5, 6, 7, 1, 0, 3, 2, 5, 4, 7, 6]

/-- Set and tag of a line (R57), for every population of R54: S[2:0] is the home slice, S[k-1:3] = L[k-1:3] XOR L[39:k], TAG = L[39:22]; lines with
one L[39:k] fall on distinct sets, one for every set, and set and tag give the line back. -/
def Obligations.SetAndTagGiveTheLineBack : Prop :=
  (∀ (s : State) (k : Nat), s.popK = some k → 23 ≤ k ∧ k ≤ 26 ∧ s.nSets = 2 ^ k ∧ ∀ l, s.setOf l = setNo k l) ∧
  ∀ k : Nat, 22 ≤ k → k ≤ 26 → ∀ l : LineNo,
    setNo k l < 2 ^ k ∧ setNo k l % 8 = homeSlice l ∧ setNo k l / 8 = l.toNat % 2 ^ k / 8 ^^^ l.toNat / 2 ^ k ∧
    (tagOf l).toNat = l.toNat / 2 ^ 22 ∧ lineOf k (setNo k l) (tagOf l) = l ∧
    (∀ l' : LineNo, l'.toNat / 2 ^ k = l.toNat / 2 ^ k → setNo k l' = setNo k l → l' = l) ∧
    (∀ set < 2 ^ k, ∃ l' : LineNo, l'.toNat / 2 ^ k = l.toNat / 2 ^ k ∧ setNo k l' = set)

/-- CUSTOMER_KEY_SET (R468): the hash goes into the empty slot, an all-zero hash is INVALID_PARAM, and a second one completes normally, changes
nothing and sets LOCK_VIOLATION. -/
def Obligations.CustomerKeySlotIsWrittenOnce : Prop := ∀ (p : Packet) (s : State),
  ready (.customerKeySet p) s = true → (p.rsv 8 0 true || badBuf p.addr 1 48) = false → p.readOk = true →
  let h := leNat (p.data.take 48)
  (h = 0 → exec (.customerKeySet p) s = .next (complete p St.invalid_param 0 (startTaken 0x94 p s))) ∧
  (h ≠ 0 → s.keys.custOn = false → exec (.customerKeySet p) s =
    .next (complete p St.ok 0 { began 0x94 p s with keys.custOn := true, keys.cust := BitVec.ofNat 384 h })) ∧
  (h ≠ 0 → s.keys.custOn = true →
    let t := complete p St.ok 0 (lockViolation (began 0x94 p s))
    exec (.customerKeySet p) s = .next t ∧ t.keys = s.keys ∧ t.regs.lockViol = true ∧ t.regs.lockViols = s.regs.lockViols + 1)

/-- The two halves of a counter (R440, R442): the low half loads the high half of the same sample into the latch; the read at offset + 4 returns the latch
right after that, else the live bits; a 64-bit read gives all of one sample; a read of any other length and a 32-bit write are bad accesses. -/
def Obligations.CounterHalvesComeFromOneSample : Prop := ∀ (off : BitVec 20) (c : Ctr) (s : State), s.off = false → s.cp.d3 = false →
  let o := off.toNat % 0x10000 - off.toNat % 8
  let read := fun (size : BitVec 4) => exec (.counterLowRead ⟨.bar0 (BitVec.ofNat 20 (0x50000 + o)), size⟩) s
  ctrAt s o = some c →
  (read 4 = .next ({ s with regs.latch := bits (ctrGet s c) 63 32, regs.latchOff := some (BitVec.ofNat 20 o) }.put
    (.read (BitVec.ofNat 64 (nbits (ctrGet s c) 31 0))))) ∧
  (read 8 = .next ({ s with regs.latchOff := none }.put (.read (ctrGet s c)))) ∧
  (∀ size, size ≠ 4 → size ≠ 8 → read size = .next ((badAccess { s with regs.latchOff := none }).put (.read 0))) ∧
  (s.regs.latchOff = some (BitVec.ofNat 20 o) →
    exec (.counterHighRead off) s = .next ({ s with regs.latchOff := none }.put (.read (s.regs.latch.setWidth 64)))) ∧
  (s.regs.latchOff ≠ some (BitVec.ofNat 20 o) →
    exec (.counterHighRead off) s = .next ({ s with regs.latchOff := none }.put (.read (BitVec.ofNat 64 (nbits (ctrGet s c) 63 32))))) ∧
  (∀ v, exec (.counterWrite off v 4) s = .next (badAccess { s with regs.latchOff := none }))

/-- The frame of the sequencer instructions (R132, R137, R138, R149): outside DONE, EMIT and faults, nothing but the sequencer that issues changes; of
its memories ST writes one data word, STI one instruction word, and no other instruction any; both stay in canonical form. -/
def Obligations.SequencerInstructionsStayInTheirSequencer : Prop :=
  ∀ (c : Instr) (sl : BitVec 3) (gd : BitVec 4) (k : IKind) (s t : State),
    seqRow c = some (sl, gd, k) → ownSequencer c s = true → exec c s = .next t →
    let q := s.seq sl.toNat
    let u := t.seq sl.toNat
    { t with slices := s.slices } = s ∧ (∀ n, n ≠ sl.toNat → t.slice n = s.slice n) ∧ t.slice sl.toNat = { s.slice sl.toNat with seq := u } ∧
    ((∀ ra rb imm, c ≠ .st sl gd ra rb imm) → u.dmem = q.dmem) ∧
    (∀ ra rb imm, c = .st sl gd ra rb imm → ∀ a, a ≠ (q.land.rg ra + imm).toNat % 8192 → NMap.get 0 u.dmem a = NMap.get 0 q.dmem a) ∧
    ((∀ rd ra rb imm, c ≠ .sti sl gd rd ra rb imm) → u.imem = q.imem) ∧
    (∀ rd ra rb imm, c = .sti sl gd rd ra rb imm → ∀ a, a ≠ (q.land.rg ra + imm).toNat % 2048 → NMap.get 0 u.imem a = NMap.get 0 q.imem a) ∧
    (NMap.wf 0 q.dmem = true → NMap.wf 0 u.dmem = true) ∧ (NMap.wf 0 q.imem = true → NMap.wf 0 u.imem = true)

/-- The frame of the queries: a query changes nothing but what the control port gives back. -/
def Obligations.QueriesChangeOnlyTheControlPort : Prop := ∀ (c : Instr) (s t : State), isQuery c = true → exec c s = .next t →
  { t with cp := s.cp, out := s.out, free := s.free } = s ∧ t.cp.prog = s.cp.prog ∧ t.cp.staged = s.cp.staged
end

