-- ==== Sys2Proof/Laws/NMap.lean ====
section
/-! SUPPORT. Sparse maps: a read after a write, two writes to one key, and the canonical form, which every write keeps. -/
namespace Sys2Proof.Machine
variable {β : Type}

theorem NMap.get_ins_self (d v : β) (k : Nat) (m : List (Nat × β)) (h : ∀ e ∈ m, e.1 ≠ k) : NMap.get d (NMap.ins k v m) k = v := by
  induction m with
  | nil => simp [NMap.ins, NMap.get]
  | cons e m ih =>
    obtain ⟨j, w⟩ := e
    have hj : j ≠ k := h (j, w) (by simp)
    unfold NMap.ins
    split
    · simp [NMap.get]
    · simp only [NMap.get, hj, if_false]
      exact ih fun e he => h e (by simp [he])

theorem NMap.get_ins_ne (d v : β) {k i : Nat} (m : List (Nat × β)) (h : i ≠ k) : NMap.get d (NMap.ins k v m) i = NMap.get d m i := by
  induction m with
  | nil => simp [NMap.ins, NMap.get, h.symm]
  | cons e m ih =>
    obtain ⟨j, w⟩ := e
    unfold NMap.ins
    split
    · simp [NMap.get, h.symm]
    · simp only [NMap.get, ih]

theorem NMap.get_erase_self (d : β) (m : List (Nat × β)) (k : Nat) : NMap.get d (NMap.erase m k) k = d := by
  induction m with
  | nil => rfl
  | cons e m ih =>
    obtain ⟨j, w⟩ := e
    by_cases hj : j = k
    · subst hj; simpa [NMap.erase] using ih
    · have : NMap.erase ((j, w) :: m) k = (j, w) :: NMap.erase m k := by simp [NMap.erase, hj]
      rw [this]; simpa [NMap.get, hj] using ih

theorem NMap.get_erase_ne (d : β) {k i : Nat} (m : List (Nat × β)) (h : i ≠ k) : NMap.get d (NMap.erase m k) i = NMap.get d m i := by
  induction m with
  | nil => rfl
  | cons e m ih =>
    obtain ⟨j, w⟩ := e
    by_cases hj : j = k
    · subst hj
      have : NMap.erase ((j, w) :: m) j = NMap.erase m j := by simp [NMap.erase]
      rw [this, ih]; simp [NMap.get, h.symm]
    · have : NMap.erase ((j, w) :: m) k = (j, w) :: NMap.erase m k := by simp [NMap.erase, hj]
      rw [this]; simp only [NMap.get, ih]

theorem NMap.not_mem_erase (m : List (Nat × β)) (k : Nat) : ∀ e ∈ NMap.erase m k, e.1 ≠ k := by
  intro e he; simpa using (List.mem_filter.mp he).2

theorem NMap.erase_of_not_mem (m : List (Nat × β)) (k : Nat) (h : ∀ e ∈ m, e.1 ≠ k) : NMap.erase m k = m :=
  List.filter_eq_self.mpr fun e he => by simpa using h e he

theorem NMap.erase_ins (v : β) (m : List (Nat × β)) (k : Nat) (h : ∀ e ∈ m, e.1 ≠ k) : NMap.erase (NMap.ins k v m) k = m := by
  induction m with
  | nil => simp [NMap.ins, NMap.erase]
  | cons e m ih =>
    obtain ⟨j, w⟩ := e
    have hj : j ≠ k := h (j, w) (by simp)
    have hm : ∀ e ∈ m, e.1 ≠ k := fun e he => h e (by simp [he])
    unfold NMap.ins
    split
    · have := NMap.erase_of_not_mem ((j, w) :: m) k h
      simpa [NMap.erase] using this
    · have := ih hm
      simp only [NMap.erase, List.filter_cons] at this ⊢
      simp [hj, this]

variable [DecidableEq β]

/-- A read of the key just written gives the value written. -/
@[simp] theorem NMap.get_set_self (d v : β) (m : List (Nat × β)) (k : Nat) : NMap.get d (NMap.set d m k v) k = v := by
  unfold NMap.set
  split
  · next h => rw [NMap.get_erase_self, h]
  · exact NMap.get_ins_self d v k _ (NMap.not_mem_erase m k)

/-- A write leaves every other key alone. -/
theorem NMap.get_set_ne (d v : β) (m : List (Nat × β)) {k i : Nat} (h : i ≠ k) : NMap.get d (NMap.set d m k v) i = NMap.get d m i := by
  unfold NMap.set
  split
  · exact NMap.get_erase_ne d m h
  · rw [NMap.get_ins_ne d v _ h, NMap.get_erase_ne d m h]

theorem NMap.erase_set (d v : β) (m : List (Nat × β)) (k : Nat) : NMap.erase (NMap.set d m k v) k = NMap.erase m k := by
  unfold NMap.set
  split
  · exact NMap.erase_of_not_mem _ k (NMap.not_mem_erase m k)
  · exact NMap.erase_ins v _ k (NMap.not_mem_erase m k)

/-- Of two writes to one key the later stands. -/
@[simp] theorem NMap.set_set (d v w : β) (m : List (Nat × β)) (k : Nat) : NMap.set d (NMap.set d m k v) k w = NMap.set d m k w := by
  show (if w = d then NMap.erase (NMap.set d m k v) k else NMap.ins k w (NMap.erase (NMap.set d m k v) k)) = _
  rw [NMap.erase_set]; rfl

@[simp] theorem NMap.get_upd_self (d : β) (m : List (Nat × β)) (k : Nat) (f : β → β) : NMap.get d (NMap.upd d m k f) k = f (NMap.get d m k) :=
  NMap.get_set_self d _ m k
theorem NMap.get_upd_ne (d : β) (m : List (Nat × β)) {k i : Nat} (f : β → β) (h : i ≠ k) : NMap.get d (NMap.upd d m k f) i = NMap.get d m i :=
  NMap.get_set_ne d _ m h
/-- Two changes of one key are one. -/
@[simp] theorem NMap.upd_upd (d : β) (m : List (Nat × β)) (k : Nat) (f g : β → β) : NMap.upd d (NMap.upd d m k f) k g = NMap.upd d m k (fun x => g (f x)) := by
  simp [NMap.upd]

theorem NMap.wf_cons (d : β) (e : Nat × β) (m : List (Nat × β)) :
    NMap.wf d (e :: m) = true ↔ e.2 ≠ d ∧ (∀ x ∈ m, e.1 < x.1) ∧ NMap.wf d m = true := by
  simp [NMap.wf, and_assoc]

theorem NMap.wf_erase (d : β) (m : List (Nat × β)) (k : Nat) (h : NMap.wf d m = true) : NMap.wf d (NMap.erase m k) = true := by
  induction m with
  | nil => rfl
  | cons e m ih =>
    rw [NMap.wf_cons] at h
    by_cases hj : e.1 = k
    · have : NMap.erase (e :: m) k = NMap.erase m k := by simp [NMap.erase, hj]
      rw [this]; exact ih h.2.2
    · have : NMap.erase (e :: m) k = e :: NMap.erase m k := by simp [NMap.erase, hj]
      rw [this, NMap.wf_cons]
      exact ⟨h.1, fun x hx => h.2.1 x (List.mem_filter.mp hx).1, ih h.2.2⟩

omit [DecidableEq β] in
theorem NMap.mem_ins (k : Nat) (v : β) (m : List (Nat × β)) (x : Nat × β) (h : x ∈ NMap.ins k v m) : x = (k, v) ∨ x ∈ m := by
  induction m with
  | nil => simpa [NMap.ins] using h
  | cons e m ih =>
    obtain ⟨j, w⟩ := e
    unfold NMap.ins at h
    split at h
    · simpa using h
    · rcases List.mem_cons.mp h with h | h
      · exact .inr (by simp [h])
      · rcases ih h with h | h
        · exact .inl h
        · exact .inr (by simp [h])

theorem NMap.wf_ins (d v : β) (m : List (Nat × β)) (k : Nat) (hv : v ≠ d) (hk : ∀ e ∈ m, e.1 ≠ k) (h : NMap.wf d m = true) :
    NMap.wf d (NMap.ins k v m) = true := by
  induction m with
  | nil => simp [NMap.ins, NMap.wf, hv]
  | cons e m ih =>
    obtain ⟨j, w⟩ := e
    have h' := (NMap.wf_cons d (j, w) m).mp h
    have hj : j ≠ k := hk (j, w) (by simp)
    unfold NMap.ins
    split
    · next hlt =>
      rw [NMap.wf_cons]
      refine ⟨hv, fun x hx => ?_, h⟩
      rcases List.mem_cons.mp hx with hx | hx
      · simpa [hx] using hlt
      · exact Nat.lt_trans hlt (h'.2.1 x hx)
    · next hlt =>
      rw [NMap.wf_cons]
      refine ⟨h'.1, fun x hx => ?_, ih (fun e he => hk e (by simp [he])) h'.2.2⟩
      rcases NMap.mem_ins k v m x hx with hx | hx
      · subst hx; simp only; omega
      · exact h'.2.1 x hx

/-- Every write keeps the canonical form. -/
theorem NMap.wf_set (d v : β) (m : List (Nat × β)) (k : Nat) (h : NMap.wf d m = true) : NMap.wf d (NMap.set d m k v) = true := by
  unfold NMap.set
  split
  · exact NMap.wf_erase d m k h
  · next hv => exact NMap.wf_ins d v _ k hv (NMap.not_mem_erase m k) (NMap.wf_erase d m k h)
/-- Every change keeps the canonical form. -/
theorem NMap.wf_upd (d : β) (m : List (Nat × β)) (k : Nat) (f : β → β) (h : NMap.wf d m = true) : NMap.wf d (NMap.upd d m k f) = true :=
  NMap.wf_set d _ m k h

end Sys2Proof.Machine
end

