-- ==== Sys2Proof/Laws/Commands.lean ====
section
/-! SUPPORT. What a command packet answers: its effect, the status of its first failing check, or one of its gates; and where `act` and `live` let a
command through. -/
namespace Sys2Proof.Machine

theorem act_on {s t : State} (h : s.off = false) : act s t = rowEnd s t := by simp [act, h]
theorem act_off {s t : State} (h : s.off = true) : act s t = s := by simp [act, h]
theorem clocked_on {s t : State} (h : s.sliceOff = false) : clocked s t = rowEnd s t := by simp [clocked, h]
theorem clocked_off {s t : State} (h : s.sliceOff = true) : clocked s t = s := by simp [clocked, h]
theorem ctl_on {s t : State} (h : s.off = false) (h' : s.cp.d3 = false) : ctl s t = t := by simp [ctl, h, h']
theorem ctl_d3 {s t : State} (h : s.cp.d3 = true) : ctl s t = s := by simp [ctl, h]
theorem live_on {s t : State} (h : s.off = false) : live s t = t := by simp [live, h]
theorem live_off {s t : State} (h : s.off = true) : live s t = s := by simp [live, h]
/-- Where commands are taken, the hub's clocks run. -/
theorem not_off_of_deaf {s : State} (h : s.deaf = false) : s.off = false := by
  simp [State.deaf] at h; simp [State.off, h]

section
theorem modeBad_startTaken (o op : Byte) (modes : List (BitVec 3)) (p : Packet) (s : State) : modeBad o modes (startTaken op p s) = modeBad o modes s := by
  rfl
theorem authBad_startTaken (auth : Nat) (op : Byte) (p : Packet) (s : State) : authBad auth (startTaken op p s) = authBad auth s := by
  rfl
/-- A command that starts leaves every queue pair in being as it is. -/
theorem startTaken_qp_on (op : Byte) (p : Packet) (s : State) (n : Nat) : ((startTaken op p s).qp n).on = (s.qp n).on := by
  unfold startTaken State.qp
  simp only
  split
  · rfl
  · by_cases h : n = (p.qp.setWidth 4).toNat
    · subst h; rw [NMap.get_upd_self]; rfl
    · rw [NMap.get_upd_ne _ _ _ h]
variable {op : Byte} {modes : List (BitVec 3)} {auth : Nat} {reads : Bool} {p : Packet} {chk : State → List (Bool × BitVec 16)} {body : State → State} {s : State}
/-- A packet past its gates and checks has its effect. -/
theorem cmd_of_ready (h : (!(s.deaf || !s.canTake op p) && !blocked op reads p s && !modeBad op modes s && !authBad auth s) = true)
    (hc : firstFail (chk (startTaken op p s)) = none) : cmd op modes auth reads p chk body s = body (began op p s) := by
  simp only [Bool.and_eq_true, Bool.not_eq_true'] at h
  obtain ⟨⟨⟨h1, h2⟩, h3⟩, h4⟩ := h
  simp only [cmd, h1, h2, firstFail, modeBad_startTaken, authBad_startTaken, h3, h4, hc, began, if_false, Bool.false_eq_true]
/-- A packet past its gates completes with the status of the first check that fails. -/
theorem cmd_fails {st : BitVec 16} (h : (!(s.deaf || !s.canTake op p) && !blocked op reads p s && !modeBad op modes s && !authBad auth s) = true)
    (hc : firstFail (chk (startTaken op p s)) = some st) : cmd op modes auth reads p chk body s = complete p st 0 (startTaken op p s) := by
  simp only [Bool.and_eq_true, Bool.not_eq_true'] at h
  obtain ⟨⟨⟨h1, h2⟩, h3⟩, h4⟩ := h
  simp only [cmd, h1, h2, firstFail, modeBad_startTaken, authBad_startTaken, h3, h4, hc, if_false, Bool.false_eq_true]
/-- A packet that is not to be taken leaves everything as it is. -/
theorem cmd_waits (h : (s.deaf || !s.canTake op p) = true) : cmd op modes auth reads p chk body s = s := by simp only [cmd, h, if_true]
theorem cmd_blocked (h : (s.deaf || !s.canTake op p) = false) (hb : blocked op reads p s = true) :
    cmd op modes auth reads p chk body s = waitTaken op p s := by
  simp only [cmd, h, hb, if_true, Bool.false_eq_true, if_false]
theorem cmd_mode_bad (h : (s.deaf || !s.canTake op p) = false) (hb : blocked op reads p s = false) (hm : modeBad op modes s = true) :
    cmd op modes auth reads p chk body s = complete p St.mode_refused 0 (startTaken op p s) := by
  simp only [cmd, h, hb, firstFail, modeBad_startTaken, hm, if_true, Bool.false_eq_true, if_false]
theorem cmd_auth_bad (h : (s.deaf || !s.canTake op p) = false) (hb : blocked op reads p s = false) (hm : modeBad op modes s = false) (ha : authBad auth s = true) :
    cmd op modes auth reads p chk body s = complete p St.auth_required 0 (startTaken op p s) := by
  simp only [cmd, h, hb, firstFail, modeBad_startTaken, authBad_startTaken, hm, ha, if_true, Bool.false_eq_true, if_false]

variable {c : Instr}
theorem not_off_of_ready (hr : commandRow c = some (op, modes, auth, reads, p)) (h : ready c s = true) : s.off = false := by
  simp [ready, hr] at h; exact not_off_of_deaf h.1.1.1.1
/-- The shape of a row whose effect settles. -/
theorem runsTo_act {checks : List (Bool × BitVec 16)} (hr : commandRow c = some (op, modes, auth, reads, p))
    (he : exec c s = .next (act s (cmd op modes auth reads p chk body s))) (hc : chk (startTaken op p s) = checks) : RunsTo true c op p s checks body := by
  intro h
  have ho := not_off_of_ready hr h
  rw [he, act_on ho]
  simp only [ready, hr] at h
  subst hc
  exact ⟨fun k => by rw [cmd_of_ready h k]; simp only [if_true], fun st k => by rw [cmd_fails h k]; simp only [if_true]⟩
/-- The shape of a row with nothing to settle. -/
theorem runsTo_plain {checks : List (Bool × BitVec 16)} (hr : commandRow c = some (op, modes, auth, reads, p))
    (he : exec c s = .next (cmd op modes auth reads p chk body s)) (hc : chk (startTaken op p s) = checks) : RunsTo false c op p s checks body := by
  intro h
  rw [he]
  simp only [ready, hr] at h
  subst hc
  exact ⟨fun k => by rw [cmd_of_ready h k]; simp only [Bool.false_eq_true, if_false], fun st k => by rw [cmd_fails h k]; simp only [Bool.false_eq_true, if_false]⟩
end

end Sys2Proof.Machine
end

