-- ==== Sys2Proof/Laws/Kept.lean ====
section
/-! SUPPORT. What every inner operation of the hub leaves alone: the protected part of the state (`Kept`), or, where the operation is made to change some of
it, its settings and the queue. One lemma an operation, cited by those of its callers. -/
set_option linter.unusedSimpArgs false
set_option linter.unusedTactic false
set_option linter.unreachableTactic false
set_option linter.unusedVariables false
set_option linter.tactic.unusedName false
namespace Sys2Proof.Machine

theorem kept_upd (s : State) (ao trip regs cp regions cache pol links slices str drain regl err boot rec_ age cycle nextId free out)
    (h1 : Trips.lock trip = s.trip.lock) (h2 : Trips.key trip = s.trip.key) (h3 : Str.holeTo str = s.str.holeTo)
    (h4 : Err.scrub err = s.err.scrub) (h5 : Err.ceLimit err = s.err.ceLimit) (h6 : Err.ueLimit err = s.err.ueLimit)
    (h7 : Regl.admitPct regl = s.regl.admitPct) (h8 : Regl.margin regl = s.regl.margin) (h9 : Regl.window regl = s.regl.window)
    (h10 : Regl.cap regl = s.regl.cap) (h11 : Trips.freeze trip = s.trip.freeze) (h12 : Trips.budget trip = s.trip.budget)
    (h13 : Trips.pfw trip = s.trip.pfw) (h14 : Regs.zArm regs = s.regs.zArm) (h15 : Regs.snpTo regs = s.regs.snpTo)
    (h16 : Regs.farTo regs = s.regs.farTo) (h17 : Cache.ways cache = s.cache.ways) (h18 : Cache.pmask cache = s.cache.pmask)
    (h19 : Cache.map cache = s.cache.map) (h20 : Ao.tap ao = s.ao.tap) (h21 : Ao.anchor ao = s.ao.anchor) :
    (State.mk ao trip regs cp regions cache pol links slices str s.keys drain regl err boot rec_ age cycle nextId free out s.pending).kept = s.kept := by
  simp only [State.kept, h1, h2, h3, h4, h5, h6, h7, h8, h9, h10, h11, h12, h13, h14, h15, h16, h17, h18, h19, h20, h21]
theorem base_upd (s : State) (ao trip regs cp regions cache pol links slices str keys drain regl err boot rec_ age cycle nextId free out)
    (h3 : Str.holeTo str = s.str.holeTo)
    (h4 : Err.scrub err = s.err.scrub) (h5 : Err.ceLimit err = s.err.ceLimit) (h6 : Err.ueLimit err = s.err.ueLimit)
    (h7 : Regl.admitPct regl = s.regl.admitPct) (h8 : Regl.margin regl = s.regl.margin) (h9 : Regl.window regl = s.regl.window)
    (h10 : Regl.cap regl = s.regl.cap) :
    (State.mk ao trip regs cp regions cache pol links slices str keys drain regl err boot rec_ age cycle nextId free out s.pending).kept.base = s.kept.base := by
  simp only [State.kept, h3, h4, h5, h6, h7, h8, h9, h10]
theorem kept_ite (c : Prop) [Decidable c] (a b : State) : (if c then a else b).kept = if c then a.kept else b.kept := apply_ite _ _ _ _
theorem foldl_kept {α : Type} (l : List α) (g : State → α → State) (s : State) (h : ∀ s a, (g s a).kept = s.kept) : (l.foldl g s).kept = s.kept := by
  induction l generalizing s with
  | nil => rfl
  | cons a l ih => exact (ih (g s a)).trans (h s a)
theorem foldl_kept_base {α : Type} (l : List α) (g : State → α → State) (s : State) (h : ∀ s a, (g s a).kept.base = s.kept.base) :
    (l.foldl g s).kept.base = s.kept.base := by
  induction l generalizing s with
  | nil => rfl
  | cons a l ih => exact (ih (g s a)).trans (h s a)
theorem base_ite (c : Prop) [Decidable c] (a b : Kept) : (if c then a else b).base = if c then a.base else b.base := apply_ite _ _ _ _
theorem foldl_kept_fst {α β : Type} (l : List α) (g : State × β → α → State × β) (a : State × β) (h : ∀ a x, (g a x).1.kept = a.1.kept) :
    (l.foldl g a).1.kept = a.1.kept := by
  induction l generalizing a with
  | nil => rfl
  | cons x l ih => exact (ih (g a x)).trans (h a x)
theorem kept_if {α : Type} (c : Prop) [Decidable c] (a b x : α) (h1 : a = x) (h2 : b = x) : (if c then a else b) = x := by rw [h1, h2, ite_self]
theorem State.updPort_kept : ∀ s x0 x1, (State.updPort s x0 x1).kept = s.kept := by
  intro s x0 x1
  unfold State.updPort
  (try dsimp only)
  repeat' (first | with_reducible rfl | simp only [kept_upd, kept_ite] | split | (refine (foldl_kept _ _ _ ?_).trans ?_; (intro _ _; try dsimp only)))
theorem State.updFar_kept : ∀ s x0 x1, (State.updFar s x0 x1).kept = s.kept := by
  intro s x0 x1
  unfold State.updFar
  (try dsimp only)
  repeat' (first | with_reducible rfl | simp only [kept_upd, kept_ite] | split | (refine (foldl_kept _ _ _ ?_).trans ?_; (intro _ _; try dsimp only)))
theorem State.updSlice_kept : ∀ s x0 x1, (State.updSlice s x0 x1).kept = s.kept := by
  intro s x0 x1
  unfold State.updSlice
  (try dsimp only)
  repeat' (first | with_reducible rfl | simp only [kept_upd, kept_ite] | split | (refine (foldl_kept _ _ _ ?_).trans ?_; (intro _ _; try dsimp only)))
theorem State.updCtx_kept : ∀ s x0 x1, (State.updCtx s x0 x1).kept = s.kept := by
  intro s x0 x1
  unfold State.updCtx
  (try dsimp only)
  repeat' (first | with_reducible rfl | simp only [kept_upd, kept_ite] | split | (refine (foldl_kept _ _ _ ?_).trans ?_; (intro _ _; try dsimp only)))
theorem State.updQp_kept : ∀ s x0 x1, (State.updQp s x0 x1).kept = s.kept := by
  intro s x0 x1
  unfold State.updQp
  (try dsimp only)
  repeat' (first | with_reducible rfl | simp only [kept_upd, kept_ite] | split | (refine (foldl_kept _ _ _ ?_).trans ?_; (intro _ _; try dsimp only)))
theorem State.updSeq_kept : ∀ s x0 x1, (State.updSeq s x0 x1).kept = s.kept := by
  intro s x0 x1
  unfold State.updSeq
  (try dsimp only)
  repeat' (first | with_reducible rfl | simp only [kept_upd, kept_ite, State.updSlice_kept] | split | (refine (foldl_kept _ _ _ ?_).trans ?_; (intro _ _; try dsimp only)))
theorem State.fresh_kept : ∀ s, (State.fresh s).2.kept = s.kept := by
  intro s
  unfold State.fresh
  (try dsimp only)
  repeat' (first | with_reducible rfl | simp only [kept_upd, kept_ite] | split | (refine (foldl_kept _ _ _ ?_).trans ?_; (intro _ _; try dsimp only)))
theorem State.put_kept : ∀ s x0, (State.put s x0).kept = s.kept := by
  intro s x0
  unfold State.put
  (try dsimp only)
  repeat' (first | with_reducible rfl | simp only [kept_upd, kept_ite] | split | (refine (foldl_kept _ _ _ ?_).trans ?_; (intro _ _; try dsimp only)))
theorem State.draw_kept : ∀ s, (State.draw s).2.kept = s.kept := by
  intro s
  unfold State.draw
  (try dsimp only)
  repeat' (first | with_reducible rfl | simp only [kept_upd, kept_ite] | split | (refine (foldl_kept _ _ _ ?_).trans ?_; (intro _ _; try dsimp only)))
theorem cntErr_kept : ∀ x0 x1 s, (cntErr x0 x1 s).kept = s.kept := by
  intro x0 x1 s
  unfold cntErr
  (try dsimp only)
  repeat' (first | with_reducible rfl | simp only [kept_upd, kept_ite] | split | (refine (foldl_kept _ _ _ ?_).trans ?_; (intro _ _; try dsimp only)))
theorem cntPf_kept : ∀ x0 x1 s, (cntPf x0 x1 s).kept = s.kept := by
  intro x0 x1 s
  unfold cntPf
  (try dsimp only)
  repeat' (first | with_reducible rfl | simp only [kept_upd, kept_ite] | split | (refine (foldl_kept _ _ _ ?_).trans ?_; (intro _ _; try dsimp only)))
theorem cntPol_kept : ∀ x0 x1 s, (cntPol x0 x1 s).kept = s.kept := by
  intro x0 x1 s
  unfold cntPol
  (try dsimp only)
  repeat' (first | with_reducible rfl | simp only [kept_upd, kept_ite] | split | (refine (foldl_kept _ _ _ ?_).trans ?_; (intro _ _; try dsimp only)))
theorem lockViolation_kept : ∀ s, (lockViolation s).kept = s.kept := by
  intro s
  unfold lockViolation
  (try dsimp only)
  repeat' (first | with_reducible rfl | simp only [kept_upd, kept_ite] | split | (refine (foldl_kept _ _ _ ?_).trans ?_; (intro _ _; try dsimp only)))
theorem guardFailed_kept : ∀ s, (guardFailed s).kept = s.kept := by
  intro s
  unfold guardFailed
  (try dsimp only)
  repeat' (first | with_reducible rfl | simp only [kept_upd, kept_ite] | split | (refine (foldl_kept _ _ _ ?_).trans ?_; (intro _ _; try dsimp only)))
theorem badAccess_kept : ∀ s, (badAccess s).kept = s.kept := by
  intro s
  unfold badAccess
  (try dsimp only)
  repeat' (first | with_reducible rfl | simp only [kept_upd, kept_ite] | split | (refine (foldl_kept _ _ _ ?_).trans ?_; (intro _ _; try dsimp only)))
theorem sendMsix_kept : ∀ x0 s, (sendMsix x0 s).kept = s.kept := by
  intro x0 s
  unfold sendMsix
  (try dsimp only)
  repeat' (first | with_reducible rfl | simp only [kept_upd, kept_ite, State.put_kept] | split | (refine (foldl_kept _ _ _ ?_).trans ?_; (intro _ _; try dsimp only)))
theorem State.setFifo_kept : ∀ s x0 x1, (State.setFifo s x0 x1).kept = s.kept := by
  intro s x0 x1
  unfold State.setFifo
  (try dsimp only)
  repeat' (first | with_reducible rfl | simp only [kept_upd, kept_ite] | split | (refine (foldl_kept _ _ _ ?_).trans ?_; (intro _ _; try dsimp only)))
theorem judgeFifo_kept : ∀ x0 s, (judgeFifo x0 s).kept = s.kept := by
  intro x0 s
  unfold judgeFifo
  (try dsimp only)
  repeat' (first | with_reducible rfl | simp only [kept_upd, kept_ite, State.setFifo_kept, sendMsix_kept] | split | (refine (foldl_kept _ _ _ ?_).trans ?_; (intro _ _; try dsimp only)))
theorem overrunFifo_kept : ∀ x0 s, (overrunFifo x0 s).kept = s.kept := by
  intro x0 s
  unfold overrunFifo
  (try dsimp only)
  repeat' (first | with_reducible rfl | simp only [kept_upd, kept_ite, State.setFifo_kept, sendMsix_kept] | split | (refine (foldl_kept _ _ _ ?_).trans ?_; (intro _ _; try dsimp only)))
theorem evfPush_kept : ∀ x0 x1 s, (evfPush x0 x1 s).kept = s.kept := by
  intro x0 x1 s
  unfold evfPush
  (try dsimp only)
  repeat' (first | with_reducible rfl | simp only [kept_upd, kept_ite, overrunFifo_kept, judgeFifo_kept] | split | (refine (foldl_kept _ _ _ ?_).trans ?_; (intro _ _; try dsimp only)))
theorem postEvent_kept : ∀ x0 x1 s, (postEvent x0 x1 s).kept = s.kept := by
  intro x0 x1 s
  unfold postEvent
  (try dsimp only)
  repeat' (first | with_reducible rfl | simp only [kept_upd, kept_ite, evfPush_kept] | split | (refine (foldl_kept _ _ _ ?_).trans ?_; (intro _ _; try dsimp only)))
theorem windowStart_kept : ∀ s, (windowStart s).kept = s.kept := by
  intro s
  unfold windowStart
  (try dsimp only)
  repeat' (first | with_reducible rfl | simp only [kept_upd, kept_ite] | split | (refine (foldl_kept _ _ _ ?_).trans ?_; (intro _ _; try dsimp only)))
theorem writeMode_kept : ∀ x0 s, (writeMode x0 s).kept = s.kept := by
  intro x0 s
  unfold writeMode
  (try dsimp only)
  repeat' (first | with_reducible rfl | simp only [kept_upd, kept_ite] | split | (refine (foldl_kept _ _ _ ?_).trans ?_; (intro _ _; try dsimp only)))
theorem changeMode_kept : ∀ x0 x1 s, (changeMode x0 x1 s).kept = s.kept := by
  intro x0 x1 s
  unfold changeMode
  (try dsimp only)
  repeat' (first | with_reducible rfl | simp only [kept_upd, kept_ite, windowStart_kept, writeMode_kept, postEvent_kept] | split | (refine (foldl_kept _ _ _ ?_).trans ?_; (intro _ _; try dsimp only)))
theorem errForm_kept : ∀ x0 x1 x2 x3 x4 x5 x6 s, (errForm x0 x1 x2 x3 x4 x5 x6 s).1.kept = s.kept := by
  intro x0 x1 x2 x3 x4 x5 x6 s
  unfold errForm
  (try dsimp only)
  repeat' (first | with_reducible rfl | simp only [kept_upd, kept_ite, postEvent_kept, cntErr_kept] | split | (refine (foldl_kept _ _ _ ?_).trans ?_; (intro _ _; try dsimp only)))
theorem recRaw_kept : ∀ x0 x1 x2 x3 x4 s, (recRaw x0 x1 x2 x3 x4 s).kept = s.kept := by
  intro x0 x1 x2 x3 x4 s
  unfold recRaw
  (try dsimp only)
  repeat' (first | with_reducible rfl | simp only [kept_upd, kept_ite] | split | (refine (foldl_kept _ _ _ ?_).trans ?_; (intro _ _; try dsimp only)))
theorem recStop_kept : ∀ x0 s, (recStop x0 s).kept = s.kept := by
  intro x0 s
  unfold recStop
  (try dsimp only)
  repeat' (first | with_reducible rfl | simp only [kept_upd, kept_ite, recRaw_kept, postEvent_kept] | split | (refine (foldl_kept _ _ _ ?_).trans ?_; (intro _ _; try dsimp only)))
theorem recCap_kept : ∀ x0 x1 x2 x3 x4 s, (recCap x0 x1 x2 x3 x4 s).kept = s.kept := by
  intro x0 x1 x2 x3 x4 s
  unfold recCap
  (try dsimp only)
  repeat' (first | with_reducible rfl | simp only [kept_upd, kept_ite, recRaw_kept, recStop_kept] | split | (refine (foldl_kept _ _ _ ?_).trans ?_; (intro _ _; try dsimp only)))
theorem capIn_kept : ∀ x0 x1 x2 x3 x4 s, (capIn x0 x1 x2 x3 x4 s).kept = s.kept := by
  intro x0 x1 x2 x3 x4 s
  unfold capIn
  (try dsimp only)
  repeat' (first | with_reducible rfl | simp only [kept_upd, kept_ite, recCap_kept] | split | (refine (foldl_kept _ _ _ ?_).trans ?_; (intro _ _; try dsimp only)))
theorem capOut_kept : ∀ x0 x1 x2 x3 s, (capOut x0 x1 x2 x3 s).kept = s.kept := by
  intro x0 x1 x2 x3 s
  unfold capOut
  (try dsimp only)
  repeat' (first | with_reducible rfl | simp only [kept_upd, kept_ite, recCap_kept] | split | (refine (foldl_kept _ _ _ ?_).trans ?_; (intro _ _; try dsimp only)))
theorem capMsg_kept : ∀ x0 x1 x2 x3 s, (capMsg x0 x1 x2 x3 s).kept = s.kept := by
  intro x0 x1 x2 x3 s
  unfold capMsg
  (try dsimp only)
  repeat' (first | with_reducible rfl | simp only [kept_upd, kept_ite, capIn_kept] | split | (refine (foldl_kept _ _ _ ?_).trans ?_; (intro _ _; try dsimp only)))
theorem capTx_kept : ∀ x0 x1 x2 x3 s, (capTx x0 x1 x2 x3 s).kept = s.kept := by
  intro x0 x1 x2 x3 s
  unfold capTx
  (try dsimp only)
  repeat' (first | with_reducible rfl | simp only [kept_upd, kept_ite, capOut_kept] | split | (refine (foldl_kept _ _ _ ?_).trans ?_; (intro _ _; try dsimp only)))
theorem capCtrl_kept : ∀ x0 s, (capCtrl x0 s).kept = s.kept := by
  intro x0 s
  unfold capCtrl
  (try dsimp only)
  repeat' (first | with_reducible rfl | simp only [kept_upd, kept_ite, capIn_kept] | split | (refine (foldl_kept _ _ _ ?_).trans ?_; (intro _ _; try dsimp only)))
theorem capWalk_kept : ∀ x0 x1 x2 x3 x4 x5 s, (capWalk x0 x1 x2 x3 x4 x5 s).kept = s.kept := by
  intro x0 x1 x2 x3 x4 x5 s
  unfold capWalk
  (try dsimp only)
  repeat' (first | with_reducible rfl | simp only [kept_upd, kept_ite, capIn_kept] | split | (refine (foldl_kept _ _ _ ?_).trans ?_; (intro _ _; try dsimp only)))
theorem capFar_kept : ∀ x0 x1 x2 x3 x4 x5 s, (capFar x0 x1 x2 x3 x4 x5 s).kept = s.kept := by
  intro x0 x1 x2 x3 x4 x5 s
  unfold capFar
  (try dsimp only)
  repeat' (first | with_reducible rfl | simp only [kept_upd, kept_ite, capOut_kept] | split | (refine (foldl_kept _ _ _ ?_).trans ?_; (intro _ _; try dsimp only)))
theorem cxlOut_kept : ∀ x0 s, (cxlOut x0 s).kept = s.kept := by
  intro x0 s
  unfold cxlOut
  (try dsimp only)
  repeat' (first | with_reducible rfl | simp only [kept_upd, kept_ite, State.put_kept] | split | (refine (foldl_kept _ _ _ ?_).trans ?_; (intro _ _; try dsimp only)))
theorem farSend_kept : ∀ x0 x1 x2 x3 x4 x5 x6 x7 s, (farSend x0 x1 x2 x3 x4 x5 x6 x7 s).1.kept = s.kept := by
  intro x0 x1 x2 x3 x4 x5 x6 x7 s
  unfold farSend
  (try dsimp only)
  repeat' (first | with_reducible rfl | simp only [kept_upd, kept_ite, cxlOut_kept, capFar_kept] | split | (refine (foldl_kept _ _ _ ?_).trans ?_; (intro _ _; try dsimp only)))
theorem logErr_kept : ∀ x0 x1 x2 x3 x4 x5 x6 s, (logErr x0 x1 x2 x3 x4 x5 x6 s).kept = s.kept := by
  intro x0 x1 x2 x3 x4 x5 x6 s
  unfold logErr
  (try dsimp only)
  repeat' (first | with_reducible rfl | simp only [kept_upd, kept_ite, farSend_kept, recStop_kept, errForm_kept] | split | (refine (foldl_kept _ _ _ ?_).trans ?_; (intro _ _; try dsimp only)))
theorem undefEnds_kept : ∀ x0 s, (undefEnds x0 s).kept = s.kept := by
  intro x0 s
  unfold undefEnds
  (try dsimp only)
  repeat' (first | with_reducible rfl | simp only [kept_upd, kept_ite, State.updQp_kept] | split | (refine (foldl_kept _ _ _ ?_).trans ?_; (intro _ _; try dsimp only)))
theorem complete_kept : ∀ x0 x1 x2 s, (complete x0 x1 x2 s).kept = s.kept := by
  intro x0 x1 x2 s
  unfold complete
  (try dsimp only)
  repeat' (first | with_reducible rfl | simp only [kept_upd, kept_ite, undefEnds_kept, State.updQp_kept] | split | (refine (foldl_kept _ _ _ ?_).trans ?_; (intro _ _; try dsimp only)))
theorem hostWrite_kept : ∀ x0 x1 x2 s, (hostWrite x0 x1 x2 s).kept = s.kept := by
  intro x0 x1 x2 s
  unfold hostWrite
  (try dsimp only)
  repeat' (first | with_reducible rfl | simp only [kept_upd, kept_ite, State.put_kept] | split | (refine (foldl_kept _ _ _ ?_).trans ?_; (intro _ _; try dsimp only)))
theorem completeBlock_kept : ∀ x0 x1 x2 x3 s, (completeBlock x0 x1 x2 x3 s).kept = s.kept := by
  intro x0 x1 x2 x3 s
  unfold completeBlock
  (try dsimp only)
  repeat' (first | with_reducible rfl | simp only [kept_upd, kept_ite, complete_kept, hostWrite_kept] | split | (refine (foldl_kept _ _ _ ?_).trans ?_; (intro _ _; try dsimp only)))
theorem takeHead_kept : ∀ x0 s, (takeHead x0 s).kept = s.kept := by
  intro x0 s
  unfold takeHead
  (try dsimp only)
  repeat' (first | with_reducible rfl | simp only [kept_upd, kept_ite] | split | (refine (foldl_kept _ _ _ ?_).trans ?_; (intro _ _; try dsimp only)))
theorem startTaken_kept : ∀ x0 x1 s, (startTaken x0 x1 s).kept = s.kept := by
  intro x0 x1 s
  unfold startTaken
  (try dsimp only)
  repeat' (first | with_reducible rfl | simp only [kept_upd, kept_ite] | split | (refine (foldl_kept _ _ _ ?_).trans ?_; (intro _ _; try dsimp only)))
theorem waitTaken_kept : ∀ x0 x1 s, (waitTaken x0 x1 s).kept = s.kept := by
  intro x0 x1 s
  unfold waitTaken
  (try dsimp only)
  repeat' (first | with_reducible rfl | simp only [kept_upd, kept_ite, takeHead_kept] | split | (refine (foldl_kept _ _ _ ?_).trans ?_; (intro _ _; try dsimp only)))
theorem cmd_kept : ∀ op modes auth reads p chk body s, (∀ s, (body s).kept = s.kept) → (cmd op modes auth reads p chk body s).kept = s.kept := by
  intro op modes auth reads p chk body s h
  unfold cmd
  (try dsimp only)
  repeat' (first | with_reducible rfl | simp only [kept_ite, h, waitTaken_kept, startTaken_kept, complete_kept, capCtrl_kept] | split)
theorem cmd_kept_base : ∀ op modes auth reads p chk body s, (∀ s, (body s).kept.base = s.kept.base) → (cmd op modes auth reads p chk body s).kept.base = s.kept.base := by
  intro op modes auth reads p chk body s h
  unfold cmd
  (try dsimp only)
  repeat' (first | with_reducible rfl | simp only [kept_ite, h, waitTaken_kept, startTaken_kept, complete_kept, capCtrl_kept] | split)
theorem beginCmd_kept : ∀ x0 x1 x2 x3 x4 s, (begin_ x0 x1 x2 x3 x4 s).kept = s.kept := by
  intro x0 x1 x2 x3 x4 s
  unfold begin_
  (try dsimp only)
  repeat' (first | with_reducible rfl | simp only [kept_upd, kept_ite] | split | (refine (foldl_kept _ _ _ ?_).trans ?_; (intro _ _; try dsimp only)))
theorem flashJob_kept : ∀ x0 x1 s, (flashJob x0 x1 s).kept = s.kept := by
  intro x0 x1 s
  unfold flashJob
  (try dsimp only)
  repeat' (first | with_reducible rfl | simp only [kept_upd, kept_ite] | split | (refine (foldl_kept _ _ _ ?_).trans ?_; (intro _ _; try dsimp only)))
theorem healthJob_kept : ∀ x0 x1 s, (healthJob x0 x1 s).kept = s.kept := by
  intro x0 x1 s
  unfold healthJob
  (try dsimp only)
  repeat' (first | with_reducible rfl | simp only [kept_upd, kept_ite] | split | (refine (foldl_kept _ _ _ ?_).trans ?_; (intro _ _; try dsimp only)))
theorem beginFlash_kept : ∀ x0 x1 x2 s, (beginFlash x0 x1 x2 s).kept = s.kept := by
  intro x0 x1 x2 s
  unfold beginFlash
  (try dsimp only)
  repeat' (first | with_reducible rfl | simp only [kept_upd, kept_ite, beginCmd_kept, flashJob_kept] | split | (refine (foldl_kept _ _ _ ?_).trans ?_; (intro _ _; try dsimp only)))
theorem finish_kept : ∀ x0 x1 x2 s, (finish x0 x1 x2 s).kept = s.kept := by
  intro x0 x1 x2 s
  unfold finish
  (try dsimp only)
  repeat' (first | with_reducible rfl | simp only [kept_upd, kept_ite, complete_kept] | split | (refine (foldl_kept _ _ _ ?_).trans ?_; (intro _ _; try dsimp only)))
theorem finishBlock_kept : ∀ x0 x1 x2 x3 s, (finishBlock x0 x1 x2 x3 s).kept = s.kept := by
  intro x0 x1 x2 x3 s
  unfold finishBlock
  (try dsimp only)
  repeat' (first | with_reducible rfl | simp only [kept_upd, kept_ite, completeBlock_kept] | split | (refine (foldl_kept _ _ _ ?_).trans ?_; (intro _ _; try dsimp only)))
theorem updProg_kept : ∀ x0 x1 s, (updProg x0 x1 s).kept = s.kept := by
  intro x0 x1 s
  unfold updProg
  (try dsimp only)
  repeat' (first | with_reducible rfl | simp only [kept_upd, kept_ite] | split | (refine (foldl_kept _ _ _ ?_).trans ?_; (intro _ _; try dsimp only)))
theorem resetControl_kept : ∀ s, (resetControl s).kept.base = s.kept.base := by
  intro s
  unfold resetControl
  (try dsimp only)
  repeat' (first | with_reducible rfl | simp only [kept_upd, base_upd, base_ite, kept_ite] | split | (refine (foldl_kept_base _ _ _ ?_).trans ?_; (intro _ _; try dsimp only)))
theorem monOvf_kept : ∀ x0 x1 x2 s, (monOvf x0 x1 x2 s).kept = s.kept := by
  intro x0 x1 x2 s
  unfold monOvf
  (try dsimp only)
  repeat' (first | with_reducible rfl | simp only [kept_upd, kept_ite, postEvent_kept, sendMsix_kept] | split | (refine (foldl_kept _ _ _ ?_).trans ?_; (intro _ _; try dsimp only)))
theorem monPortWord_kept : ∀ x0 x1 x2 s, (monPortWord x0 x1 x2 s).kept = s.kept := by
  intro x0 x1 x2 s
  unfold monPortWord
  (try dsimp only)
  repeat' (first | with_reducible rfl | simp only [kept_upd, kept_ite, monOvf_kept] | split | (refine (foldl_kept _ _ _ ?_).trans ?_; (intro _ _; try dsimp only)))
theorem monPort_kept : ∀ x0 x1 x2 s, (monPort x0 x1 x2 s).kept = s.kept := by
  intro x0 x1 x2 s
  unfold monPort
  (try dsimp only)
  repeat' (first | with_reducible rfl | simp only [kept_upd, kept_ite, monPortWord_kept] | split | (refine (foldl_kept _ _ _ ?_).trans ?_; (intro _ _; try dsimp only)))
theorem monSys_kept : ∀ x0 x1 x2 s, (monSys x0 x1 x2 s).kept = s.kept := by
  intro x0 x1 x2 s
  unfold monSys
  (try dsimp only)
  repeat' (first | with_reducible rfl | simp only [kept_upd, kept_ite, monOvf_kept] | split | (refine (foldl_kept _ _ _ ?_).trans ?_; (intro _ _; try dsimp only)))
theorem flushTx_kept : ∀ x0 s, (flushTx x0 s).kept = s.kept := by
  intro x0 s
  unfold flushTx
  (try dsimp only)
  repeat' (first | with_reducible rfl | simp only [kept_upd, kept_ite, State.updPort_kept, State.put_kept, monPort_kept] | split | (refine (foldl_kept _ _ _ ?_).trans ?_; (intro _ _; try dsimp only)))
theorem ctrlFlit_kept : ∀ x0 x1 s, (ctrlFlit x0 x1 s).kept = s.kept := by
  intro x0 x1 s
  unfold ctrlFlit
  (try dsimp only)
  repeat' (first | with_reducible rfl | simp only [kept_upd, kept_ite, State.updPort_kept, State.put_kept, monPort_kept] | split | (refine (foldl_kept _ _ _ ?_).trans ?_; (intro _ _; try dsimp only)))
theorem flowCredits_kept : ∀ x0 s, (flowCredits x0 s).kept = s.kept := by
  intro x0 s
  unfold flowCredits
  (try dsimp only)
  repeat' (first | with_reducible rfl | simp only [kept_upd, kept_ite, ctrlFlit_kept] | split | (refine (foldl_kept _ _ _ ?_).trans ?_; (intro _ _; try dsimp only)))
theorem tx_kept : ∀ x0 x1 x2 s, (tx x0 x1 x2 s).kept = s.kept := by
  intro x0 x1 x2 s
  unfold tx
  (try dsimp only)
  repeat' (first | with_reducible rfl | simp only [kept_upd, kept_ite, capTx_kept, State.updPort_kept, flushTx_kept] | split | (refine (foldl_kept _ _ _ ?_).trans ?_; (intro _ _; try dsimp only)))
theorem txMask_kept : ∀ x0 x1 x2 x3 s, (txMask x0 x1 x2 x3 s).kept = s.kept := by
  intro x0 x1 x2 x3 s
  unfold txMask
  (try dsimp only)
  repeat' (first | with_reducible rfl | simp only [kept_upd, kept_ite, capTx_kept, State.updPort_kept, flushTx_kept] | split | (refine (foldl_kept _ _ _ ?_).trans ?_; (intro _ _; try dsimp only)))
theorem txMsg_kept : ∀ x0 x1 x2 x3 x4 s, (txMsg x0 x1 x2 x3 x4 s).kept = s.kept := by
  intro x0 x1 x2 x3 x4 s
  unfold txMsg
  (try dsimp only)
  repeat' (first | with_reducible rfl | simp only [kept_upd, kept_ite, tx_kept] | split | (refine (foldl_kept _ _ _ ?_).trans ?_; (intro _ _; try dsimp only)))
theorem readBytes_kept : ∀ x0 x1 x2 s, (readBytes x0 x1 x2 s).kept = s.kept := by
  intro x0 x1 x2 s
  unfold readBytes
  (try dsimp only)
  repeat' (first | with_reducible rfl | simp only [kept_upd, kept_ite] | split | (refine (foldl_kept _ _ _ ?_).trans ?_; (intro _ _; try dsimp only)))
theorem txData_kept : ∀ x0 x1 x2 x3 x4 x5 x6 x7 s, (txData x0 x1 x2 x3 x4 x5 x6 x7 s).kept = s.kept := by
  intro x0 x1 x2 x3 x4 x5 x6 x7 s
  unfold txData
  (try dsimp only)
  repeat' (first | with_reducible rfl | simp only [kept_upd, kept_ite, readBytes_kept, tx_kept] | split | (refine (foldl_kept _ _ _ ?_).trans ?_; (intro _ _; try dsimp only)))
theorem freeTag_kept : ∀ x0 x1 s, (freeTag x0 x1 s).kept = s.kept := by
  intro x0 x1 s
  unfold freeTag
  (try dsimp only)
  repeat' (first | with_reducible rfl | simp only [kept_upd, kept_ite, State.updPort_kept] | split | (refine (foldl_kept _ _ _ ?_).trans ?_; (intro _ _; try dsimp only)))
theorem endOpen_kept : ∀ x0 x1 x2 s, (endOpen x0 x1 x2 s).kept = s.kept := by
  intro x0 x1 x2 s
  unfold endOpen
  (try dsimp only)
  repeat' (first | with_reducible rfl | simp only [kept_upd, kept_ite] | split | (refine (foldl_kept _ _ _ ?_).trans ?_; (intro _ _; try dsimp only)))
theorem updOff_kept : ∀ x0 x1 x2 s, (updOff x0 x1 x2 s).kept = s.kept := by
  intro x0 x1 x2 s
  unfold updOff
  (try dsimp only)
  repeat' (first | with_reducible rfl | simp only [kept_upd, kept_ite, State.updCtx_kept] | split | (refine (foldl_kept _ _ _ ?_).trans ?_; (intro _ _; try dsimp only)))
theorem fireNotice_kept : ∀ x0 s, (fireNotice x0 s).kept = s.kept := by
  intro x0 s
  unfold fireNotice
  (try dsimp only)
  repeat' (first | with_reducible rfl | simp only [kept_upd, kept_ite, postEvent_kept] | split | (refine (foldl_kept _ _ _ ?_).trans ?_; (intro _ _; try dsimp only)))
theorem fireNotices_kept : ∀ x0 s, (fireNotices x0 s).kept = s.kept := by
  intro x0 s
  unfold fireNotices
  (try dsimp only)
  repeat' (first | with_reducible rfl | simp only [kept_upd, kept_ite, fireNotice_kept] | split | (refine (foldl_kept _ _ _ ?_).trans ?_; (intro _ _; try dsimp only)))
theorem noticesAll_kept : ∀ s, (noticesAll s).kept = s.kept := by
  intro s
  unfold noticesAll
  (try dsimp only)
  repeat' (first | with_reducible rfl | simp only [kept_upd, kept_ite, fireNotice_kept] | split | (refine (foldl_kept _ _ _ ?_).trans ?_; (intro _ _; try dsimp only)))
theorem releaseOff_kept : ∀ x0 s, (releaseOff x0 s).kept = s.kept := by
  intro x0 s
  unfold releaseOff
  (try dsimp only)
  repeat' (first | with_reducible rfl | simp only [kept_upd, kept_ite, State.updCtx_kept] | split | (refine (foldl_kept _ _ _ ?_).trans ?_; (intro _ _; try dsimp only)))
theorem advanceWm_kept : ∀ x0 s, (advanceWm x0 s).kept = s.kept := by
  intro x0 s
  unfold advanceWm
  (try dsimp only)
  repeat' (first | with_reducible rfl | simp only [kept_upd, kept_ite, State.updCtx_kept, postEvent_kept, logErr_kept, releaseOff_kept] | split | (refine (foldl_kept _ _ _ ?_).trans ?_; (intro _ _; try dsimp only)))
theorem wmAll_kept : ∀ s, (wmAll s).kept = s.kept := by
  intro s
  unfold wmAll
  (try dsimp only)
  repeat' (first | with_reducible rfl | simp only [kept_upd, kept_ite, advanceWm_kept] | split | (refine (foldl_kept _ _ _ ?_).trans ?_; (intro _ _; try dsimp only)))
theorem offBad_kept : ∀ x0 x1 x2 s, (offBad x0 x1 x2 s).kept = s.kept := by
  intro x0 x1 x2 s
  unfold offBad
  (try dsimp only)
  repeat' (first | with_reducible rfl | simp only [kept_upd, kept_ite, updOff_kept] | split | (refine (foldl_kept _ _ _ ?_).trans ?_; (intro _ _; try dsimp only)))
theorem poisonOffs_kept : ∀ x0 s, (poisonOffs x0 s).kept = s.kept := by
  intro x0 s
  unfold poisonOffs
  (try dsimp only)
  repeat' (first | with_reducible rfl | simp only [kept_upd, kept_ite, offBad_kept] | split | (refine (foldl_kept _ _ _ ?_).trans ?_; (intro _ _; try dsimp only)))
theorem updWr_kept : ∀ x0 x1 s, (updWr x0 x1 s).kept = s.kept := by
  intro x0 x1 s
  unfold updWr
  (try dsimp only)
  repeat' (first | with_reducible rfl | simp only [kept_upd, kept_ite] | split | (refine (foldl_kept _ _ _ ?_).trans ?_; (intro _ _; try dsimp only)))
theorem fenceEnd_kept : ∀ x0 x1 s, (fenceEnd x0 x1 s).kept = s.kept := by
  intro x0 x1 s
  unfold fenceEnd
  (try dsimp only)
  repeat' (first | with_reducible rfl | simp only [kept_upd, kept_ite, postEvent_kept, logErr_kept, txMsg_kept, freeTag_kept] | split | (refine (foldl_kept _ _ _ ?_).trans ?_; (intro _ _; try dsimp only)))
theorem fencesEnd_kept : ∀ x0 s, (fencesEnd x0 s).kept = s.kept := by
  intro x0 s
  unfold fencesEnd
  (try dsimp only)
  repeat' (first | with_reducible rfl | simp only [kept_upd, kept_ite, State.updPort_kept, fenceEnd_kept] | split | (refine (foldl_kept _ _ _ ?_).trans ?_; (intro _ _; try dsimp only)))
theorem fenceSee_kept : ∀ x0 x1 x2 s, (fenceSee x0 x1 x2 s).kept = s.kept := by
  intro x0 x1 x2 s
  unfold fenceSee
  (try dsimp only)
  repeat' (first | with_reducible rfl | simp only [kept_upd, kept_ite, State.updPort_kept, fencesEnd_kept] | split | (refine (foldl_kept _ _ _ ?_).trans ?_; (intro _ _; try dsimp only)))
theorem sendComp_kept : ∀ x0 x1 s, (sendComp x0 x1 s).kept = s.kept := by
  intro x0 x1 s
  unfold sendComp
  (try dsimp only)
  repeat' (first | with_reducible rfl | simp only [kept_upd, kept_ite, updWr_kept, txMsg_kept, endOpen_kept, freeTag_kept] | split | (refine (foldl_kept _ _ _ ?_).trans ?_; (intro _ _; try dsimp only)))
theorem offVisible_kept : ∀ x0 x1 s, (offVisible x0 x1 s).kept = s.kept := by
  intro x0 x1 s
  unfold offVisible
  (try dsimp only)
  repeat' (first | with_reducible rfl | simp only [kept_upd, kept_ite, updOff_kept] | split | (refine (foldl_kept _ _ _ ?_).trans ?_; (intro _ _; try dsimp only)))
theorem offPersisted_kept : ∀ x0 s, (offPersisted x0 s).kept = s.kept := by
  intro x0 s
  unfold offPersisted
  (try dsimp only)
  repeat' (first | with_reducible rfl | simp only [kept_upd, kept_ite, updOff_kept] | split | (refine (foldl_kept _ _ _ ?_).trans ?_; (intro _ _; try dsimp only)))
theorem wrPoint_kept : ∀ x0 x1 s, (wrPoint x0 x1 s).kept = s.kept := by
  intro x0 x1 s
  unfold wrPoint
  (try dsimp only)
  repeat' (first | with_reducible rfl | simp only [kept_upd, kept_ite, sendComp_kept, updWr_kept, offPersisted_kept, fenceSee_kept] | split | (refine (foldl_kept _ _ _ ?_).trans ?_; (intro _ _; try dsimp only)))
theorem wrLose_kept : ∀ x0 x1 s, (wrLose x0 x1 s).kept = s.kept := by
  intro x0 x1 s
  unfold wrLose
  (try dsimp only)
  repeat' (first | with_reducible rfl | simp only [kept_upd, kept_ite, sendComp_kept, offBad_kept, updOff_kept, fenceSee_kept, State.updPort_kept, cntErr_kept] | split | (refine (foldl_kept _ _ _ ?_).trans ?_; (intro _ _; try dsimp only)))
theorem loseAll_kept : ∀ x0 x1 s, (loseAll x0 x1 s).kept = s.kept := by
  intro x0 x1 s
  unfold loseAll
  (try dsimp only)
  repeat' (first | with_reducible rfl | simp only [kept_upd, kept_ite, wrLose_kept] | split | (refine (foldl_kept _ _ _ ?_).trans ?_; (intro _ _; try dsimp only)))
theorem poisonDur_kept : ∀ x0 s, (poisonDur x0 s).kept = s.kept := by
  intro x0 s
  unfold poisonDur
  (try dsimp only)
  repeat' (first | with_reducible rfl | simp only [kept_upd, kept_ite, loseAll_kept, poisonOffs_kept] | split | (refine (foldl_kept _ _ _ ?_).trans ?_; (intro _ _; try dsimp only)))
theorem tear_kept : ∀ x0 x1 s, (tear x0 x1 s).kept = s.kept := by
  intro x0 x1 s
  unfold tear
  (try dsimp only)
  repeat' (first | with_reducible rfl | simp only [kept_upd, kept_ite, offBad_kept, postEvent_kept, logErr_kept, State.updPort_kept] | split | (refine (foldl_kept _ _ _ ?_).trans ?_; (intro _ _; try dsimp only)))
theorem tearAll_kept : ∀ x0 s, (tearAll x0 s).kept = s.kept := by
  intro x0 s
  unfold tearAll
  (try dsimp only)
  repeat' (first | with_reducible rfl | simp only [kept_upd, kept_ite, tear_kept] | split | (refine (foldl_kept _ _ _ ?_).trans ?_; (intro _ _; try dsimp only)))
theorem writeRowTb_kept : ∀ x0 x1 s, (writeRowTb x0 x1 s).kept = s.kept := by
  intro x0 x1 s
  unfold writeRowTb
  (try dsimp only)
  repeat' (first | with_reducible rfl | simp only [kept_upd, kept_ite] | split | (refine (foldl_kept _ _ _ ?_).trans ?_; (intro _ _; try dsimp only)))
theorem countTe_kept : ∀ x0 x1 s, (countTe x0 x1 s).kept = s.kept := by
  intro x0 x1 s
  unfold countTe
  (try dsimp only)
  repeat' (first | with_reducible rfl | simp only [kept_upd, kept_ite] | split | (refine (foldl_kept _ _ _ ?_).trans ?_; (intro _ _; try dsimp only)))
theorem putTb_kept : ∀ x0 x1 s, (putTb x0 x1 s).kept = s.kept := by
  intro x0 x1 s
  unfold putTb
  (try dsimp only)
  repeat' (first | with_reducible rfl | simp only [kept_upd, kept_ite, writeRowTb_kept, State.updSlice_kept] | split | (refine (foldl_kept _ _ _ ?_).trans ?_; (intro _ _; try dsimp only)))
theorem putTe_kept : ∀ x0 x1 x2 s, (putTe x0 x1 x2 s).kept = s.kept := by
  intro x0 x1 x2 s
  unfold putTe
  (try dsimp only)
  repeat' (first | with_reducible rfl | simp only [kept_upd, kept_ite, countTe_kept, putTb_kept, cntPf_kept] | split | (refine (foldl_kept _ _ _ ?_).trans ?_; (intro _ _; try dsimp only)))
theorem writeSlot_kept : ∀ x0 x1 x2 x3 s, (writeSlot x0 x1 x2 x3 s).kept = s.kept := by
  intro x0 x1 x2 x3 s
  unfold writeSlot
  (try dsimp only)
  repeat' (first | with_reducible rfl | simp only [kept_upd, kept_ite] | split | (refine (foldl_kept _ _ _ ?_).trans ?_; (intro _ _; try dsimp only)))
theorem writeLine_kept : ∀ x0 x1 x2 x3 s, (writeLine x0 x1 x2 x3 s).kept = s.kept := by
  intro x0 x1 x2 x3 s
  unfold writeLine
  (try dsimp only)
  repeat' (first | with_reducible rfl | simp only [kept_upd, kept_ite, putTe_kept, writeSlot_kept] | split | (refine (foldl_kept _ _ _ ?_).trans ?_; (intro _ _; try dsimp only)))
theorem setDir_kept : ∀ x0 x1 x2 s, (setDir x0 x1 x2 s).kept = s.kept := by
  intro x0 x1 x2 s
  unfold setDir
  (try dsimp only)
  repeat' (first | with_reducible rfl | simp only [kept_upd, kept_ite, State.updSlice_kept] | split | (refine (foldl_kept _ _ _ ?_).trans ?_; (intro _ _; try dsimp only)))
theorem updTxn_kept : ∀ x0 x1 x2 s, (updTxn x0 x1 x2 s).kept = s.kept := by
  intro x0 x1 x2 s
  unfold updTxn
  (try dsimp only)
  repeat' (first | with_reducible rfl | simp only [kept_upd, kept_ite, State.updSlice_kept] | split | (refine (foldl_kept _ _ _ ?_).trans ?_; (intro _ _; try dsimp only)))
theorem updWb_kept : ∀ x0 x1 x2 s, (updWb x0 x1 x2 s).kept = s.kept := by
  intro x0 x1 x2 s
  unfold updWb
  (try dsimp only)
  repeat' (first | with_reducible rfl | simp only [kept_upd, kept_ite, State.updSlice_kept] | split | (refine (foldl_kept _ _ _ ?_).trans ?_; (intro _ _; try dsimp only)))
theorem fallbackWay_kept : ∀ x0 x1 x2 s, (fallbackWay x0 x1 x2 s).1.kept = s.kept := by
  intro x0 x1 x2 s
  unfold fallbackWay
  (try dsimp only)
  repeat' (first | with_reducible rfl | simp only [kept_upd, kept_ite, State.updSeq_kept] | split | (refine (foldl_kept _ _ _ ?_).trans ?_; (intro _ _; try dsimp only)))
theorem dispatchUpd_kept : ∀ x0 x1 s, (dispatchUpd x0 x1 s).kept = s.kept := by
  intro x0 x1 s
  unfold dispatchUpd
  (try dsimp only)
  repeat' (first | with_reducible rfl | simp only [kept_upd, kept_ite, State.updSeq_kept, cntPol_kept] | split | (refine (foldl_kept _ _ _ ?_).trans ?_; (intro _ _; try dsimp only)))
theorem mcReq_kept : ∀ x0 x1 x2 x3 s, (mcReq x0 x1 x2 x3 s).kept = s.kept := by
  intro x0 x1 x2 x3 s
  unfold mcReq
  (try dsimp only)
  repeat' (first | with_reducible rfl | simp only [kept_upd, kept_ite] | split | (refine (foldl_kept _ _ _ ?_).trans ?_; (intro _ _; try dsimp only)))
theorem owe_kept : ∀ x0 x1 x2 s, (owe x0 x1 x2 s).kept = s.kept := by
  intro x0 x1 x2 s
  unfold owe
  (try dsimp only)
  repeat' (first | with_reducible rfl | simp only [kept_upd, kept_ite, mcReq_kept, updTxn_kept] | split | (refine (foldl_kept _ _ _ ?_).trans ?_; (intro _ _; try dsimp only)))
theorem oweLine_kept : ∀ x0 x1 s, (oweLine x0 x1 s).kept = s.kept := by
  intro x0 x1 s
  unfold oweLine
  (try dsimp only)
  repeat' (first | with_reducible rfl | simp only [kept_upd, kept_ite, owe_kept] | split | (refine (foldl_kept _ _ _ ?_).trans ?_; (intro _ _; try dsimp only)))
theorem capMc_kept : ∀ x0 x1 x2 s, (capMc x0 x1 x2 s).kept = s.kept := by
  intro x0 x1 x2 s
  unfold capMc
  (try dsimp only)
  repeat' (first | with_reducible rfl | simp only [kept_upd, kept_ite, capOut_kept] | split | (refine (foldl_kept _ _ _ ?_).trans ?_; (intro _ _; try dsimp only)))
theorem bursts_kept : ∀ x0 x1 x2 s, (bursts x0 x1 x2 s).kept = s.kept := by
  intro x0 x1 x2 s
  unfold bursts
  (try dsimp only)
  repeat' (first | with_reducible rfl | simp only [kept_upd, kept_ite, monSys_kept, capMc_kept] | split | (refine (foldl_kept _ _ _ ?_).trans ?_; (intro _ _; try dsimp only)))
theorem burstsNow_kept : ∀ x0 x1 x2 x3 x4 s, (burstsNow x0 x1 x2 x3 x4 s).kept = s.kept := by
  intro x0 x1 x2 x3 x4 s
  unfold burstsNow
  (try dsimp only)
  repeat' (first | with_reducible rfl | simp only [kept_upd, kept_ite, bursts_kept, capIn_kept] | split | (refine (foldl_kept _ _ _ ?_).trans ?_; (intro _ _; try dsimp only)))
theorem invWay_kept : ∀ x0 x1 x2 s, (invWay x0 x1 x2 s).kept = s.kept := by
  intro x0 x1 x2 s
  unfold invWay
  (try dsimp only)
  repeat' (first | with_reducible rfl | simp only [kept_upd, kept_ite, putTe_kept, bursts_kept] | split | (refine (foldl_kept _ _ _ ?_).trans ?_; (intro _ _; try dsimp only)))
theorem dropWay_kept : ∀ x0 x1 x2 s, (dropWay x0 x1 x2 s).kept = s.kept := by
  intro x0 x1 x2 s
  unfold dropWay
  (try dsimp only)
  repeat' (first | with_reducible rfl | simp only [kept_upd, kept_ite, invWay_kept, oweLine_kept] | split | (refine (foldl_kept _ _ _ ?_).trans ?_; (intro _ _; try dsimp only)))
theorem evictTo_kept : ∀ x0 x1 x2 x3 s, (evictTo x0 x1 x2 x3 s).kept = s.kept := by
  intro x0 x1 x2 x3 s
  unfold evictTo
  (try dsimp only)
  repeat' (first | with_reducible rfl | simp only [kept_upd, kept_ite, putTe_kept, monSys_kept, bursts_kept, mcReq_kept, State.updSlice_kept] | split | (refine (foldl_kept _ _ _ ?_).trans ?_; (intro _ _; try dsimp only)))
theorem tbcInstall_kept : ∀ x0 x1 x2 s, (tbcInstall x0 x1 x2 s).kept = s.kept := by
  intro x0 x1 x2 s
  unfold tbcInstall
  (try dsimp only)
  repeat' (first | with_reducible rfl | simp only [kept_upd, kept_ite, bursts_kept, writeRowTb_kept, State.updSlice_kept] | split | (refine (foldl_kept _ _ _ ?_).trans ?_; (intro _ _; try dsimp only)))
theorem vbPoison_kept : ∀ x0 s, (vbPoison x0 s).kept = s.kept := by
  intro x0 s
  unfold vbPoison
  (try dsimp only)
  repeat' (first | with_reducible rfl | simp only [kept_upd, kept_ite, State.updSlice_kept] | split | (refine (foldl_kept _ _ _ ?_).trans ?_; (intro _ _; try dsimp only)))
theorem countCe_kept : ∀ x0 x1 s, (countCe x0 x1 s).kept = s.kept := by
  intro x0 x1 s
  unfold countCe
  (try dsimp only)
  repeat' (first | with_reducible rfl | simp only [kept_upd, kept_ite, putTb_kept, postEvent_kept, logErr_kept] | split | (refine (foldl_kept _ _ _ ?_).trans ?_; (intro _ _; try dsimp only)))
theorem countUe_kept : ∀ x0 s, (countUe x0 s).kept = s.kept := by
  intro x0 s
  unfold countUe
  (try dsimp only)
  repeat' (first | with_reducible rfl | simp only [kept_upd, kept_ite, postEvent_kept, logErr_kept] | split | (refine (foldl_kept _ _ _ ?_).trans ?_; (intro _ _; try dsimp only)))
theorem lineOutcome_kept : ∀ x1 x2 x3 x4 s, (lineOutcome x1 x2 x3 x4 s).2.kept = s.kept := by
  intro x1 x2 x3 x4 s
  unfold lineOutcome
  (try dsimp only)
  repeat' (first | with_reducible rfl | simp only [kept_upd, kept_ite, putTe_kept, writeLine_kept, countUe_kept, countCe_kept, bursts_kept, oweLine_kept, poisonDur_kept, logErr_kept, cntErr_kept, dropWay_kept] | split | (refine (foldl_kept _ _ _ ?_).trans ?_; (intro _ _; try dsimp only)))
theorem upPut_kept : ∀ x0 x1 s, (upPut x0 x1 s).kept = s.kept := by
  intro x0 x1 s
  unfold upPut
  (try dsimp only)
  repeat' (first | with_reducible rfl | simp only [kept_upd, kept_ite, State.updPort_kept] | split | (refine (foldl_kept _ _ _ ?_).trans ?_; (intro _ _; try dsimp only)))
theorem farWrite_kept : ∀ x0 x1 x2 x3 x4 s, (farWrite x0 x1 x2 x3 x4 s).1.kept = s.kept := by
  intro x0 x1 x2 x3 x4 s
  unfold farWrite
  (try dsimp only)
  repeat' (first | with_reducible rfl | simp only [kept_upd, kept_ite, farSend_kept, monSys_kept] | split | (refine (foldl_kept _ _ _ ?_).trans ?_; (intro _ _; try dsimp only)))
theorem evictUp_kept : ∀ x0 x1 s, (evictUp x0 x1 s).kept = s.kept := by
  intro x0 x1 s
  unfold evictUp
  (try dsimp only)
  repeat' (first | with_reducible rfl | simp only [kept_upd, kept_ite, setDir_kept, dropWay_kept, upPut_kept] | split | (refine (foldl_kept _ _ _ ?_).trans ?_; (intro _ _; try dsimp only)))
theorem evictDir_kept : ∀ x0 s, (evictDir x0 s).kept = s.kept := by
  intro x0 s
  unfold evictDir
  (try dsimp only)
  repeat' (first | with_reducible rfl | simp only [kept_upd, kept_ite, burstsNow_kept, lineOutcome_kept, setDir_kept, dropWay_kept, upPut_kept] | split | (refine (foldl_kept _ _ _ ?_).trans ?_; (intro _ _; try dsimp only)))
theorem poisonLine_kept : ∀ x0 s, (poisonLine x0 s).kept = s.kept := by
  intro x0 s
  unfold poisonLine
  (try dsimp only)
  repeat' (first | with_reducible rfl | simp only [kept_upd, kept_ite, putTe_kept, farWrite_kept, wrLose_kept, bursts_kept, oweLine_kept, vbPoison_kept, evictUp_kept, State.updSlice_kept, poisonOffs_kept] | split | (refine (foldl_kept _ _ _ ?_).trans ?_; (intro _ _; try dsimp only)))
theorem dirFix_kept : ∀ x0 s, (dirFix x0 s).kept = s.kept := by
  intro x0 s
  unfold dirFix
  (try dsimp only)
  repeat' (first | with_reducible rfl | simp only [kept_upd, kept_ite, poisonLine_kept, State.updPort_kept, setDir_kept] | split | (refine (foldl_kept _ _ _ ?_).trans ?_; (intro _ _; try dsimp only)))
theorem sendSnoops_kept : ∀ x0 x1 s, (sendSnoops x0 x1 s).kept = s.kept := by
  intro x0 x1 s
  unfold sendSnoops
  (try dsimp only)
  repeat' (first | with_reducible rfl | simp only [kept_upd, kept_ite, monSys_kept, txMsg_kept] | split | (refine (foldl_kept _ _ _ ?_).trans ?_; (intro _ _; try dsimp only)))
theorem dirClose_kept : ∀ x0 s, (dirClose x0 s).kept = s.kept := by
  intro x0 s
  unfold dirClose
  (try dsimp only)
  repeat' (first | with_reducible rfl | simp only [kept_upd, kept_ite, setDir_kept] | split | (refine (foldl_kept _ _ _ ?_).trans ?_; (intro _ _; try dsimp only)))
theorem wbFree_kept : ∀ x0 x1 s, (wbFree x0 x1 s).kept = s.kept := by
  intro x0 x1 s
  unfold wbFree
  (try dsimp only)
  repeat' (first | with_reducible rfl | simp only [kept_upd, kept_ite, State.updSlice_kept] | split | (refine (foldl_kept _ _ _ ?_).trans ?_; (intro _ _; try dsimp only)))
theorem sbDiscard_kept : ∀ x0 x1 s, (sbDiscard x0 x1 s).kept = s.kept := by
  intro x0 x1 s
  unfold sbDiscard
  (try dsimp only)
  repeat' (first | with_reducible rfl | simp only [kept_upd, kept_ite, State.updSlice_kept, cntPf_kept] | split | (refine (foldl_kept _ _ _ ?_).trans ?_; (intro _ _; try dsimp only)))
theorem sbPin_kept : ∀ x0 x1 s, (sbPin x0 x1 s).kept = s.kept := by
  intro x0 x1 s
  unfold sbPin
  (try dsimp only)
  repeat' (first | with_reducible rfl | simp only [kept_upd, kept_ite, State.updSlice_kept] | split | (refine (foldl_kept _ _ _ ?_).trans ?_; (intro _ _; try dsimp only)))
theorem sbClose_kept : ∀ x0 x1 s, (sbClose x0 x1 s).kept = s.kept := by
  intro x0 x1 s
  unfold sbClose
  (try dsimp only)
  repeat' (first | with_reducible rfl | simp only [kept_upd, kept_ite, sbDiscard_kept, State.updSlice_kept] | split | (refine (foldl_kept _ _ _ ?_).trans ?_; (intro _ _; try dsimp only)))
theorem entFreed_kept : ∀ x0 s, (entFreed x0 s).kept = s.kept := by
  intro x0 s
  unfold entFreed
  (try dsimp only)
  repeat' (first | with_reducible rfl | simp only [kept_upd, kept_ite, State.updSlice_kept] | split | (refine (foldl_kept _ _ _ ?_).trans ?_; (intro _ _; try dsimp only)))
theorem entPass_kept : ∀ x0 x1 x2 s, (entPass x0 x1 x2 s).kept = s.kept := by
  intro x0 x1 x2 s
  unfold entPass
  (try dsimp only)
  repeat' (first | with_reducible rfl | simp only [kept_upd, kept_ite, entFreed_kept, State.updSlice_kept] | split | (refine (foldl_kept _ _ _ ?_).trans ?_; (intro _ _; try dsimp only)))
theorem endRead_kept : ∀ x0 x1 s, (endRead x0 x1 s).kept = s.kept := by
  intro x0 x1 s
  unfold endRead
  (try dsimp only)
  repeat' (first | with_reducible rfl | simp only [kept_upd, kept_ite, updTxn_kept, endOpen_kept] | split | (refine (foldl_kept _ _ _ ?_).trans ?_; (intro _ _; try dsimp only)))
theorem closeTxn_kept : ∀ x0 x1 s, (closeTxn x0 x1 s).kept = s.kept := by
  intro x0 x1 s
  unfold closeTxn
  (try dsimp only)
  repeat' (first | with_reducible rfl | simp only [kept_upd, kept_ite, sbClose_kept, endRead_kept, updTxn_kept, evictUp_kept, State.updSlice_kept, dirClose_kept, entPass_kept] | split | (refine (foldl_kept _ _ _ ?_).trans ?_; (intro _ _; try dsimp only)))
theorem ztPut_kept : ∀ x0 x1 s, (ztPut x0 x1 s).kept = s.kept := by
  intro x0 x1 s
  unfold ztPut
  (try dsimp only)
  repeat' (first | with_reducible rfl | simp only [kept_upd, kept_ite] | split | (refine (foldl_kept _ _ _ ?_).trans ?_; (intro _ _; try dsimp only)))
theorem farRead_kept : ∀ x0 x1 x2 s, (farRead x0 x1 x2 s).kept = s.kept := by
  intro x0 x1 x2 s
  unfold farRead
  (try dsimp only)
  repeat' (first | with_reducible rfl | simp only [kept_upd, kept_ite, farSend_kept, monSys_kept] | split | (refine (foldl_kept _ _ _ ?_).trans ?_; (intro _ _; try dsimp only)))
theorem grantData_kept : ∀ x0 x1 x2 x3 s, (grantData x0 x1 x2 x3 s).kept = s.kept := by
  intro x0 x1 x2 x3 s
  unfold grantData
  (try dsimp only)
  repeat' (first | with_reducible rfl | simp only [kept_upd, kept_ite, endRead_kept, updTxn_kept, txData_kept, freeTag_kept] | split | (refine (foldl_kept _ _ _ ?_).trans ?_; (intro _ _; try dsimp only)))
theorem grantComp_kept : ∀ x0 x1 s, (grantComp x0 x1 s).kept = s.kept := by
  intro x0 x1 s
  unfold grantComp
  (try dsimp only)
  repeat' (first | with_reducible rfl | simp only [kept_upd, kept_ite, updTxn_kept, txMsg_kept] | split | (refine (foldl_kept _ _ _ ?_).trans ?_; (intro _ _; try dsimp only)))
theorem streamPoison_kept : ∀ x0 x1 s, (streamPoison x0 x1 s).kept = s.kept := by
  intro x0 x1 s
  unfold streamPoison
  (try dsimp only)
  repeat' (first | with_reducible rfl | simp only [kept_upd, kept_ite, offBad_kept] | split | (refine (foldl_kept _ _ _ ?_).trans ?_; (intro _ _; try dsimp only)))
theorem wrVisible_kept : ∀ x0 x1 s, (wrVisible x0 x1 s).kept = s.kept := by
  intro x0 x1 s
  unfold wrVisible
  (try dsimp only)
  repeat' (first | with_reducible rfl | simp only [kept_upd, kept_ite, wrLose_kept, offVisible_kept, updWb_kept, poisonDur_kept, wrPoint_kept, streamPoison_kept] | split | (refine (foldl_kept _ _ _ ?_).trans ?_; (intro _ _; try dsimp only)))
theorem walkOut_kept : ∀ x0 x1 s, (walkOut x0 x1 s).kept = s.kept := by
  intro x0 x1 s
  unfold walkOut
  (try dsimp only)
  repeat' (first | with_reducible rfl | simp only [kept_upd, kept_ite] | split | (refine (foldl_kept _ _ _ ?_).trans ?_; (intro _ _; try dsimp only)))
theorem installLine_kept : ∀ x0 x1 x2 x3 x4 x5 s, (installLine x0 x1 x2 x3 x4 x5 s).kept = s.kept := by
  intro x0 x1 x2 x3 x4 x5 s
  unfold installLine
  (try dsimp only)
  repeat' (first | with_reducible rfl | simp only [kept_upd, kept_ite, farWrite_kept, monSys_kept, sbDiscard_kept, owe_kept, writeLine_kept, bursts_kept, updWb_kept, updTxn_kept, walkOut_kept, poisonDur_kept, dispatchUpd_kept, State.updSlice_kept, cntPf_kept] | split | (refine (foldl_kept _ _ _ ?_).trans ?_; (intro _ _; try dsimp only)))
theorem sendFar_kept : ∀ x0 x1 x2 s, (sendFar x0 x1 x2 s).kept = s.kept := by
  intro x0 x1 x2 s
  unfold sendFar
  (try dsimp only)
  repeat' (first | with_reducible rfl | simp only [kept_upd, kept_ite, farWrite_kept, updWb_kept, walkOut_kept] | split | (refine (foldl_kept _ _ _ ?_).trans ?_; (intro _ _; try dsimp only)))
theorem askVictim_kept : ∀ x0 x1 x2 s, (askVictim x0 x1 x2 s).kept = s.kept := by
  intro x0 x1 x2 s
  unfold askVictim
  (try dsimp only)
  repeat' (first | with_reducible rfl | simp only [kept_upd, kept_ite, monSys_kept, fallbackWay_kept, State.updSeq_kept, updTxn_kept, cntPol_kept] | split | (refine (foldl_kept _ _ _ ?_).trans ?_; (intro _ _; try dsimp only)))
theorem violate_kept : ∀ x0 x1 x2 s, (violate x0 x1 x2 s).kept = s.kept := by
  intro x0 x1 x2 s
  unfold violate
  (try dsimp only)
  repeat' (first | with_reducible rfl | simp only [kept_upd, kept_ite, postEvent_kept, logErr_kept, State.updPort_kept, cntErr_kept, tearAll_kept] | split | (refine (foldl_kept _ _ _ ?_).trans ?_; (intro _ _; try dsimp only)))
theorem frozenAbort_kept : ∀ x0 x1 s, (frozenAbort x0 x1 s).kept = s.kept := by
  intro x0 x1 s
  unfold frozenAbort
  (try dsimp only)
  repeat' (first | with_reducible rfl | simp only [kept_upd, kept_ite, txMsg_kept, monPort_kept] | split | (refine (foldl_kept _ _ _ ?_).trans ?_; (intro _ _; try dsimp only)))
theorem takeWay_kept : ∀ x0 x1 s, (takeWay x0 x1 s).1.kept = s.kept := by
  intro x0 x1 s
  unfold takeWay
  (try dsimp only)
  repeat' (first | with_reducible rfl | simp only [kept_upd, kept_ite, monSys_kept, updTxn_kept, State.updSlice_kept] | split | (refine (foldl_kept _ _ _ ?_).trans ?_; (intro _ _; try dsimp only)))
theorem pullWrite_kept : ∀ x0 x1 s, (pullWrite x0 x1 s).1.kept = s.kept := by
  intro x0 x1 s
  unfold pullWrite
  (try dsimp only)
  repeat' (first | with_reducible rfl | simp only [kept_upd, kept_ite, updWb_kept, updTxn_kept, txMsg_kept, State.updSlice_kept] | split | (refine (foldl_kept _ _ _ ?_).trans ?_; (intro _ _; try dsimp only)))
theorem trigNext_kept : ∀ x0 x1 s, (trigNext x0 x1 s).kept = s.kept := by
  intro x0 x1 s
  unfold trigNext
  (try dsimp only)
  repeat' (first | with_reducible rfl | simp only [kept_upd, kept_ite, dispatchUpd_kept, State.updSlice_kept] | split | (refine (foldl_kept _ _ _ ?_).trans ?_; (intro _ _; try dsimp only)))
theorem sendUp_kept : ∀ x0 x1 x2 x3 s, (sendUp x0 x1 x2 x3 s).kept = s.kept := by
  intro x0 x1 x2 x3 s
  unfold sendUp
  (try dsimp only)
  repeat' (first | with_reducible rfl | simp only [kept_upd, kept_ite, updTxn_kept, State.updPort_kept, tx_kept] | split | (refine (foldl_kept _ _ _ ?_).trans ?_; (intro _ _; try dsimp only)))
theorem offerStash_kept : ∀ x0 x1 s, (offerStash x0 x1 s).1.kept = s.kept := by
  intro x0 x1 s
  unfold offerStash
  (try dsimp only)
  repeat' (first | with_reducible rfl | simp only [kept_upd, kept_ite, updTxn_kept, txMsg_kept] | split | (refine (foldl_kept _ _ _ ?_).trans ?_; (intro _ _; try dsimp only)))
theorem stashOver_kept : ∀ x0 x1 s, (stashOver x0 x1 s).kept = s.kept := by
  intro x0 x1 s
  unfold stashOver
  (try dsimp only)
  repeat' (first | with_reducible rfl | simp only [kept_upd, kept_ite, closeTxn_kept, updTxn_kept] | split | (refine (foldl_kept _ _ _ ?_).trans ?_; (intro _ _; try dsimp only)))
theorem snpOwn_kept : ∀ x0 x1 x2 x3 s, (snpOwn x0 x1 x2 x3 s).kept = s.kept := by
  intro x0 x1 x2 x3 s
  unfold snpOwn
  (try dsimp only)
  repeat' (first | with_reducible rfl | simp only [kept_upd, kept_ite, readBytes_kept, logErr_kept, tx_kept] | split | (refine (foldl_kept _ _ _ ?_).trans ?_; (intro _ _; try dsimp only)))
theorem homeAnswer_kept : ∀ x0 x1 s, (homeAnswer x0 x1 s).kept = s.kept := by
  intro x0 x1 s
  unfold homeAnswer
  (try dsimp only)
  repeat' (first | with_reducible rfl | simp only [kept_upd, kept_ite, owe_kept, invWay_kept, snpOwn_kept, closeTxn_kept, State.updPort_kept, wbFree_kept, setDir_kept, tx_kept] | split | (refine (foldl_kept _ _ _ ?_).trans ?_; (intro _ _; try dsimp only)))
theorem afterWrite_kept : ∀ x0 x1 s, (afterWrite x0 x1 s).1.kept = s.kept := by
  intro x0 x1 s
  unfold afterWrite
  (try dsimp only)
  repeat' (first | with_reducible rfl | simp only [kept_upd, kept_ite, evictDir_kept, closeTxn_kept, updTxn_kept, setDir_kept] | split | (refine (foldl_kept _ _ _ ?_).trans ?_; (intro _ _; try dsimp only)))
theorem serve_kept : ∀ x0 x1 x2 x3 s, (serve x0 x1 x2 x3 s).1.kept = s.kept := by
  intro x0 x1 x2 x3 s
  unfold serve
  (try dsimp only)
  repeat' (first | with_reducible rfl | simp only [kept_upd, kept_ite, updTxn_kept, grantData_kept] | split | (refine (foldl_kept _ _ _ ?_).trans ?_; (intro _ _; try dsimp only)))
theorem closeCombine_kept : ∀ x0 x1 s, (closeCombine x0 x1 s).kept = s.kept := by
  intro x0 x1 s
  unfold closeCombine
  (try dsimp only)
  repeat' (first | with_reducible rfl | simp only [kept_upd, kept_ite, updWb_kept, State.updSlice_kept] | split | (refine (foldl_kept _ _ _ ?_).trans ?_; (intro _ _; try dsimp only)))
theorem capture_kept : ∀ x0 x1 s, (capture x0 x1 s).kept = s.kept := by
  intro x0 x1 s
  unfold capture
  (try dsimp only)
  repeat' (first | with_reducible rfl | simp only [kept_upd, kept_ite, updWb_kept] | split | (refine (foldl_kept _ _ _ ?_).trans ?_; (intro _ _; try dsimp only)))
theorem absorb_kept : ∀ x0 x1 x2 s, (absorb x0 x1 x2 s).kept = s.kept := by
  intro x0 x1 x2 s
  unfold absorb
  (try dsimp only)
  repeat' (first | with_reducible rfl | simp only [kept_upd, kept_ite, updWb_kept, loseAll_kept, wbFree_kept] | split | (refine (foldl_kept _ _ _ ?_).trans ?_; (intro _ _; try dsimp only)))
theorem laidUnder_kept : ∀ x0 x1 s, (laidUnder x0 x1 s).kept = s.kept := by
  intro x0 x1 s
  unfold laidUnder
  (try dsimp only)
  repeat' (first | with_reducible rfl | simp only [kept_upd, kept_ite, wrLose_kept, updWb_kept, wbFree_kept] | split | (refine (foldl_kept _ _ _ ?_).trans ?_; (intro _ _; try dsimp only)))
theorem combine_kept : ∀ x0 x1 s, (combine x0 x1 s).1.kept = s.kept := by
  intro x0 x1 s
  unfold combine
  (try dsimp only)
  repeat' (first | with_reducible rfl | simp only [kept_upd, kept_ite, updWb_kept, loseAll_kept, closeCombine_kept, wbFree_kept] | split | (refine (foldl_kept _ _ _ ?_).trans ?_; (intro _ _; try dsimp only)))
theorem ztSteps_kept : ∀ x0 x1 s, (ztSteps x0 x1 s).1.kept = s.kept := by
  intro x0 x1 s
  unfold ztSteps
  (try dsimp only)
  repeat' (first | with_reducible rfl | simp only [kept_upd, kept_ite, farWrite_kept, updTxn_kept, farRead_kept] | split | (refine (foldl_kept _ _ _ ?_).trans ?_; (intro _ _; try dsimp only)))
theorem upWrite_kept : ∀ x0 x1 x2 s, (upWrite x0 x1 x2 s).kept = s.kept := by
  intro x0 x1 x2 s
  unfold upWrite
  (try dsimp only)
  repeat' (first | with_reducible rfl | simp only [kept_upd, kept_ite, sendUp_kept, updTxn_kept] | split | (refine (foldl_kept _ _ _ ?_).trans ?_; (intro _ _; try dsimp only)))
theorem ownerUp_kept : ∀ x0 x1 x2 s, (ownerUp x0 x1 x2 s).kept = s.kept := by
  intro x0 x1 x2 s
  unfold ownerUp
  (try dsimp only)
  repeat' (first | with_reducible rfl | simp only [kept_upd, kept_ite, updTxn_kept, evictUp_kept, wbFree_kept] | split | (refine (foldl_kept _ _ _ ?_).trans ?_; (intro _ _; try dsimp only)))
theorem writeFar_kept : ∀ x0 x1 x2 s, (writeFar x0 x1 x2 s).1.kept = s.kept := by
  intro x0 x1 x2 s
  unfold writeFar
  (try dsimp only)
  repeat' (first | with_reducible rfl | simp only [kept_upd, kept_ite, sbDiscard_kept, upWrite_kept, ownerUp_kept, sendFar_kept, afterWrite_kept, ztSteps_kept] | split | (refine (foldl_kept _ _ _ ?_).trans ?_; (intro _ _; try dsimp only)))
theorem missOnce_kept : ∀ x0 x1 s, (missOnce x0 x1 s).kept = s.kept := by
  intro x0 x1 s
  unfold missOnce
  (try dsimp only)
  repeat' (first | with_reducible rfl | simp only [kept_upd, kept_ite, monSys_kept, updTxn_kept, trigNext_kept] | split | (refine (foldl_kept _ _ _ ?_).trans ?_; (intro _ _; try dsimp only)))
theorem readFar_kept : ∀ x0 x1 x2 s, (readFar x0 x1 x2 s).1.kept = s.kept := by
  intro x0 x1 x2 s
  unfold readFar
  (try dsimp only)
  repeat' (first | with_reducible rfl | simp only [kept_upd, kept_ite, sendUp_kept, serve_kept, updTxn_kept, closeCombine_kept, askVictim_kept, farRead_kept] | split | (refine (foldl_kept _ _ _ ?_).trans ?_; (intro _ _; try dsimp only)))
theorem readMiss_kept : ∀ x0 x1 s, (readMiss x0 x1 s).1.kept = s.kept := by
  intro x0 x1 s
  unfold readMiss
  (try dsimp only)
  repeat' (first | with_reducible rfl | simp only [kept_upd, kept_ite, sbDiscard_kept, serve_kept, updTxn_kept, readFar_kept, askVictim_kept, grantData_kept, missOnce_kept] | split | (refine (foldl_kept _ _ _ ?_).trans ?_; (intro _ _; try dsimp only)))
theorem tagFetch_kept : ∀ x0 x1 x2 s, (tagFetch x0 x1 x2 s).kept = s.kept := by
  intro x0 x1 x2 s
  unfold tagFetch
  (try dsimp only)
  repeat' (first | with_reducible rfl | simp only [kept_upd, kept_ite, monSys_kept, bursts_kept, mcReq_kept] | split | (refine (foldl_kept _ _ _ ?_).trans ?_; (intro _ _; try dsimp only)))
theorem sbServe_kept : ∀ x0 x1 x2 s, (sbServe x0 x1 x2 s).1.kept = s.kept := by
  intro x0 x1 x2 s
  unfold sbServe
  (try dsimp only)
  repeat' (first | with_reducible rfl | simp only [kept_upd, kept_ite, serve_kept, updTxn_kept, sbPin_kept, grantData_kept, missOnce_kept, cntPf_kept] | split | (refine (foldl_kept _ _ _ ?_).trans ?_; (intro _ _; try dsimp only)))
theorem promote_kept : ∀ x0 x1 s, (promote x0 x1 s).1.kept = s.kept := by
  intro x0 x1 s
  unfold promote
  (try dsimp only)
  repeat' (first | with_reducible rfl | simp only [kept_upd, kept_ite, updTxn_kept, tagFetch_kept, askVictim_kept] | split | (refine (foldl_kept _ _ _ ?_).trans ?_; (intro _ _; try dsimp only)))
theorem writeAlloc_kept : ∀ x0 x1 x2 s, (writeAlloc x0 x1 x2 s).1.kept = s.kept := by
  intro x0 x1 x2 s
  unfold writeAlloc
  (try dsimp only)
  repeat' (first | with_reducible rfl | simp only [kept_upd, kept_ite, writeFar_kept, updTxn_kept, askVictim_kept, farRead_kept] | split | (refine (foldl_kept _ _ _ ?_).trans ?_; (intro _ _; try dsimp only)))
theorem wrMissOnce_kept : ∀ x0 x1 s, (wrMissOnce x0 x1 s).kept = s.kept := by
  intro x0 x1 s
  unfold wrMissOnce
  (try dsimp only)
  repeat' (first | with_reducible rfl | simp only [kept_upd, kept_ite, monSys_kept, updTxn_kept] | split | (refine (foldl_kept _ _ _ ?_).trans ?_; (intro _ _; try dsimp only)))
theorem writeTo_kept : ∀ x0 x1 x2 s, (writeTo x0 x1 x2 s).1.kept = s.kept := by
  intro x0 x1 x2 s
  unfold writeTo
  (try dsimp only)
  repeat' (first | with_reducible rfl | simp only [kept_upd, kept_ite, writeFar_kept, wrMissOnce_kept, writeAlloc_kept, closeTxn_kept, updTxn_kept, combine_kept] | split | (refine (foldl_kept _ _ _ ?_).trans ?_; (intro _ _; try dsimp only)))
theorem writeMiss_kept : ∀ x0 x1 x2 s, (writeMiss x0 x1 x2 s).1.kept = s.kept := by
  intro x0 x1 x2 s
  unfold writeMiss
  (try dsimp only)
  repeat' (first | with_reducible rfl | simp only [kept_upd, kept_ite, writeTo_kept, missOnce_kept] | split | (refine (foldl_kept _ _ _ ?_).trans ?_; (intro _ _; try dsimp only)))
theorem wayAgain_kept : ∀ x0 x1 s, (wayAgain x0 x1 s).1.kept = s.kept := by
  intro x0 x1 s
  unfold wayAgain
  (try dsimp only)
  repeat' (first | with_reducible rfl | simp only [kept_upd, kept_ite, updTxn_kept, State.updSlice_kept, askVictim_kept] | split | (refine (foldl_kept _ _ _ ?_).trans ?_; (intro _ _; try dsimp only)))
theorem place_kept : ∀ x0 x1 x2 x3 x4 s, (place x0 x1 x2 x3 x4 s).1.kept = s.kept := by
  intro x0 x1 x2 x3 x4 s
  unfold place
  (try dsimp only)
  repeat' (first | with_reducible rfl | simp only [kept_upd, kept_ite, installLine_kept, wayAgain_kept, evictTo_kept, updTxn_kept, evictUp_kept, State.updSlice_kept] | split | (refine (foldl_kept _ _ _ ?_).trans ?_; (intro _ _; try dsimp only)))
theorem sbMatch_kept : ∀ x0 x1 s, (sbMatch x0 x1 s).kept = s.kept := by
  intro x0 x1 s
  unfold sbMatch
  (try dsimp only)
  repeat' (first | with_reducible rfl | simp only [kept_upd, kept_ite, sbPin_kept] | split | (refine (foldl_kept _ _ _ ?_).trans ?_; (intro _ _; try dsimp only)))
theorem startReq_kept : ∀ x0 x1 s, (startReq x0 x1 s).1.kept = s.kept := by
  intro x0 x1 s
  unfold startReq
  (try dsimp only)
  repeat' (first | with_reducible rfl | simp only [kept_upd, kept_ite, pullWrite_kept, sendUp_kept, sendSnoops_kept, updTxn_kept, capture_kept, takeWay_kept, farRead_kept] | split | (refine (foldl_kept _ _ _ ?_).trans ?_; (intro _ _; try dsimp only)))
theorem start_kept : ∀ x0 x1 s, (start x0 x1 s).1.kept = s.kept := by
  intro x0 x1 s
  unfold start
  (try dsimp only)
  repeat' (first | with_reducible rfl | simp only [kept_upd, kept_ite, sendSnoops_kept, sbMatch_kept, dirFix_kept, closeTxn_kept, violate_kept, updTxn_kept, startReq_kept, freeTag_kept, frozenAbort_kept] | split | (refine (foldl_kept _ _ _ ?_).trans ?_; (intro _ _; try dsimp only)))
theorem wrMade_kept : ∀ x0 x1 s, (wrMade x0 x1 s).kept = s.kept := by
  intro x0 x1 s
  unfold wrMade
  (try dsimp only)
  repeat' (first | with_reducible rfl | simp only [kept_upd, kept_ite, sbDiscard_kept, laidUnder_kept, wrVisible_kept, setDir_kept] | split | (refine (foldl_kept _ _ _ ?_).trans ?_; (intro _ _; try dsimp only)))
theorem devGo_kept : ∀ x0 x1 x2 s, (devGo x0 x1 x2 s).1.kept = s.kept := by
  intro x0 x1 x2 s
  unfold devGo
  (try dsimp only)
  repeat' (first | with_reducible rfl | simp only [kept_upd, kept_ite, sendComp_kept, farWrite_kept, upWrite_kept, updWb_kept, closeTxn_kept, updTxn_kept, wbFree_kept, wrPoint_kept] | split | (refine (foldl_kept _ _ _ ?_).trans ?_; (intro _ _; try dsimp only)))
theorem wrAnswered_kept : ∀ x0 x1 s, (wrAnswered x0 x1 s).1.kept = s.kept := by
  intro x0 x1 s
  unfold wrAnswered
  (try dsimp only)
  repeat' (first | with_reducible rfl | simp only [kept_upd, kept_ite, devGo_kept, absorb_kept, closeTxn_kept, updTxn_kept, wrMade_kept, offerStash_kept] | split | (refine (foldl_kept _ _ _ ?_).trans ?_; (intro _ _; try dsimp only)))
theorem ownerServes_kept : ∀ x0 x1 x2 s, (ownerServes x0 x1 x2 s).1.kept = s.kept := by
  intro x0 x1 x2 s
  unfold ownerServes
  (try dsimp only)
  repeat' (first | with_reducible rfl | simp only [kept_upd, kept_ite, updTxn_kept, evictUp_kept, wbFree_kept, grantData_kept, missOnce_kept] | split | (refine (foldl_kept _ _ _ ?_).trans ?_; (intro _ _; try dsimp only)))
theorem deadServes_kept : ∀ x0 x1 s, (deadServes x0 x1 s).1.kept = s.kept := by
  intro x0 x1 s
  unfold deadServes
  (try dsimp only)
  repeat' (first | with_reducible rfl | simp only [kept_upd, kept_ite, serve_kept, updWb_kept, updTxn_kept, ownerServes_kept] | split | (refine (foldl_kept _ _ _ ?_).trans ?_; (intro _ _; try dsimp only)))
theorem rdAnswered_kept : ∀ x0 x1 s, (rdAnswered x0 x1 s).1.kept = s.kept := by
  intro x0 x1 s
  unfold rdAnswered
  (try dsimp only)
  repeat' (first | with_reducible rfl | simp only [kept_upd, kept_ite, monSys_kept, grantComp_kept, deadServes_kept, updTxn_kept, ownerServes_kept, missOnce_kept] | split | (refine (foldl_kept _ _ _ ?_).trans ?_; (intro _ _; try dsimp only)))
theorem ownAnswered_kept : ∀ x0 x1 s, (ownAnswered x0 x1 s).1.kept = s.kept := by
  intro x0 x1 s
  unfold ownAnswered
  (try dsimp only)
  repeat' (first | with_reducible rfl | simp only [kept_upd, kept_ite, sendSnoops_kept, afterWrite_kept, updTxn_kept] | split | (refine (foldl_kept _ _ _ ?_).trans ?_; (intro _ _; try dsimp only)))
theorem answered_kept : ∀ x0 x1 s, (answered x0 x1 s).1.kept = s.kept := by
  intro x0 x1 s
  unfold answered
  (try dsimp only)
  repeat' (first | with_reducible rfl | simp only [kept_upd, kept_ite, wrAnswered_kept, rdAnswered_kept, ownAnswered_kept] | split | (refine (foldl_kept _ _ _ ?_).trans ?_; (intro _ _; try dsimp only)))
theorem prefetchDrop_kept : ∀ x0 x1 s, (prefetchDrop x0 x1 s).1.kept = s.kept := by
  intro x0 x1 s
  unfold prefetchDrop
  (try dsimp only)
  repeat' (first | with_reducible rfl | simp only [kept_upd, kept_ite, closeTxn_kept, cntPf_kept] | split | (refine (foldl_kept _ _ _ ?_).trans ?_; (intro _ _; try dsimp only)))
theorem prefetchLook_kept : ∀ x0 x1 x2 s, (prefetchLook x0 x1 x2 s).1.kept = s.kept := by
  intro x0 x1 x2 s
  unfold prefetchLook
  (try dsimp only)
  repeat' (first | with_reducible rfl | simp only [kept_upd, kept_ite, updTxn_kept, State.updSlice_kept, askVictim_kept, prefetchDrop_kept, farRead_kept, cntPf_kept] | split | (refine (foldl_kept _ _ _ ?_).trans ?_; (intro _ _; try dsimp only)))
theorem hitClear_kept : ∀ x0 x1 x2 x3 x4 s, (hitClear x0 x1 x2 x3 x4 s).kept = s.kept := by
  intro x0 x1 x2 x3 x4 s
  unfold hitClear
  (try dsimp only)
  repeat' (first | with_reducible rfl | simp only [kept_upd, kept_ite, putTe_kept, owe_kept, bursts_kept, cntPf_kept] | split | (refine (foldl_kept _ _ _ ?_).trans ?_; (intro _ _; try dsimp only)))
theorem wrHitOnce_kept : ∀ x0 x1 x2 s, (wrHitOnce x0 x1 x2 s).kept = s.kept := by
  intro x0 x1 x2 s
  unfold wrHitOnce
  (try dsimp only)
  repeat' (first | with_reducible rfl | simp only [kept_upd, kept_ite, monSys_kept, updTxn_kept, dispatchUpd_kept] | split | (refine (foldl_kept _ _ _ ?_).trans ?_; (intro _ _; try dsimp only)))
theorem emptyWrite_kept : ∀ x0 x1 x2 x3 s, (emptyWrite x0 x1 x2 x3 s).1.kept = s.kept := by
  intro x0 x1 x2 x3 s
  unfold emptyWrite
  (try dsimp only)
  repeat' (first | with_reducible rfl | simp only [kept_upd, kept_ite, wrMissOnce_kept, wrHitOnce_kept, hitClear_kept, afterWrite_kept, updTxn_kept, wbFree_kept] | split | (refine (foldl_kept _ _ _ ?_).trans ?_; (intro _ _; try dsimp only)))
theorem homeFound_kept : ∀ x0 x1 x2 s, (homeFound x0 x1 x2 s).1.kept = s.kept := by
  intro x0 x1 x2 s
  unfold homeFound
  (try dsimp only)
  repeat' (first | with_reducible rfl | simp only [kept_upd, kept_ite, homeAnswer_kept, bursts_kept, mcReq_kept, updTxn_kept] | split | (refine (foldl_kept _ _ _ ?_).trans ?_; (intro _ _; try dsimp only)))
theorem found_kept : ∀ x0 x1 x2 s, (found x0 x1 x2 s).1.kept = s.kept := by
  intro x0 x1 x2 s
  unfold found
  (try dsimp only)
  repeat' (first | with_reducible rfl | simp only [kept_upd, kept_ite, monSys_kept, emptyWrite_kept, wrHitOnce_kept, prefetchLook_kept, owe_kept, invWay_kept, bursts_kept, installLine_kept, mcReq_kept, updTxn_kept, dispatchUpd_kept, writeMiss_kept, homeFound_kept, readMiss_kept, ztSteps_kept] | split | (refine (foldl_kept _ _ _ ?_).trans ?_; (intro _ _; try dsimp only)))
theorem lookup_kept : ∀ x0 x1 s, (lookup x0 x1 s).1.kept = s.kept := by
  intro x0 x1 s
  unfold lookup
  (try dsimp only)
  repeat' (first | with_reducible rfl | simp only [kept_upd, kept_ite, found_kept, sbServe_kept, tagFetch_kept, State.updSlice_kept] | split | (refine (foldl_kept _ _ _ ?_).trans ?_; (intro _ _; try dsimp only)))
theorem accepted_kept : ∀ x0 x1 s, (accepted x0 x1 s).1.kept = s.kept := by
  intro x0 x1 s
  unfold accepted
  (try dsimp only)
  repeat' (first | with_reducible rfl | simp only [kept_upd, kept_ite, updWb_kept, closeTxn_kept, afterWrite_kept, updTxn_kept, wbFree_kept, wrPoint_kept] | split | (refine (foldl_kept _ _ _ ?_).trans ?_; (intro _ _; try dsimp only)))
theorem phase_kept : ∀ x0 x1 s, (phase x0 x1 s).1.kept = s.kept := by
  intro x0 x1 s
  unfold phase
  (try dsimp only)
  repeat' (first | with_reducible rfl | simp only [kept_upd, kept_ite, accepted_kept, start_kept, promote_kept, upWrite_kept, closeTxn_kept, lookup_kept, updTxn_kept, answered_kept, place_kept] | split | (refine (foldl_kept _ _ _ ?_).trans ?_; (intro _ _; try dsimp only)))
theorem go_kept : ∀ x0 x1 x2 s, (go x0 x1 x2 s).kept = s.kept := by
  intro x0
  induction x0 with
  | zero => intros; rfl
  | succ n ih =>
    intro x1 x2 s
    unfold go
    (try dsimp only)
    repeat' (first | with_reducible rfl | simp only [kept_ite, ih, phase_kept] | split | (refine (foldl_kept _ _ _ ?_).trans ?_; (intro _ _; try dsimp only)))
theorem run_kept : ∀ x0 x1 s, (run x0 x1 s).kept = s.kept := by
  intro x0 x1 s
  unfold run
  (try dsimp only)
  repeat' (first | with_reducible rfl | simp only [kept_upd, kept_ite, go_kept] | split | (refine (foldl_kept _ _ _ ?_).trans ?_; (intro _ _; try dsimp only)))
theorem kick_kept : ∀ x0 s, (kick x0 s).kept = s.kept := by
  intro x0 s
  unfold kick
  (try dsimp only)
  repeat' (first | with_reducible rfl | simp only [kept_upd, kept_ite, run_kept] | split | (refine (foldl_kept _ _ _ ?_).trans ?_; (intro _ _; try dsimp only)))
theorem kickAll_kept : ∀ s, (kickAll s).kept = s.kept := by
  intro s
  unfold kickAll
  (try dsimp only)
  repeat' (first | with_reducible rfl | simp only [kept_upd, kept_ite, kick_kept] | split | (refine (foldl_kept _ _ _ ?_).trans ?_; (intro _ _; try dsimp only)))
theorem recomputeRsv_kept : ∀ s, (recomputeRsv s).kept = s.kept := by
  intro s
  unfold recomputeRsv
  (try dsimp only)
  repeat' (first | with_reducible rfl | simp only [kept_upd, kept_ite, postEvent_kept] | split | (refine (foldl_kept _ _ _ ?_).trans ?_; (intro _ _; try dsimp only)))
theorem rescale_kept : ∀ s, (rescale s).1.kept = s.kept := by
  intro s
  unfold rescale
  (try dsimp only)
  repeat' (first | with_reducible rfl | simp only [kept_upd, kept_ite, postEvent_kept] | split | (refine (foldl_kept _ _ _ ?_).trans ?_; (intro _ _; try dsimp only)))
theorem recompute_kept : ∀ s, (recompute s).kept = s.kept := by
  intro s
  unfold recompute
  (try dsimp only)
  repeat' (first | with_reducible rfl | simp only [kept_upd, kept_ite, recomputeRsv_kept, rescale_kept] | split | (refine (foldl_kept _ _ _ ?_).trans ?_; (intro _ _; try dsimp only)))
theorem evOrder_kept : ∀ q f s, (evOrder q f s).kept = s.kept := by
  intro q f s
  unfold evOrder
  (try dsimp only)
  split <;> rfl
theorem setLevel_kept : ∀ x0 s, (setLevel x0 s).kept = s.kept := by
  intro x0 s
  unfold setLevel
  (try dsimp only)
  repeat' (first | with_reducible rfl | simp only [kept_upd, kept_ite, recompute_kept, evOrder_kept, postEvent_kept] | split | (refine (foldl_kept _ _ _ ?_).trans ?_; (intro _ _; try dsimp only)))
theorem logFarRead_kept : ∀ x0 x1 x2 s, (logFarRead x0 x1 x2 s).kept = s.kept := by
  intro x0 x1 x2 s
  unfold logFarRead
  (try dsimp only)
  repeat' (first | with_reducible rfl | simp only [kept_upd, kept_ite, logErr_kept, cntErr_kept] | split | (refine (foldl_kept _ _ _ ?_).trans ?_; (intro _ _; try dsimp only)))
theorem logFarPoison_kept : ∀ x0 x1 s, (logFarPoison x0 x1 s).kept = s.kept := by
  intro x0 x1 s
  unfold logFarPoison
  (try dsimp only)
  repeat' (first | with_reducible rfl | simp only [kept_upd, kept_ite, poisonDur_kept, logErr_kept, cntErr_kept] | split | (refine (foldl_kept _ _ _ ?_).trans ?_; (intro _ _; try dsimp only)))
theorem farRelease_kept : ∀ x0 x1 s, (farRelease x0 x1 s).kept = s.kept := by
  intro x0 x1 s
  unfold farRelease
  (try dsimp only)
  repeat' (first | with_reducible rfl | simp only [kept_upd, kept_ite, cxlOut_kept] | split | (refine (foldl_kept _ _ _ ?_).trans ?_; (intro _ _; try dsimp only)))
theorem clearDirty_kept : ∀ x0 x1 x2 s, (clearDirty x0 x1 x2 s).kept = s.kept := by
  intro x0 x1 x2 s
  unfold clearDirty
  (try dsimp only)
  repeat' (first | with_reducible rfl | simp only [kept_upd, kept_ite, putTe_kept] | split | (refine (foldl_kept _ _ _ ?_).trans ?_; (intro _ _; try dsimp only)))
theorem farAgain_kept : ∀ x0 x1 x2 x3 x4 s, (farAgain x0 x1 x2 x3 x4 s).kept = s.kept := by
  intro x0 x1 x2 x3 x4 s
  unfold farAgain
  (try dsimp only)
  repeat' (first | with_reducible rfl | simp only [kept_upd, kept_ite, farSend_kept, monSys_kept] | split | (refine (foldl_kept _ _ _ ?_).trans ?_; (intro _ _; try dsimp only)))
theorem farFix_kept : ∀ x0 x1 x2 s, (farFix x0 x1 x2 s).kept = s.kept := by
  intro x0 x1 x2 s
  unfold farFix
  (try dsimp only)
  repeat' (first | with_reducible rfl | simp only [kept_upd, kept_ite, putTe_kept, bursts_kept, farAgain_kept, poisonDur_kept] | split | (refine (foldl_kept _ _ _ ?_).trans ?_; (intro _ _; try dsimp only)))
theorem farWriteFailed_kept : ∀ x0 x1 x2 x3 s, (farWriteFailed x0 x1 x2 x3 s).kept = s.kept := by
  intro x0 x1 x2 x3 s
  unfold farWriteFailed
  (try dsimp only)
  repeat' (first | with_reducible rfl | simp only [kept_upd, kept_ite, wrLose_kept, farFix_kept, logErr_kept, State.updSlice_kept, cntErr_kept] | split | (refine (foldl_kept _ _ _ ?_).trans ?_; (intro _ _; try dsimp only)))
theorem updWalk_kept : ∀ x0 x1 s, (updWalk x0 x1 s).kept = s.kept := by
  intro x0 x1 s
  unfold updWalk
  (try dsimp only)
  repeat' (first | with_reducible rfl | simp only [kept_upd, kept_ite, cmd_kept] | split | (refine (foldl_kept _ _ _ ?_).trans ?_; (intro _ _; try dsimp only)))
theorem walkCount_kept : ∀ x0 x1 s, (walkCount x0 x1 s).kept = s.kept := by
  intro x0 x1 s
  unfold walkCount
  (try dsimp only)
  repeat' (first | with_reducible rfl | simp only [kept_upd, kept_ite] | split | (refine (foldl_kept _ _ _ ?_).trans ?_; (intro _ _; try dsimp only)))
theorem visitEnd_kept : ∀ x0 x1 x2 x3 s, (visitEnd x0 x1 x2 x3 s).kept = s.kept := by
  intro x0 x1 x2 x3 s
  unfold visitEnd
  (try dsimp only)
  repeat' (first | with_reducible rfl | simp only [kept_upd, kept_ite, owe_kept, invWay_kept, run_kept, updTxn_kept, dropWay_kept] | split | (refine (foldl_kept _ _ _ ?_).trans ?_; (intro _ _; try dsimp only)))
theorem walkFar_kept : ∀ x0 x1 x2 x3 s, (walkFar x0 x1 x2 x3 s).kept = s.kept := by
  intro x0 x1 x2 x3 s
  unfold walkFar
  (try dsimp only)
  repeat' (first | with_reducible rfl | simp only [kept_upd, kept_ite, visitEnd_kept, walkCount_kept, updWalk_kept] | split | (refine (foldl_kept _ _ _ ?_).trans ?_; (intro _ _; try dsimp only)))
theorem wbDone_kept : ∀ x0 x1 x2 x3 x4 s, (wbDone x0 x1 x2 x3 x4 s).kept = s.kept := by
  intro x0 x1 x2 x3 x4 s
  unfold wbDone
  (try dsimp only)
  repeat' (first | with_reducible rfl | simp only [kept_upd, kept_ite, bursts_kept, wbFree_kept, farWriteFailed_kept, wrPoint_kept, clearDirty_kept, kick_kept] | split | (refine (foldl_kept _ _ _ ?_).trans ?_; (intro _ _; try dsimp only)))
theorem ztWriteBit_kept : ∀ x0 s, (ztWriteBit x0 s).kept = s.kept := by
  intro x0 s
  unfold ztWriteBit
  (try dsimp only)
  repeat' (first | with_reducible rfl | simp only [kept_upd, kept_ite, farWrite_kept, farRead_kept] | split | (refine (foldl_kept _ _ _ ?_).trans ?_; (intro _ _; try dsimp only)))
theorem ztZeroDone_kept : ∀ x0 x1 s, (ztZeroDone x0 x1 s).kept = s.kept := by
  intro x0 x1 s
  unfold ztZeroDone
  (try dsimp only)
  repeat' (first | with_reducible rfl | simp only [kept_upd, kept_ite, updTxn_kept, ztWriteBit_kept] | split | (refine (foldl_kept _ _ _ ?_).trans ?_; (intro _ _; try dsimp only)))
theorem ztBitDone_kept : ∀ x0 x1 x2 s, (ztBitDone x0 x1 x2 s).kept = s.kept := by
  intro x0 x1 x2 s
  unfold ztBitDone
  (try dsimp only)
  repeat' (first | with_reducible rfl | simp only [kept_upd, kept_ite, kickAll_kept, run_kept, updWb_kept, updTxn_kept, ztPut_kept] | split | (refine (foldl_kept _ _ _ ?_).trans ?_; (intro _ _; try dsimp only)))
theorem ztFailed_kept : ∀ x0 x1 s, (ztFailed x0 x1 s).kept = s.kept := by
  intro x0 x1 s
  unfold ztFailed
  (try dsimp only)
  repeat' (first | with_reducible rfl | simp only [kept_upd, kept_ite, kickAll_kept, wrLose_kept, closeTxn_kept, wbFree_kept] | split | (refine (foldl_kept _ _ _ ?_).trans ?_; (intro _ _; try dsimp only)))
theorem readPoisoned_kept : ∀ x0 x1 s, (readPoisoned x0 x1 s).kept = s.kept := by
  intro x0 x1 s
  unfold readPoisoned
  (try dsimp only)
  repeat' (first | with_reducible rfl | simp only [kept_upd, kept_ite, serve_kept, run_kept, updTxn_kept, State.updSlice_kept] | split | (refine (foldl_kept _ _ _ ?_).trans ?_; (intro _ _; try dsimp only)))
theorem fillDone_kept : ∀ x0 x1 x2 x3 s, (fillDone x0 x1 x2 x3 s).kept = s.kept := by
  intro x0 x1 x2 x3 s
  unfold fillDone
  (try dsimp only)
  repeat' (first | with_reducible rfl | simp only [kept_upd, kept_ite, run_kept, closeTxn_kept, updTxn_kept, readPoisoned_kept, logFarRead_kept, State.updSlice_kept, grantData_kept, kick_kept, cntPf_kept, logFarPoison_kept] | split | (refine (foldl_kept _ _ _ ?_).trans ?_; (intro _ _; try dsimp only)))
theorem mergeDone_kept : ∀ x0 x1 x2 x3 s, (mergeDone x0 x1 x2 x3 s).kept = s.kept := by
  intro x0 x1 x2 x3 s
  unfold mergeDone
  (try dsimp only)
  repeat' (first | with_reducible rfl | simp only [kept_upd, kept_ite, wrLose_kept, run_kept, updWb_kept, updTxn_kept, logFarRead_kept, askVictim_kept, logFarPoison_kept] | split | (refine (foldl_kept _ _ _ ?_).trans ?_; (intro _ _; try dsimp only)))
theorem devReadDone_kept : ∀ x0 x1 x2 s, (devReadDone x0 x1 x2 s).kept = s.kept := by
  intro x0 x1 x2 s
  unfold devReadDone
  (try dsimp only)
  repeat' (first | with_reducible rfl | simp only [kept_upd, kept_ite, closeTxn_kept, grantData_kept, kick_kept] | split | (refine (foldl_kept _ _ _ ?_).trans ?_; (intro _ _; try dsimp only)))
theorem devWriteDone_kept : ∀ x0 x1 x2 x3 x4 s, (devWriteDone x0 x1 x2 x3 x4 s).kept = s.kept := by
  intro x0 x1 x2 x3 x4 s
  unfold devWriteDone
  (try dsimp only)
  repeat' (first | with_reducible rfl | simp only [kept_upd, kept_ite, sendComp_kept, closeTxn_kept, wbFree_kept, farWriteFailed_kept, wrPoint_kept, kick_kept] | split | (refine (foldl_kept _ _ _ ?_).trans ?_; (intro _ _; try dsimp only)))
theorem farReadEnd_kept : ∀ x0 x1 s, (farReadEnd x0 x1 s).kept = s.kept := by
  intro x0 x1 s
  unfold farReadEnd
  (try dsimp only)
  repeat' (first | with_reducible rfl | simp only [kept_upd, kept_ite, run_kept, updTxn_kept, readPoisoned_kept, logFarRead_kept, ztFailed_kept, devReadDone_kept, ztPut_kept, ztWriteBit_kept, fillDone_kept, mergeDone_kept, logFarPoison_kept] | split | (refine (foldl_kept _ _ _ ?_).trans ?_; (intro _ _; try dsimp only)))
theorem farWriteEnd_kept : ∀ x0 x1 x2 s, (farWriteEnd x0 x1 x2 s).kept = s.kept := by
  intro x0 x1 x2 s
  unfold farWriteEnd
  (try dsimp only)
  repeat' (first | with_reducible rfl | simp only [kept_upd, kept_ite, walkFar_kept, ztBitDone_kept, wbDone_kept, errForm_kept, ztZeroDone_kept, walkCount_kept, ztFailed_kept, devWriteDone_kept, State.updSlice_kept, farWriteFailed_kept, clearDirty_kept, kick_kept] | split | (refine (foldl_kept _ _ _ ?_).trans ?_; (intro _ _; try dsimp only)))
theorem injRead_kept : ∀ x0 x1 s, (injRead x0 x1 s).2.kept = s.kept := by
  intro x0 x1 s
  unfold injRead
  (try dsimp only)
  repeat' (first | with_reducible rfl | simp only [kept_upd, kept_ite] | split | (refine (foldl_kept _ _ _ ?_).trans ?_; (intro _ _; try dsimp only)))
theorem capFarEnd_kept : ∀ x0 x1 s, (capFarEnd x0 x1 s).kept = s.kept := by
  intro x0 x1 s
  unfold capFarEnd
  (try dsimp only)
  repeat' (first | with_reducible rfl | simp only [kept_upd, kept_ite, capIn_kept] | split | (refine (foldl_kept _ _ _ ?_).trans ?_; (intro _ _; try dsimp only)))
theorem farCarry_kept : ∀ x0 s, (farCarry x0 s).kept = s.kept := by
  intro x0 s
  unfold farCarry
  (try dsimp only)
  repeat' (first | with_reducible rfl | simp only [kept_upd, kept_ite] | split | (refine (foldl_kept _ _ _ ?_).trans ?_; (intro _ _; try dsimp only)))
theorem farEnd_kept : ∀ x0 x1 s, (farEnd x0 x1 s).kept = s.kept := by
  intro x0 x1 s
  unfold farEnd
  (try dsimp only)
  repeat' (first | with_reducible rfl | simp only [kept_upd, kept_ite, monSys_kept, farWriteEnd_kept, injRead_kept, capFarEnd_kept, farCarry_kept, farRelease_kept, farReadEnd_kept] | split | (refine (foldl_kept _ _ _ ?_).trans ?_; (intro _ _; try dsimp only)))
theorem settleFar_kept : ∀ x0 s, (settleFar x0 s).kept = s.kept := by
  intro x0
  induction x0 with
  | zero => intros; rfl
  | succ n ih =>
    intro s
    unfold settleFar
    (try dsimp only)
    repeat' (first | with_reducible rfl | simp only [kept_upd, kept_ite, ih, farEnd_kept] | split)
theorem farDead_kept : ∀ x0 s, (farDead x0 s).kept = s.kept := by
  intro x0 s
  unfold farDead
  (try dsimp only)
  repeat' (first | with_reducible rfl | simp only [kept_upd, kept_ite, recompute_kept, postEvent_kept, State.updFar_kept, logErr_kept] | split | (refine (foldl_kept _ _ _ ?_).trans ?_; (intro _ _; try dsimp only)))
theorem admitIn_kept : ∀ x0 x1 s, (admitIn x0 x1 s).kept = s.kept := by
  intro x0 x1 s
  unfold admitIn
  (try dsimp only)
  repeat' (first | with_reducible rfl | simp only [kept_upd, kept_ite, run_kept, State.updSlice_kept] | split | (refine (foldl_kept _ _ _ ?_).trans ?_; (intro _ _; try dsimp only)))
theorem arbitrate_kept : ∀ x0 x1 s, (arbitrate x0 x1 s).kept = s.kept := by
  intro x0 x1 s
  unfold arbitrate
  (try dsimp only)
  repeat' (first | with_reducible rfl | simp only [kept_upd, kept_ite, monSys_kept, admitIn_kept, State.updSlice_kept] | split | (refine (foldl_kept _ _ _ ?_).trans ?_; (intro _ _; try dsimp only)))
theorem dirRead.unresolved_kept : ∀ x0 x1 x2 s, (dirRead.unresolved x0 x1 x2 s).kept = s.kept := by
  intro x0 x1 x2 s
  unfold dirRead.unresolved
  (try dsimp only)
  repeat' (first | with_reducible rfl | simp only [kept_upd, kept_ite, State.updSlice_kept] | split | (refine (foldl_kept _ _ _ ?_).trans ?_; (intro _ _; try dsimp only)))
theorem touch_kept : ∀ x0 x1 x2 x3 x4 x5 s, (touch x0 x1 x2 x3 x4 x5 s).kept = s.kept := by
  intro x0 x1 x2 x3 x4 x5 s
  unfold touch
  (try dsimp only)
  repeat' (first | with_reducible rfl | simp only [kept_upd, kept_ite, recCap_kept] | split | (refine (foldl_kept _ _ _ ?_).trans ?_; (intro _ _; try dsimp only)))
theorem capTouch_kept : ∀ x0 x1 x2 s, (capTouch x0 x1 x2 s).kept = s.kept := by
  intro x0 x1 x2 s
  unfold capTouch
  (try dsimp only)
  repeat' (first | with_reducible rfl | simp only [kept_upd, kept_ite, touch_kept] | split | (refine (foldl_kept _ _ _ ?_).trans ?_; (intro _ _; try dsimp only)))
theorem capAns_kept : ∀ x0 x1 x2 x3 s, (capAns x0 x1 x2 x3 s).kept = s.kept := by
  intro x0 x1 x2 x3 s
  unfold capAns
  (try dsimp only)
  repeat' (first | with_reducible rfl | simp only [kept_upd, kept_ite, capTouch_kept, capMsg_kept] | split | (refine (foldl_kept _ _ _ ?_).trans ?_; (intro _ _; try dsimp only)))
theorem dirUpset_kept : ∀ x0 x1 s, (dirUpset x0 x1 s).kept = s.kept := by
  intro x0 x1 s
  unfold dirUpset
  (try dsimp only)
  repeat' (first | with_reducible rfl | simp only [kept_upd, kept_ite, State.updSlice_kept] | split | (refine (foldl_kept _ _ _ ?_).trans ?_; (intro _ _; try dsimp only)))
theorem dirRead_kept : ∀ x0 x1 x2 s, (dirRead x0 x1 x2 s).kept = s.kept := by
  intro x0 x1 x2 s
  unfold dirRead
  (try dsimp only)
  repeat' (first | with_reducible rfl | simp only [kept_upd, kept_ite, logErr_kept, State.updSlice_kept, cntErr_kept, dirRead.unresolved_kept] | split | (refine (foldl_kept _ _ _ ?_).trans ?_; (intro _ _; try dsimp only)))
theorem dirMeet_kept : ∀ x0 x1 s, (dirMeet x0 x1 s).kept = s.kept := by
  intro x0 x1 s
  unfold dirMeet
  (try dsimp only)
  repeat' (first | with_reducible rfl | simp only [kept_upd, kept_ite, capTouch_kept, dirRead_kept] | split | (refine (foldl_kept _ _ _ ?_).trans ?_; (intro _ _; try dsimp only)))
theorem setLost_kept : ∀ x0 s, (setLost x0 s).kept = s.kept := by
  intro x0 s
  unfold setLost
  (try dsimp only)
  repeat' (first | with_reducible rfl | simp only [kept_upd, kept_ite, countUe_kept, State.updSlice_kept, cntErr_kept] | split | (refine (foldl_kept _ _ _ ?_).trans ?_; (intro _ _; try dsimp only)))
theorem patrolWay_kept : ∀ x0 x1 x2 x3 s, (patrolWay x0 x1 x2 x3 s).kept = s.kept := by
  intro x0 x1 x2 x3 s
  unfold patrolWay
  (try dsimp only)
  repeat' (first | with_reducible rfl | simp only [kept_upd, kept_ite, burstsNow_kept, lineOutcome_kept] | split | (refine (foldl_kept _ _ _ ?_).trans ?_; (intro _ _; try dsimp only)))
theorem tagTake_kept : ∀ x0 x1 x2 x3 x4 s, (tagTake x0 x1 x2 x3 x4 s).kept = s.kept := by
  intro x0 x1 x2 x3 x4 s
  unfold tagTake
  (try dsimp only)
  repeat' (first | with_reducible rfl | simp only [kept_upd, kept_ite, owe_kept, setLost_kept, countCe_kept, bursts_kept, logErr_kept, cntErr_kept, tbcInstall_kept] | split | (refine (foldl_kept _ _ _ ?_).trans ?_; (intro _ _; try dsimp only)))
theorem tagReturn_kept : ∀ x0 x1 s, (tagReturn x0 x1 s).kept = s.kept := by
  intro x0 x1 s
  unfold tagReturn
  (try dsimp only)
  repeat' (first | with_reducible rfl | simp only [kept_upd, kept_ite, run_kept, tagTake_kept] | split | (refine (foldl_kept _ _ _ ?_).trans ?_; (intro _ _; try dsimp only)))
theorem tagNow_kept : ∀ x0 x1 x2 s, (tagNow x0 x1 x2 s).kept = s.kept := by
  intro x0 x1 x2 s
  unfold tagNow
  (try dsimp only)
  repeat' (first | with_reducible rfl | simp only [kept_upd, kept_ite, monSys_kept, burstsNow_kept, tagTake_kept] | split | (refine (foldl_kept _ _ _ ?_).trans ?_; (intro _ _; try dsimp only)))
theorem lineReturn_kept : ∀ x0 x1 x2 x3 s, (lineReturn x0 x1 x2 x3 s).kept = s.kept := by
  intro x0 x1 x2 x3 s
  unfold lineReturn
  (try dsimp only)
  repeat' (first | with_reducible rfl | simp only [kept_upd, kept_ite, homeAnswer_kept, serve_kept, wrLose_kept, hitClear_kept, installLine_kept, run_kept, updWb_kept, updTxn_kept, lineOutcome_kept, kick_kept] | split | (refine (foldl_kept _ _ _ ?_).trans ?_; (intro _ _; try dsimp only)))
theorem victReturn_kept : ∀ x0 x1 x2 x3 s, (victReturn x0 x1 x2 x3 s).kept = s.kept := by
  intro x0 x1 x2 x3 s
  unfold victReturn
  (try dsimp only)
  repeat' (first | with_reducible rfl | simp only [kept_upd, kept_ite, farWrite_kept, writeSlot_kept, owe_kept, countUe_kept, countCe_kept, bursts_kept, run_kept, updTxn_kept, logErr_kept, State.updSlice_kept, cntErr_kept, kick_kept] | split | (refine (foldl_kept _ _ _ ?_).trans ?_; (intro _ _; try dsimp only)))
theorem sealPoint_kept : ∀ x0 x1 s, (sealPoint x0 x1 s).kept = s.kept := by
  intro x0 x1 s
  unfold sealPoint
  (try dsimp only)
  repeat' (first | with_reducible rfl | simp only [kept_upd, kept_ite, State.updCtx_kept] | split | (refine (foldl_kept _ _ _ ?_).trans ?_; (intro _ _; try dsimp only)))
theorem slotHalf_kept : ∀ x0 x1 x2 s, (slotHalf x0 x1 x2 s).kept = s.kept := by
  intro x0 x1 x2 s
  unfold slotHalf
  (try dsimp only)
  repeat' (first | with_reducible rfl | simp only [kept_upd, kept_ite, farSend_kept] | split | (refine (foldl_kept _ _ _ ?_).trans ?_; (intro _ _; try dsimp only)))
theorem slotSend_kept : ∀ x0 x1 s, (slotSend x0 x1 s).kept = s.kept := by
  intro x0 x1 s
  unfold slotSend
  (try dsimp only)
  repeat' (first | with_reducible rfl | simp only [kept_upd, kept_ite, slotHalf_kept] | split | (refine (foldl_kept _ _ _ ?_).trans ?_; (intro _ _; try dsimp only)))
theorem placeItem_kept : ∀ x0 s, (placeItem x0 s).kept = s.kept := by
  intro x0 s
  unfold placeItem
  (try dsimp only)
  repeat' (first | with_reducible rfl | simp only [kept_upd, kept_ite, slotSend_kept, State.updCtx_kept] | split | (refine (foldl_kept _ _ _ ?_).trans ?_; (intro _ _; try dsimp only)))
theorem placeItems_kept : ∀ s, (placeItems s).kept = s.kept := by
  intro s
  unfold placeItems
  refine foldl_kept_fst _ _ _ ?_
  intro a it
  split
  · rfl
  · split
    · rfl
    · exact placeItem_kept _ _
theorem addItem_kept : ∀ x0 x1 x2 s, (addItem x0 x1 x2 s).kept = s.kept := by
  intro x0 x1 x2 s
  unfold addItem
  (try dsimp only)
  repeat' (first | with_reducible rfl | simp only [kept_upd, kept_ite, placeItems_kept] | split | (refine (foldl_kept _ _ _ ?_).trans ?_; (intro _ _; try dsimp only)))
theorem abandonSigs_kept : ∀ x0 s, (abandonSigs x0 s).kept = s.kept := by
  intro x0 s
  unfold abandonSigs
  (try dsimp only)
  repeat' (first | with_reducible rfl | simp only [kept_upd, kept_ite, placeItems_kept] | split | (refine (foldl_kept _ _ _ ?_).trans ?_; (intro _ _; try dsimp only)))
theorem formRecord_kept : ∀ x0 x1 s, (formRecord x0 x1 s).kept = s.kept := by
  intro x0 x1 s
  unfold formRecord
  (try dsimp only)
  repeat' (first | with_reducible rfl | simp only [kept_upd, kept_ite, State.updCtx_kept, monSys_kept, addItem_kept] | split | (refine (foldl_kept _ _ _ ?_).trans ?_; (intro _ _; try dsimp only)))
theorem logLow_kept : ∀ s, (logLow s).kept = s.kept := by
  intro s
  unfold logLow
  (try dsimp only)
  repeat' (first | with_reducible rfl | simp only [kept_upd, kept_ite, postEvent_kept] | split | (refine (foldl_kept _ _ _ ?_).trans ?_; (intro _ _; try dsimp only)))
theorem hashedAt_kept : ∀ x0 x1 s, (hashedAt x0 x1 s).kept = s.kept := by
  intro x0 x1 s
  unfold hashedAt
  (try dsimp only)
  repeat' (first | with_reducible rfl | simp only [kept_upd, kept_ite, State.updCtx_kept, sealPoint_kept, postEvent_kept] | split | (refine (foldl_kept _ _ _ ?_).trans ?_; (intro _ _; try dsimp only)))
theorem gapEnd_kept : ∀ x0 s, (gapEnd x0 s).kept = s.kept := by
  intro x0 s
  unfold gapEnd
  (try dsimp only)
  repeat' (first | with_reducible rfl | simp only [kept_upd, kept_ite, State.updCtx_kept, finish_kept, hashedAt_kept] | split | (refine (foldl_kept _ _ _ ?_).trans ?_; (intro _ _; try dsimp only)))
theorem closeEnd_kept : ∀ x0 s, (closeEnd x0 s).kept = s.kept := by
  intro x0 s
  unfold closeEnd
  (try dsimp only)
  repeat' (first | with_reducible rfl | simp only [kept_upd, kept_ite, State.updCtx_kept, finish_kept, fireNotices_kept] | split | (refine (foldl_kept _ _ _ ?_).trans ?_; (intro _ _; try dsimp only)))
theorem headWrite_kept : ∀ x0 s, (headWrite x0 s).kept = s.kept := by
  intro x0 s
  unfold headWrite
  (try dsimp only)
  repeat' (first | with_reducible rfl | simp only [kept_upd, kept_ite, farSend_kept] | split | (refine (foldl_kept _ _ _ ?_).trans ?_; (intro _ _; try dsimp only)))
theorem itemDone_kept : ∀ x0 s, (itemDone x0 s).kept = s.kept := by
  intro x0 s
  unfold itemDone
  (try dsimp only)
  repeat' (first | with_reducible rfl | simp only [kept_upd, kept_ite, State.updCtx_kept, finish_kept, closeEnd_kept, headWrite_kept, gapEnd_kept] | split | (refine (foldl_kept _ _ _ ?_).trans ?_; (intro _ _; try dsimp only)))
theorem slotDone_kept : ∀ x0 x1 s, (slotDone x0 x1 s).kept = s.kept := by
  intro x0 x1 s
  unfold slotDone
  (try dsimp only)
  repeat' (first | with_reducible rfl | simp only [kept_upd, kept_ite, itemDone_kept, placeItem_kept] | split | (refine (foldl_kept _ _ _ ?_).trans ?_; (intro _ _; try dsimp only)))
theorem slotsEnd_kept : ∀ s, (slotsEnd s).kept = s.kept := by
  intro s
  unfold slotsEnd
  (try dsimp only)
  repeat' (first | with_reducible rfl | simp only [kept_upd, kept_ite, slotDone_kept] | split | (refine (foldl_kept _ _ _ ?_).trans ?_; (intro _ _; try dsimp only)))
theorem retryDead_kept : ∀ s, (retryDead s).kept = s.kept := by
  intro s
  unfold retryDead
  (try dsimp only)
  repeat' (first | with_reducible rfl | simp only [kept_upd, kept_ite, placeItem_kept] | split | (refine (foldl_kept _ _ _ ?_).trans ?_; (intro _ _; try dsimp only)))
theorem closeWaited_kept : ∀ x0 s, (closeWaited x0 s).kept = s.kept := by
  intro x0 s
  unfold closeWaited
  (try dsimp only)
  repeat' (first | with_reducible rfl | simp only [kept_upd, kept_ite] | split | (refine (foldl_kept _ _ _ ?_).trans ?_; (intro _ _; try dsimp only)))
theorem streamGo_kept : ∀ x0 s, (streamGo x0 s).kept = s.kept := by
  intro x0 s
  unfold streamGo
  (try dsimp only)
  repeat' (first | with_reducible rfl | simp only [kept_upd, kept_ite, State.updCtx_kept, finish_kept, sealPoint_kept, updProg_kept] | split | (refine (foldl_kept _ _ _ ?_).trans ?_; (intro _ _; try dsimp only)))
theorem streamsGo_kept : ∀ s, (streamsGo s).kept = s.kept := by
  intro s
  unfold streamsGo
  (try dsimp only)
  repeat' (first | with_reducible rfl | simp only [kept_upd, kept_ite, streamGo_kept] | split | (refine (foldl_kept _ _ _ ?_).trans ?_; (intro _ _; try dsimp only)))
theorem cleanWay_kept : ∀ x0 x1 x2 x3 s, (cleanWay x0 x1 x2 x3 s).1.kept = s.kept := by
  intro x0 x1 x2 x3 s
  unfold cleanWay
  (try dsimp only)
  repeat' (first | with_reducible rfl | simp only [kept_upd, kept_ite, farWrite_kept, burstsNow_kept, bursts_kept, lineOutcome_kept] | split | (refine (foldl_kept _ _ _ ?_).trans ?_; (intro _ _; try dsimp only)))
theorem visitOpen_kept : ∀ x0 x1 x2 x3 x4 s, (visitOpen x0 x1 x2 x3 x4 s).1.kept = s.kept := by
  intro x0 x1 x2 x3 x4 s
  unfold visitOpen
  (try dsimp only)
  repeat' (first | with_reducible rfl | simp only [kept_upd, kept_ite, State.updSlice_kept] | split | (refine (foldl_kept _ _ _ ?_).trans ?_; (intro _ _; try dsimp only)))
theorem visitDrop_kept : ∀ x0 x1 x2 x3 x4 s, (visitDrop x0 x1 x2 x3 x4 s).kept = s.kept := by
  intro x0 x1 x2 x3 x4 s
  unfold visitDrop
  (try dsimp only)
  repeat' (first | with_reducible rfl | simp only [kept_upd, kept_ite, visitOpen_kept, owe_kept, invWay_kept] | split | (refine (foldl_kept _ _ _ ?_).trans ?_; (intro _ _; try dsimp only)))
theorem visitWay_kept : ∀ x0 x1 x2 x3 x4 s, (visitWay x0 x1 x2 x3 x4 s).kept = s.kept := by
  intro x0 x1 x2 x3 x4 s
  unfold visitWay
  (try dsimp only)
  repeat' (first | with_reducible rfl | simp only [kept_upd, kept_ite, visitOpen_kept, sbDiscard_kept, evictUp_kept, visitDrop_kept, cleanWay_kept, updWalk_kept] | split | (refine (foldl_kept _ _ _ ?_).trans ?_; (intro _ _; try dsimp only)))
theorem reclTxn_kept : ∀ x0 x1 x2 x3 s, (reclTxn x0 x1 x2 x3 s).kept = s.kept := by
  intro x0 x1 x2 x3 s
  unfold reclTxn
  (try dsimp only)
  repeat' (first | with_reducible rfl | simp only [kept_upd, kept_ite, run_kept, State.updSlice_kept] | split | (refine (foldl_kept _ _ _ ?_).trans ?_; (intro _ _; try dsimp only)))
theorem visitAgain_kept : ∀ x0 x1 x2 x3 s, (visitAgain x0 x1 x2 x3 s).kept = s.kept := by
  intro x0 x1 x2 x3 s
  unfold visitAgain
  (try dsimp only)
  repeat' (first | with_reducible rfl | simp only [kept_upd, kept_ite, visitEnd_kept, cleanWay_kept, updWalk_kept] | split | (refine (foldl_kept _ _ _ ?_).trans ?_; (intro _ _; try dsimp only)))
theorem visitEnt_kept : ∀ x0 x1 x2 s, (visitEnt x0 x1 x2 s).kept = s.kept := by
  intro x0 x1 x2 s
  unfold visitEnt
  (try dsimp only)
  repeat' (first | with_reducible rfl | simp only [kept_upd, kept_ite, updTxn_kept, entPass_kept] | split | (refine (foldl_kept _ _ _ ?_).trans ?_; (intro _ _; try dsimp only)))
theorem walkAct_kept : ∀ x0 x1 x2 x3 x4 s, (walkAct x0 x1 x2 x3 x4 s).kept = s.kept := by
  intro x0 x1 x2 x3 x4 s
  unfold walkAct
  (try dsimp only)
  repeat' (first | with_reducible rfl | simp only [kept_upd, kept_ite, monSys_kept, dirUpset_kept, sbDiscard_kept, dirFix_kept, visitEnt_kept, dirMeet_kept, bursts_kept, mcReq_kept, run_kept, visitWay_kept, closeCombine_kept, reclTxn_kept, State.updSlice_kept, updWalk_kept] | split | (refine (foldl_kept _ _ _ ?_).trans ?_; (intro _ _; try dsimp only)))
theorem walkPut_kept : ∀ x0 x1 x2 x3 s, (walkPut x0 x1 x2 x3 s).kept = s.kept := by
  intro x0 x1 x2 x3 s
  unfold walkPut
  (try dsimp only)
  repeat' (first | with_reducible rfl | simp only [kept_upd, kept_ite, capTouch_kept, monSys_kept, capWalk_kept, State.updSlice_kept] | split | (refine (foldl_kept _ _ _ ?_).trans ?_; (intro _ _; try dsimp only)))
theorem walkEnter_kept : ∀ x0 x1 s, (walkEnter x0 x1 s).kept = s.kept := by
  intro x0 x1 s
  unfold walkEnter
  (try dsimp only)
  repeat' (first | with_reducible rfl | simp only [kept_upd, kept_ite, walkPut_kept, updWalk_kept] | split | (refine (foldl_kept _ _ _ ?_).trans ?_; (intro _ _; try dsimp only)))
theorem walkVisit_kept : ∀ x0 x1 x2 s, (walkVisit x0 x1 x2 s).kept = s.kept := by
  intro x0 x1 x2 s
  unfold walkVisit
  (try dsimp only)
  repeat' (first | with_reducible rfl | simp only [kept_upd, kept_ite, visitAgain_kept, walkAct_kept, walkEnter_kept] | split | (refine (foldl_kept _ _ _ ?_).trans ?_; (intro _ _; try dsimp only)))
theorem arbTick_kept : ∀ x0 s, (arbTick x0 s).kept = s.kept := by
  intro x0 s
  unfold arbTick
  (try dsimp only)
  repeat' (first | with_reducible rfl | simp only [kept_upd, kept_ite, State.updSlice_kept] | split | (refine (foldl_kept _ _ _ ?_).trans ?_; (intro _ _; try dsimp only)))
theorem retireMark_kept : ∀ x0 s, (retireMark x0 s).kept = s.kept := by
  intro x0 s
  unfold retireMark
  (try dsimp only)
  repeat' (first | with_reducible rfl | simp only [kept_upd, kept_ite, State.updSlice_kept] | split | (refine (foldl_kept _ _ _ ?_).trans ?_; (intro _ _; try dsimp only)))
theorem retireList_kept : ∀ x0 x1 x2 s, (retireList x0 x1 x2 s).kept = s.kept := by
  intro x0 x1 x2 s
  unfold retireList
  (try dsimp only)
  repeat' (first | with_reducible rfl | simp only [kept_upd, kept_ite, healthJob_kept] | split | (refine (foldl_kept _ _ _ ?_).trans ?_; (intro _ _; try dsimp only)))
theorem invalidateAll_kept : ∀ s, (invalidateAll s).kept = s.kept := by
  intro s
  unfold invalidateAll
  (try dsimp only)
  repeat' (first | with_reducible rfl | simp only [kept_upd, kept_ite, writeRowTb_kept, State.updSlice_kept, cntPf_kept] | split | (refine (foldl_kept _ _ _ ?_).trans ?_; (intro _ _; try dsimp only)))
theorem capEnd_kept : ∀ x0 s, (capEnd x0 s).kept = s.kept := by
  intro x0 s
  unfold capEnd
  (try dsimp only)
  repeat' (first | with_reducible rfl | simp only [kept_upd, kept_ite, capCtrl_kept] | split | (refine (foldl_kept _ _ _ ?_).trans ?_; (intro _ _; try dsimp only)))
theorem walkEnd_kept : ∀ x0 s, (walkEnd x0 s).kept = s.kept := by
  intro x0 s
  unfold walkEnd
  (try dsimp only)
  repeat' (first | with_reducible rfl | simp only [kept_upd, kept_ite, capEnd_kept, logErr_kept, updProg_kept, invalidateAll_kept, finish_kept, retireList_kept, retireMark_kept, changeMode_kept, recompute_kept] | refine kept_if _ _ _ _ ?_ ?_ | split | (refine (foldl_kept _ _ _ ?_).trans ?_; (intro _ _; try dsimp only)))
theorem walkEnds_kept : ∀ x0 s, (walkEnds x0 s).kept = s.kept := by
  intro x0
  induction x0 with
  | zero => intros; rfl
  | succ n ih =>
    intro s
    unfold walkEnds
    (try dsimp only)
    repeat' (first | with_reducible rfl | simp only [kept_upd, kept_ite, ih, walkEnd_kept] | split)
theorem walkCmd_kept : ∀ x0 x1 x2 x3 x4 x5 x6 s, (walkCmd x0 x1 x2 x3 x4 x5 x6 s).kept = s.kept := by
  intro x0 x1 x2 x3 x4 x5 x6 s
  unfold walkCmd
  (try dsimp only)
  repeat' (first | with_reducible rfl | simp only [kept_upd, kept_ite, beginCmd_kept] | split | (refine (foldl_kept _ _ _ ?_).trans ?_; (intro _ _; try dsimp only)))
theorem walkStart_kept : ∀ x0 x1 x2 x3 x4 x5 x6 s, (walkStart x0 x1 x2 x3 x4 x5 x6 s).kept = s.kept := by
  intro x0 x1 x2 x3 x4 x5 x6 s
  unfold walkStart
  (try dsimp only)
  repeat' (first | with_reducible rfl | simp only [kept_upd, kept_ite, cmd_kept] | split | (refine (foldl_kept _ _ _ ?_).trans ?_; (intro _ _; try dsimp only)))
theorem purgeEnds_kept : ∀ s, (purgeEnds s).kept = s.kept := by
  intro s
  unfold purgeEnds
  (try dsimp only)
  repeat' (first | with_reducible rfl | simp only [kept_upd, kept_ite, postEvent_kept, logErr_kept, State.updPort_kept] | split | (refine (foldl_kept _ _ _ ?_).trans ?_; (intro _ _; try dsimp only)))
theorem clearStep4_kept : ∀ s, (clearStep4 s).kept = s.kept := by
  intro s
  unfold clearStep4
  (try dsimp only)
  repeat' (first | with_reducible rfl | simp only [kept_upd, kept_ite, walkStart_kept, updWalk_kept, updProg_kept] | split | (refine (foldl_kept _ _ _ ?_).trans ?_; (intro _ _; try dsimp only)))
theorem dirVisit_kept : ∀ x0 x1 s, (dirVisit x0 x1 s).kept = s.kept := by
  intro x0 x1 s
  unfold dirVisit
  (try dsimp only)
  repeat' (first | with_reducible rfl | simp only [kept_upd, kept_ite, dirUpset_kept, dirFix_kept, dirMeet_kept, purgeEnds_kept, capWalk_kept, clearStep4_kept, reclTxn_kept, State.updSlice_kept] | split | (refine (foldl_kept _ _ _ ?_).trans ?_; (intro _ _; try dsimp only)))
theorem dirWalks_kept : ∀ s, (dirWalks s).kept = s.kept := by
  intro s
  unfold dirWalks
  (try dsimp only)
  repeat' (first | with_reducible rfl | simp only [kept_upd, kept_ite, State.updSlice_kept] | split | (refine (foldl_kept _ _ _ ?_).trans ?_; (intro _ _; try dsimp only)))
theorem clearStep2_kept : ∀ s, (clearStep2 s).kept = s.kept := by
  intro s
  unfold clearStep2
  (try dsimp only)
  repeat' (first | with_reducible rfl | simp only [kept_upd, kept_ite, dirWalks_kept, updProg_kept] | split | (refine (foldl_kept _ _ _ ?_).trans ?_; (intro _ _; try dsimp only)))
theorem dirBadEnds_kept : ∀ x0 s, (dirBadEnds x0 s).kept = s.kept := by
  intro x0 s
  unfold dirBadEnds
  (try dsimp only)
  repeat' (first | with_reducible rfl | simp only [kept_upd, kept_ite, logErr_kept, State.updSlice_kept, cntErr_kept] | split | (refine (foldl_kept _ _ _ ?_).trans ?_; (intro _ _; try dsimp only)))
theorem ztInitEnd_kept : ∀ s, (ztInitEnd s).kept = s.kept := by
  intro s
  unfold ztInitEnd
  (try dsimp only)
  repeat' (first | with_reducible rfl | simp only [kept_upd, kept_ite, finish_kept] | split | (refine (foldl_kept _ _ _ ?_).trans ?_; (intro _ _; try dsimp only)))
theorem detect_kept : ∀ x0 x1 x2 x3 s, (detect x0 x1 x2 x3 s).kept = s.kept := by
  intro x0 x1 x2 x3 s
  unfold detect
  (try dsimp only)
  repeat' (first | with_reducible rfl | simp only [kept_upd, kept_ite, State.updPort_kept, cntPf_kept] | split | (refine (foldl_kept _ _ _ ?_).trans ?_; (intro _ _; try dsimp only)))
theorem streamTake_kept : ∀ x0 x1 x2 s, (streamTake x0 x1 x2 s).1.kept = s.kept := by
  intro x0 x1 x2 s
  unfold streamTake
  (try dsimp only)
  repeat' (first | with_reducible rfl | simp only [kept_upd, kept_ite, State.updCtx_kept, offBad_kept, updOff_kept] | split | (refine (foldl_kept _ _ _ ?_).trans ?_; (intro _ _; try dsimp only)))
theorem acceptWrite_kept : ∀ x0 x1 x2 x3 s, (acceptWrite x0 x1 x2 x3 s).1.kept = s.kept := by
  intro x0 x1 x2 x3 s
  unfold acceptWrite
  (try dsimp only)
  repeat' (first | with_reducible rfl | simp only [kept_upd, kept_ite, streamTake_kept, State.updPort_kept] | split | (refine (foldl_kept _ _ _ ?_).trans ?_; (intro _ _; try dsimp only)))
theorem accept_kept : ∀ x0 x1 x2 x3 s, (accept x0 x1 x2 x3 s).kept = s.kept := by
  intro x0 x1 x2 x3 s
  unfold accept
  (try dsimp only)
  repeat' (first | with_reducible rfl | simp only [kept_upd, kept_ite, detect_kept, acceptWrite_kept, State.updPort_kept, State.updSlice_kept] | split | (refine (foldl_kept _ _ _ ?_).trans ?_; (intro _ _; try dsimp only)))
theorem closeCombines_kept : ∀ x0 s, (closeCombines x0 s).kept = s.kept := by
  intro x0 s
  unfold closeCombines
  (try dsimp only)
  repeat' (first | with_reducible rfl | simp only [kept_upd, kept_ite, run_kept, closeCombine_kept] | split | (refine (foldl_kept _ _ _ ?_).trans ?_; (intro _ _; try dsimp only)))
theorem takeFence_kept : ∀ x0 x1 s, (takeFence x0 x1 s).kept = s.kept := by
  intro x0 x1 s
  unfold takeFence
  (try dsimp only)
  repeat' (first | with_reducible rfl | simp only [kept_upd, kept_ite, closeCombines_kept, State.updPort_kept, fencesEnd_kept] | split | (refine (foldl_kept _ _ _ ?_).trans ?_; (intro _ _; try dsimp only)))
theorem stashEnds_kept : ∀ s, (stashEnds s).kept = s.kept := by
  intro s
  unfold stashEnds
  (try dsimp only)
  repeat' (first | with_reducible rfl | simp only [kept_upd, kept_ite, stashOver_kept, kick_kept] | split | (refine (foldl_kept _ _ _ ?_).trans ?_; (intro _ _; try dsimp only)))
theorem reqGone_kept : ∀ x0 s, (reqGone x0 s).kept = s.kept := by
  intro x0 s
  unfold reqGone
  (try dsimp only)
  repeat' (first | with_reducible rfl | simp only [kept_upd, kept_ite, State.updPort_kept] | split | (refine (foldl_kept _ _ _ ?_).trans ?_; (intro _ _; try dsimp only)))
theorem fenceGone_kept : ∀ x0 x1 s, (fenceGone x0 x1 s).kept = s.kept := by
  intro x0 x1 s
  unfold fenceGone
  (try dsimp only)
  repeat' (first | with_reducible rfl | simp only [kept_upd, kept_ite, State.updPort_kept] | split | (refine (foldl_kept _ _ _ ?_).trans ?_; (intro _ _; try dsimp only)))
theorem refuseReq_kept : ∀ x0 x1 x2 s, (refuseReq x0 x1 x2 s).kept = s.kept := by
  intro x0 x1 x2 s
  unfold refuseReq
  (try dsimp only)
  repeat' (first | with_reducible rfl | simp only [kept_upd, kept_ite, tear_kept, violate_kept, State.updPort_kept, frozenAbort_kept] | split | (refine (foldl_kept _ _ _ ?_).trans ?_; (intro _ _; try dsimp only)))
theorem takeReq_kept : ∀ x0 x1 s, (takeReq x0 x1 s).kept = s.kept := by
  intro x0 x1 s
  unfold takeReq
  (try dsimp only)
  repeat' (first | with_reducible rfl | simp only [kept_upd, kept_ite, takeFence_kept, State.updPort_kept, fenceGone_kept, monPort_kept, refuseReq_kept, accept_kept, reqGone_kept, frozenAbort_kept] | split | (refine (foldl_kept _ _ _ ?_).trans ?_; (intro _ _; try dsimp only)))
theorem takeReqs_kept : ∀ x0 x1 s, (takeReqs x0 x1 s).kept = s.kept := by
  intro x0
  induction x0 with
  | zero => intros; rfl
  | succ n ih =>
    intro x1 s
    unfold takeReqs
    (try dsimp only)
    repeat' (first | with_reducible rfl | simp only [kept_upd, kept_ite, ih, frozenAbort_kept, fenceGone_kept, reqGone_kept, takeReq_kept] | split)
theorem takeAll_kept : ∀ s, (takeAll s).kept = s.kept := by
  intro s
  unfold takeAll
  (try dsimp only)
  repeat' (first | with_reducible rfl | simp only [kept_upd, kept_ite, takeReqs_kept] | split | (refine (foldl_kept _ _ _ ?_).trans ?_; (intro _ _; try dsimp only)))
theorem reqArrive_kept : ∀ x0 x1 s, (reqArrive x0 x1 s).kept = s.kept := by
  intro x0 x1 s
  unfold reqArrive
  (try dsimp only)
  repeat' (first | with_reducible rfl | simp only [kept_upd, kept_ite, State.updPort_kept] | split | (refine (foldl_kept _ _ _ ?_).trans ?_; (intro _ _; try dsimp only)))
theorem credit_kept : ∀ x0 x1 x2 s, (credit x0 x1 x2 s).kept = s.kept := by
  intro x0 x1 x2 s
  unfold credit
  (try dsimp only)
  repeat' (first | with_reducible rfl | simp only [kept_upd, kept_ite, flowCredits_kept, State.updPort_kept] | split | (refine (foldl_kept _ _ _ ?_).trans ?_; (intro _ _; try dsimp only)))
theorem spend_kept : ∀ x0 x1 x2 s, (spend x0 x1 x2 s).1.kept = s.kept := by
  intro x0 x1 x2 s
  unfold spend
  (try dsimp only)
  repeat' (first | with_reducible rfl | simp only [kept_upd, kept_ite, State.updPort_kept] | split | (refine (foldl_kept _ _ _ ?_).trans ?_; (intro _ _; try dsimp only)))
theorem snoopIn_kept : ∀ x0 x1 x2 s, (snoopIn x0 x1 x2 s).kept = s.kept := by
  intro x0 x1 x2 s
  unfold snoopIn
  (try dsimp only)
  repeat' (first | with_reducible rfl | simp only [kept_upd, kept_ite, run_kept, updTxn_kept] | split | (refine (foldl_kept _ _ _ ?_).trans ?_; (intro _ _; try dsimp only)))
theorem dirDrop_kept : ∀ x0 x1 s, (dirDrop x0 x1 s).kept = s.kept := by
  intro x0 x1 s
  unfold dirDrop
  (try dsimp only)
  repeat' (first | with_reducible rfl | simp only [kept_upd, kept_ite, setDir_kept] | split | (refine (foldl_kept _ _ _ ?_).trans ?_; (intro _ _; try dsimp only)))
theorem dirShare_kept : ∀ x0 s, (dirShare x0 s).kept = s.kept := by
  intro x0 s
  unfold dirShare
  (try dsimp only)
  repeat' (first | with_reducible rfl | simp only [kept_upd, kept_ite, setDir_kept] | split | (refine (foldl_kept _ _ _ ?_).trans ?_; (intro _ _; try dsimp only)))
theorem badAnswer_kept : ∀ x0 x1 x2 s, (badAnswer x0 x1 x2 s).kept = s.kept := by
  intro x0 x1 x2 s
  unfold badAnswer
  (try dsimp only)
  repeat' (first | with_reducible rfl | simp only [kept_upd, kept_ite, violate_kept, stashEnds_kept] | split | (refine (foldl_kept _ _ _ ?_).trans ?_; (intro _ _; try dsimp only)))
theorem grantStands_kept : ∀ x0 x1 s, (grantStands x0 x1 s).kept = s.kept := by
  intro x0 x1 s
  unfold grantStands
  (try dsimp only)
  repeat' (first | with_reducible rfl | simp only [kept_upd, kept_ite, sbDiscard_kept, updTxn_kept, dirClose_kept] | split | (refine (foldl_kept _ _ _ ?_).trans ?_; (intro _ _; try dsimp only)))
theorem compAck_kept : ∀ x0 x1 s, (compAck x0 x1 s).kept = s.kept := by
  intro x0 x1 s
  unfold compAck
  (try dsimp only)
  repeat' (first | with_reducible rfl | simp only [kept_upd, kept_ite, grantStands_kept, endRead_kept, run_kept, closeTxn_kept, updTxn_kept, badAnswer_kept, kick_kept, freeTag_kept] | split | (refine (foldl_kept _ _ _ ?_).trans ?_; (intro _ _; try dsimp only)))
theorem rspI_kept : ∀ x0 x1 s, (rspI x0 x1 s).kept = s.kept := by
  intro x0 x1 s
  unfold rspI
  (try dsimp only)
  repeat' (first | with_reducible rfl | simp only [kept_upd, kept_ite, snoopIn_kept, badAnswer_kept, dirDrop_kept] | split | (refine (foldl_kept _ _ _ ?_).trans ?_; (intro _ _; try dsimp only)))
theorem rspS_kept : ∀ x0 x1 s, (rspS x0 x1 s).kept = s.kept := by
  intro x0 x1 s
  unfold rspS
  (try dsimp only)
  repeat' (first | with_reducible rfl | simp only [kept_upd, kept_ite, snoopIn_kept, dirShare_kept, badAnswer_kept] | split | (refine (foldl_kept _ _ _ ?_).trans ?_; (intro _ _; try dsimp only)))
theorem rspFwd_kept : ∀ x0 x1 s, (rspFwd x0 x1 s).kept = s.kept := by
  intro x0 x1 s
  unfold rspFwd
  (try dsimp only)
  repeat' (first | with_reducible rfl | simp only [kept_upd, kept_ite, snoopIn_kept, updTxn_kept, badAnswer_kept, dirDrop_kept] | split | (refine (foldl_kept _ _ _ ?_).trans ?_; (intro _ _; try dsimp only)))
theorem stale_kept : ∀ x0 x1 s, (stale x0 x1 s).kept = s.kept := by
  intro x0 x1 s
  unfold stale
  (try dsimp only)
  repeat' (first | with_reducible rfl | simp only [kept_upd, kept_ite, logErr_kept, cntErr_kept] | split | (refine (foldl_kept _ _ _ ?_).trans ?_; (intro _ _; try dsimp only)))
theorem poisonIn_kept : ∀ x0 x1 s, (poisonIn x0 x1 s).kept = s.kept := by
  intro x0 x1 s
  unfold poisonIn
  (try dsimp only)
  repeat' (first | with_reducible rfl | simp only [kept_upd, kept_ite, logErr_kept] | split | (refine (foldl_kept _ _ _ ?_).trans ?_; (intro _ _; try dsimp only)))
theorem evictComp_kept : ∀ x0 x1 s, (evictComp x0 x1 s).kept = s.kept := by
  intro x0 x1 s
  unfold evictComp
  (try dsimp only)
  repeat' (first | with_reducible rfl | simp only [kept_upd, kept_ite, txMsg_kept] | split | (refine (foldl_kept _ _ _ ?_).trans ?_; (intro _ _; try dsimp only)))
theorem evictNote_kept : ∀ x0 x1 s, (evictNote x0 x1 s).kept = s.kept := by
  intro x0 x1 s
  unfold evictNote
  (try dsimp only)
  repeat' (first | with_reducible rfl | simp only [kept_upd, kept_ite, dirFix_kept, dirMeet_kept, evictComp_kept, evictUp_kept, dirDrop_kept, stale_kept] | split | (refine (foldl_kept _ _ _ ?_).trans ?_; (intro _ _; try dsimp only)))
theorem stashDecline_kept : ∀ x0 x1 s, (stashDecline x0 x1 s).kept = s.kept := by
  intro x0 x1 s
  unfold stashDecline
  (try dsimp only)
  repeat' (first | with_reducible rfl | simp only [kept_upd, kept_ite, stashOver_kept, kick_kept] | split | (refine (foldl_kept _ _ _ ?_).trans ?_; (intro _ _; try dsimp only)))
theorem stashAccept_kept : ∀ x0 x1 s, (stashAccept x0 x1 s).kept = s.kept := by
  intro x0 x1 s
  unfold stashAccept
  (try dsimp only)
  repeat' (first | with_reducible rfl | simp only [kept_upd, kept_ite, stashOver_kept, updTxn_kept, txMsg_kept, txData_kept, setDir_kept, kick_kept] | split | (refine (foldl_kept _ _ _ ?_).trans ?_; (intro _ _; try dsimp only)))
theorem silentWr_kept : ∀ x0 x1 s, (silentWr x0 x1 s).1.kept = s.kept := by
  intro x0 x1 s
  unfold silentWr
  (try dsimp only)
  repeat' (first | with_reducible rfl | simp only [kept_upd, kept_ite] | split | (refine (foldl_kept _ _ _ ?_).trans ?_; (intro _ _; try dsimp only)))
theorem dropSilent_kept : ∀ x0 x1 s, (dropSilent x0 x1 s).kept = s.kept := by
  intro x0 x1 s
  unfold dropSilent
  (try dsimp only)
  repeat' (first | with_reducible rfl | simp only [kept_upd, kept_ite, State.updPort_kept, fencesEnd_kept] | split | (refine (foldl_kept _ _ _ ?_).trans ?_; (intro _ _; try dsimp only)))
theorem landed_kept : ∀ x0 x1 x2 x3 x4 x5 x6 x7 s, (landed x0 x1 x2 x3 x4 x5 x6 x7 s).1.kept = s.kept := by
  intro x0 x1 x2 x3 x4 x5 x6 x7 s
  unfold landed
  (try dsimp only)
  repeat' (first | with_reducible rfl | simp only [kept_upd, kept_ite, absorb_kept, silentWr_kept, wrLose_kept, State.updSlice_kept, wrPoint_kept] | split | (refine (foldl_kept _ _ _ ?_).trans ?_; (intro _ _; try dsimp only)))
theorem dataUnder_kept : ∀ x0 x1 x2 x3 x4 x5 s, (dataUnder x0 x1 x2 x3 x4 x5 s).kept = s.kept := by
  intro x0 x1 x2 x3 x4 x5 s
  unfold dataUnder
  (try dsimp only)
  repeat' (first | with_reducible rfl | simp only [kept_upd, kept_ite, landed_kept, silentWr_kept, updWb_kept, wrPoint_kept] | split | (refine (foldl_kept _ _ _ ?_).trans ?_; (intro _ _; try dsimp only)))
theorem dataIn_kept : ∀ x0 x1 x2 x3 s, (dataIn x0 x1 x2 x3 s).kept = s.kept := by
  intro x0 x1 x2 x3 s
  unfold dataIn
  (try dsimp only)
  repeat' (first | with_reducible rfl | simp only [kept_upd, kept_ite, landed_kept, run_kept, updTxn_kept, dataUnder_kept, State.updSlice_kept] | split | (refine (foldl_kept _ _ _ ?_).trans ?_; (intro _ _; try dsimp only)))
theorem snpToHub_kept : ∀ x0 x1 x2 x3 x4 x5 s, (snpToHub x0 x1 x2 x3 x4 x5 s).kept = s.kept := by
  intro x0 x1 x2 x3 x4 x5 s
  unfold snpToHub
  (try dsimp only)
  repeat' (first | with_reducible rfl | simp only [kept_upd, kept_ite, snoopIn_kept, dataIn_kept, dirShare_kept, poisonIn_kept, State.updSlice_kept, dirDrop_kept, stale_kept] | split | (refine (foldl_kept _ _ _ ?_).trans ?_; (intro _ _; try dsimp only)))
theorem snpRouted_kept : ∀ x0 x1 x2 x3 x4 s, (snpRouted x0 x1 x2 x3 x4 s).kept = s.kept := by
  intro x0 x1 x2 x3 x4 s
  unfold snpRouted
  (try dsimp only)
  repeat' (first | with_reducible rfl | simp only [kept_upd, kept_ite, snoopIn_kept, readBytes_kept, poisonLine_kept, updTxn_kept, poisonIn_kept, dirDrop_kept, tx_kept] | split | (refine (foldl_kept _ _ _ ?_).trans ?_; (intro _ _; try dsimp only)))
theorem snpData_kept : ∀ x0 x1 x2 s, (snpData x0 x1 x2 s).kept = s.kept := by
  intro x0 x1 x2 s
  unfold snpData
  (try dsimp only)
  repeat' (first | with_reducible rfl | simp only [kept_upd, kept_ite, snpToHub_kept, badAnswer_kept, snpRouted_kept] | split | (refine (foldl_kept _ _ _ ?_).trans ?_; (intro _ _; try dsimp only)))
theorem wbUnresolved_kept : ∀ x0 x1 x2 x3 s, (wbUnresolved x0 x1 x2 x3 s).kept = s.kept := by
  intro x0 x1 x2 x3 s
  unfold wbUnresolved
  (try dsimp only)
  repeat' (first | with_reducible rfl | simp only [kept_upd, kept_ite, dataIn_kept, evictComp_kept, poisonIn_kept, State.updSlice_kept, upPut_kept] | split | (refine (foldl_kept _ _ _ ?_).trans ?_; (intro _ _; try dsimp only)))
theorem wbData_kept : ∀ x0 x1 x2 s, (wbData x0 x1 x2 s).kept = s.kept := by
  intro x0 x1 x2 s
  unfold wbData
  (try dsimp only)
  repeat' (first | with_reducible rfl | simp only [kept_upd, kept_ite, dataIn_kept, dirFix_kept, wbUnresolved_kept, dirMeet_kept, evictComp_kept, dropSilent_kept, evictUp_kept, State.updPort_kept, poisonIn_kept, dirDrop_kept, stale_kept] | split | (refine (foldl_kept _ _ _ ?_).trans ?_; (intro _ _; try dsimp only)))
theorem evictOffer_kept : ∀ x0 x1 x2 s, (evictOffer x0 x1 x2 s).kept = s.kept := by
  intro x0 x1 x2 s
  unfold evictOffer
  (try dsimp only)
  repeat' (first | with_reducible rfl | simp only [kept_upd, kept_ite, dirFix_kept, dirMeet_kept, run_kept, evictComp_kept, evictUp_kept, poisonIn_kept, State.updSlice_kept, askVictim_kept, State.draw_kept, dirDrop_kept, stale_kept] | split | (refine (foldl_kept _ _ _ ?_).trans ?_; (intro _ _; try dsimp only)))
theorem writeBytes_kept : ∀ x0 x1 s, (writeBytes x0 x1 s).kept = s.kept := by
  intro x0 x1 s
  unfold writeBytes
  (try dsimp only)
  repeat' (first | with_reducible rfl | simp only [kept_upd, kept_ite] | split | (refine (foldl_kept _ _ _ ?_).trans ?_; (intro _ _; try dsimp only)))
theorem wrData_kept : ∀ x0 x1 x2 x3 s, (wrData x0 x1 x2 x3 s).kept = s.kept := by
  intro x0 x1 x2 x3 s
  unfold wrData
  (try dsimp only)
  repeat' (first | with_reducible rfl | simp only [kept_upd, kept_ite, updWr_kept, run_kept, updWb_kept, writeBytes_kept, updTxn_kept, State.updPort_kept, poisonIn_kept, badAnswer_kept] | split | (refine (foldl_kept _ _ _ ?_).trans ?_; (intro _ _; try dsimp only)))
theorem applyAnswer_kept : ∀ x0 x1 x2 x3 s, (applyAnswer x0 x1 x2 x3 s).kept = s.kept := by
  intro x0 x1 x2 x3 s
  unfold applyAnswer
  simp only [kept_ite, compAck_kept, rspI_kept, rspS_kept, rspFwd_kept, evictNote_kept, stashDecline_kept, stashAccept_kept, snpData_kept, wbData_kept,
    evictOffer_kept, wrData_kept, badAnswer_kept, capAns_kept, ite_self]
theorem arriveBytes_kept : ∀ x0 s, (arriveBytes x0 s).kept = s.kept := by
  intro x0 s
  unfold arriveBytes
  (try dsimp only)
  repeat' (first | with_reducible rfl | simp only [kept_upd, kept_ite] | split | (refine (foldl_kept _ _ _ ?_).trans ?_; (intro _ _; try dsimp only)))
theorem flushTook_kept : ∀ x0 x1 s, (flushTook x0 x1 s).kept = s.kept := by
  intro x0 x1 s
  unfold flushTook
  (try dsimp only)
  repeat' (first | with_reducible rfl | simp only [kept_upd, kept_ite] | split | (refine (foldl_kept _ _ _ ?_).trans ?_; (intro _ _; try dsimp only)))
theorem upLose_kept : ∀ x0 s, (upLose x0 s).kept = s.kept := by
  intro x0 s
  unfold upLose
  (try dsimp only)
  repeat' (first | with_reducible rfl | simp only [kept_upd, kept_ite, sendComp_kept, wrLose_kept] | split | (refine (foldl_kept _ _ _ ?_).trans ?_; (intro _ _; try dsimp only)))
theorem upAbort_kept : ∀ x0 x1 s, (upAbort x0 x1 s).kept = s.kept := by
  intro x0 x1 s
  unfold upAbort
  (try dsimp only)
  repeat' (first | with_reducible rfl | simp only [kept_upd, kept_ite, upLose_kept, closeTxn_kept, wbFree_kept, kick_kept, freeTag_kept, frozenAbort_kept] | split | (refine (foldl_kept _ _ _ ?_).trans ?_; (intro _ _; try dsimp only)))
theorem upFence_kept : ∀ x0 x1 x2 s, (upFence x0 x1 x2 s).kept = s.kept := by
  intro x0 x1 x2 s
  unfold upFence
  (try dsimp only)
  repeat' (first | with_reducible rfl | simp only [kept_upd, kept_ite, State.updPort_kept, fencesEnd_kept] | split | (refine (foldl_kept _ _ _ ?_).trans ?_; (intro _ _; try dsimp only)))
theorem upFrozen_kept : ∀ x0 x1 s, (upFrozen x0 x1 s).kept = s.kept := by
  intro x0 x1 s
  unfold upFrozen
  (try dsimp only)
  repeat' (first | with_reducible rfl | simp only [kept_upd, kept_ite, upFence_kept, upAbort_kept] | split | (refine (foldl_kept _ _ _ ?_).trans ?_; (intro _ _; try dsimp only)))
theorem upGranted_kept : ∀ x0 x1 s, (upGranted x0 x1 s).kept = s.kept := by
  intro x0 x1 s
  unfold upGranted
  (try dsimp only)
  repeat' (first | with_reducible rfl | simp only [kept_upd, kept_ite, setDir_kept] | split | (refine (foldl_kept _ _ _ ?_).trans ?_; (intro _ _; try dsimp only)))
theorem upResume_kept : ∀ x0 x1 s, (upResume x0 x1 s).kept = s.kept := by
  intro x0 x1 s
  unfold upResume
  (try dsimp only)
  repeat' (first | with_reducible rfl | simp only [kept_upd, kept_ite, run_kept, updTxn_kept] | split | (refine (foldl_kept _ _ _ ?_).trans ?_; (intro _ _; try dsimp only)))
theorem upData_kept : ∀ x0 x1 x2 s, (upData x0 x1 x2 s).kept = s.kept := by
  intro x0 x1 x2 s
  unfold upData
  (try dsimp only)
  repeat' (first | with_reducible rfl | simp only [kept_upd, kept_ite, upGranted_kept, upResume_kept, updTxn_kept, evictUp_kept, devReadDone_kept, tx_kept] | split | (refine (foldl_kept _ _ _ ?_).trans ?_; (intro _ _; try dsimp only)))
theorem upWrote_kept : ∀ x0 x1 x2 s, (upWrote x0 x1 x2 s).kept = s.kept := by
  intro x0 x1 x2 s
  unfold upWrote
  (try dsimp only)
  repeat' (first | with_reducible rfl | simp only [kept_upd, kept_ite, upLose_kept, afterWrite_kept, wbFree_kept, wrPoint_kept, wrVisible_kept, kick_kept] | split | (refine (foldl_kept _ _ _ ?_).trans ?_; (intro _ _; try dsimp only)))
theorem upComp_kept : ∀ x0 x1 s, (upComp x0 x1 s).kept = s.kept := by
  intro x0 x1 s
  unfold upComp
  (try dsimp only)
  repeat' (first | with_reducible rfl | simp only [kept_upd, kept_ite, kickAll_kept, upGranted_kept, upResume_kept, updTxn_kept, upWrote_kept, State.updPort_kept, tx_kept] | split | (refine (foldl_kept _ _ _ ?_).trans ?_; (intro _ _; try dsimp only)))
theorem upPull_kept : ∀ x0 x1 s, (upPull x0 x1 s).kept = s.kept := by
  intro x0 x1 s
  unfold upPull
  (try dsimp only)
  repeat' (first | with_reducible rfl | simp only [kept_upd, kept_ite, txMask_kept] | split | (refine (foldl_kept _ _ _ ?_).trans ?_; (intro _ _; try dsimp only)))
theorem hubApply_kept : ∀ x0 x1 x2 s, (hubApply x0 x1 x2 s).kept = s.kept := by
  intro x0 x1 x2 s
  unfold hubApply
  (try dsimp only)
  repeat' (first | with_reducible rfl | simp only [kept_upd, kept_ite, upComp_kept, upFrozen_kept, upData_kept, upFence_kept, upPull_kept] | split | (refine (foldl_kept _ _ _ ?_).trans ?_; (intro _ _; try dsimp only)))
theorem applyHeld_kept : ∀ x0 x1 s, (applyHeld x0 x1 s).kept = s.kept := by
  intro x0 x1 s
  unfold applyHeld
  (try dsimp only)
  repeat' (first | with_reducible rfl | simp only [kept_upd, kept_ite, capMsg_kept, applyAnswer_kept, hubApply_kept] | split | (refine (foldl_kept _ _ _ ?_).trans ?_; (intro _ _; try dsimp only)))
theorem holdDat_kept : ∀ x0 x1 x2 x3 s, (holdDat x0 x1 x2 x3 s).kept = s.kept := by
  intro x0 x1 x2 x3 s
  unfold holdDat
  (try dsimp only)
  repeat' (first | with_reducible rfl | simp only [kept_upd, kept_ite, State.updPort_kept] | split | (refine (foldl_kept _ _ _ ?_).trans ?_; (intro _ _; try dsimp only)))
theorem datNext_kept : ∀ x0 x1 s, (datNext x0 x1 s).kept = s.kept := by
  intro x0
  induction x0 with
  | zero => intros; rfl
  | succ n ih =>
    intro x1 s
    unfold datNext
    (try dsimp only)
    repeat' (first | with_reducible rfl | simp only [kept_upd, kept_ite, ih, applyHeld_kept, credit_kept, State.updPort_kept, flushTook_kept] | split)
theorem datAll_kept : ∀ s, (datAll s).kept = s.kept := by
  intro s
  unfold datAll
  (try dsimp only)
  repeat' (first | with_reducible rfl | simp only [kept_upd, kept_ite, datNext_kept] | split | (refine (foldl_kept _ _ _ ?_).trans ?_; (intro _ _; try dsimp only)))
theorem answerArrive_kept : ∀ x0 x1 x2 x3 s, (answerArrive x0 x1 x2 x3 s).kept = s.kept := by
  intro x0 x1 x2 x3 s
  unfold answerArrive
  (try dsimp only)
  repeat' (first | with_reducible rfl | simp only [kept_upd, kept_ite, spend_kept, silentWr_kept, applyAnswer_kept, credit_kept, arriveBytes_kept, monPort_kept, badAnswer_kept, holdDat_kept] | split | (refine (foldl_kept _ _ _ ?_).trans ?_; (intro _ _; try dsimp only)))
theorem ownNow_kept : ∀ x0 x1 x2 s, (ownNow x0 x1 x2 s).kept = s.kept := by
  intro x0 x1 x2 s
  unfold ownNow
  (try dsimp only)
  repeat' (first | with_reducible rfl | simp only [kept_upd, kept_ite, endRead_kept, entFreed_kept, updTxn_kept] | split | (refine (foldl_kept _ _ _ ?_).trans ?_; (intro _ _; try dsimp only)))
theorem endPull_kept : ∀ x0 x1 s, (endPull x0 x1 s).kept = s.kept := by
  intro x0 x1 s
  unfold endPull
  (try dsimp only)
  repeat' (first | with_reducible rfl | simp only [kept_upd, kept_ite, wrLose_kept, run_kept, updWb_kept, closeCombine_kept, wbFree_kept, ownNow_kept, kick_kept] | split | (refine (foldl_kept _ _ _ ?_).trans ?_; (intro _ _; try dsimp only)))
theorem loseTxn_kept : ∀ x0 x1 x2 s, (loseTxn x0 x1 x2 s).kept = s.kept := by
  intro x0 x1 x2 s
  unfold loseTxn
  (try dsimp only)
  repeat' (first | with_reducible rfl | simp only [kept_upd, kept_ite, grantStands_kept, dirFix_kept, entFreed_kept, run_kept, closeTxn_kept, updTxn_kept, endPull_kept, State.updSlice_kept, ownNow_kept, kick_kept] | split | (refine (foldl_kept _ _ _ ?_).trans ?_; (intro _ _; try dsimp only)))
theorem loseSnoop_kept : ∀ x0 x1 x2 s, (loseSnoop x0 x1 x2 s).kept = s.kept := by
  intro x0 x1 x2 s
  unfold loseSnoop
  (try dsimp only)
  repeat' (first | with_reducible rfl | simp only [kept_upd, kept_ite, snoopIn_kept, dirFix_kept, updTxn_kept] | split | (refine (foldl_kept _ _ _ ?_).trans ?_; (intro _ _; try dsimp only)))
theorem declareLost_kept : ∀ x0 s, (declareLost x0 s).kept = s.kept := by
  intro x0 s
  unfold declareLost
  (try dsimp only)
  repeat' (first | with_reducible rfl | simp only [kept_upd, kept_ite, recompute_kept, loseTxn_kept, dirFix_kept, wrLose_kept, dirWalks_kept, run_kept, closeTxn_kept, updTxn_kept, applyHeld_kept, stashEnds_kept, State.updPort_kept, State.updSlice_kept, loseSnoop_kept, setDir_kept, kick_kept, entPass_kept, tearAll_kept] | split | (refine (foldl_kept _ _ _ ?_).trans ?_; (intro _ _; try dsimp only)))
theorem loseAgent_kept : ∀ x0 s, (loseAgent x0 s).kept = s.kept := by
  intro x0 s
  unfold loseAgent
  (try dsimp only)
  repeat' (first | with_reducible rfl | simp only [kept_upd, kept_ite, declareLost_kept, State.updPort_kept] | split | (refine (foldl_kept _ _ _ ?_).trans ?_; (intro _ _; try dsimp only)))
theorem fenceUp_kept : ∀ x0 x1 x2 s, (fenceUp x0 x1 x2 s).kept = s.kept := by
  intro x0 x1 x2 s
  unfold fenceUp
  (try dsimp only)
  repeat' (first | with_reducible rfl | simp only [kept_upd, kept_ite, State.updPort_kept, tx_kept] | split | (refine (foldl_kept _ _ _ ?_).trans ?_; (intro _ _; try dsimp only)))
theorem fencesUp_kept : ∀ s, (fencesUp s).kept = s.kept := by
  intro s
  unfold fencesUp
  (try dsimp only)
  repeat' (first | with_reducible rfl | simp only [kept_upd, kept_ite, fenceUp_kept, fencesEnd_kept] | split | (refine (foldl_kept _ _ _ ?_).trans ?_; (intro _ _; try dsimp only)))
theorem homeSnoop_kept : ∀ x0 x1 s, (homeSnoop x0 x1 s).kept = s.kept := by
  intro x0 x1 s
  unfold homeSnoop
  (try dsimp only)
  repeat' (first | with_reducible rfl | simp only [kept_upd, kept_ite, capTouch_kept, capMsg_kept, dirMeet_kept, run_kept, State.updSlice_kept] | split | (refine (foldl_kept _ _ _ ?_).trans ?_; (intro _ _; try dsimp only)))
theorem snoopArrive_kept : ∀ x0 x1 s, (snoopArrive x0 x1 s).kept = s.kept := by
  intro x0 x1 s
  unfold snoopArrive
  (try dsimp only)
  repeat' (first | with_reducible rfl | simp only [kept_upd, kept_ite, spend_kept, credit_kept, homeSnoop_kept, badAnswer_kept, tx_kept] | split | (refine (foldl_kept _ _ _ ?_).trans ?_; (intro _ _; try dsimp only)))
theorem hubArrive_kept : ∀ x0 x1 x2 s, (hubArrive x0 x1 x2 s).kept = s.kept := by
  intro x0 x1 x2 s
  unfold hubArrive
  (try dsimp only)
  repeat' (first | with_reducible rfl | simp only [kept_upd, kept_ite, spend_kept, capMsg_kept, credit_kept, hubApply_kept, monPort_kept, badAnswer_kept, holdDat_kept] | split | (refine (foldl_kept _ _ _ ?_).trans ?_; (intro _ _; try dsimp only)))
theorem upRecall_kept : ∀ x0 s, (upRecall x0 s).kept = s.kept := by
  intro x0 s
  unfold upRecall
  (try dsimp only)
  repeat' (first | with_reducible rfl | simp only [kept_upd, kept_ite, run_kept, State.updSlice_kept] | split | (refine (foldl_kept _ _ _ ?_).trans ?_; (intro _ _; try dsimp only)))
theorem upGo_kept : ∀ x0 x1 s, (upGo x0 x1 s).kept = s.kept := by
  intro x0 x1 s
  unfold upGo
  (try dsimp only)
  repeat' (first | with_reducible rfl | simp only [kept_upd, kept_ite, upRecall_kept, State.updPort_kept, setDir_kept, dropWay_kept, tx_kept] | split | (refine (foldl_kept _ _ _ ?_).trans ?_; (intro _ _; try dsimp only)))
theorem upsGo_kept : ∀ s, (upsGo s).kept = s.kept := by
  intro s
  unfold upsGo
  (try dsimp only)
  repeat' (first | with_reducible rfl | simp only [kept_upd, kept_ite, upGo_kept] | split | (refine (foldl_kept _ _ _ ?_).trans ?_; (intro _ _; try dsimp only)))
theorem homeKick_kept : ∀ s, (homeKick s).kept = s.kept := by
  intro s
  unfold homeKick
  (try dsimp only)
  repeat' (first | with_reducible rfl | simp only [kept_upd, kept_ite, run_kept, upsGo_kept] | split | (refine (foldl_kept _ _ _ ?_).trans ?_; (intro _ _; try dsimp only)))
theorem upLost_kept : ∀ s, (upLost s).kept = s.kept := by
  intro s
  unfold upLost
  (try dsimp only)
  repeat' (first | with_reducible rfl | simp only [kept_upd, kept_ite, State.updPort_kept, fencesEnd_kept, upAbort_kept] | split | (refine (foldl_kept _ _ _ ?_).trans ?_; (intro _ _; try dsimp only)))
theorem message_kept : ∀ x0 x1 x2 x3 s, (message x0 x1 x2 x3 s).kept = s.kept := by
  intro x0 x1 x2 x3 s
  unfold message
  (try dsimp only)
  repeat' (first | with_reducible rfl | simp only [kept_upd, kept_ite, answerArrive_kept, reqArrive_kept, hubArrive_kept, snoopArrive_kept, badAnswer_kept] | split | (refine (foldl_kept _ _ _ ?_).trans ?_; (intro _ _; try dsimp only)))
theorem endDelete_kept : ∀ s x0, (endDelete s x0).kept = s.kept := by
  intro s x0
  unfold endDelete
  (try dsimp only)
  repeat' (first | with_reducible rfl | simp only [kept_upd, kept_ite, finish_kept, State.updQp_kept] | split | (refine (foldl_kept _ _ _ ?_).trans ?_; (intro _ _; try dsimp only)))
theorem endDeletes_kept : ∀ s, (endDeletes s).kept = s.kept := by
  intro s
  unfold endDeletes
  (try dsimp only)
  repeat' (first | with_reducible rfl | simp only [kept_upd, kept_ite, endDelete_kept] | split | (refine (foldl_kept _ _ _ ?_).trans ?_; (intro _ _; try dsimp only)))
theorem startDelete_kept : ∀ x0 s, (startDelete x0 s).kept = s.kept := by
  intro x0 s
  unfold startDelete
  (try dsimp only)
  repeat' (first | with_reducible rfl | simp only [kept_upd, kept_ite, State.updQp_kept] | split | (refine (foldl_kept _ _ _ ?_).trans ?_; (intro _ _; try dsimp only)))
theorem badDoorbell_kept : ∀ x0 x1 s, (badDoorbell x0 x1 s).kept = s.kept := by
  intro x0 x1 s
  unfold badDoorbell
  (try dsimp only)
  repeat' (first | with_reducible rfl | simp only [kept_upd, kept_ite, postEvent_kept] | split | (refine (foldl_kept _ _ _ ?_).trans ?_; (intro _ _; try dsimp only)))
theorem sqDoorbell_kept : ∀ x0 x1 s, (sqDoorbell x0 x1 s).kept = s.kept := by
  intro x0 x1 s
  unfold sqDoorbell
  (try dsimp only)
  repeat' (first | with_reducible rfl | simp only [kept_upd, kept_ite, State.updQp_kept, badDoorbell_kept] | split | (refine (foldl_kept _ _ _ ?_).trans ?_; (intro _ _; try dsimp only)))
theorem cqDoorbell_kept : ∀ x0 x1 s, (cqDoorbell x0 x1 s).kept = s.kept := by
  intro x0 x1 s
  unfold cqDoorbell
  (try dsimp only)
  repeat' (first | with_reducible rfl | simp only [kept_upd, kept_ite, sendMsix_kept, State.updQp_kept, badDoorbell_kept] | split | (refine (foldl_kept _ _ _ ?_).trans ?_; (intro _ _; try dsimp only)))
theorem eqDoorbell_kept : ∀ x0 s, (eqDoorbell x0 s).kept = s.kept := by
  intro x0 s
  unfold eqDoorbell
  (try dsimp only)
  repeat' (first | with_reducible rfl | simp only [kept_upd, kept_ite, sendMsix_kept, badDoorbell_kept] | split | (refine (foldl_kept _ _ _ ?_).trans ?_; (intro _ _; try dsimp only)))
theorem qp0On_kept : ∀ s, (qp0On s).kept = s.kept := by
  intro s
  unfold qp0On
  (try dsimp only)
  repeat' (first | with_reducible rfl | simp only [kept_upd, kept_ite, postEvent_kept, State.updQp_kept] | split | (refine (foldl_kept _ _ _ ?_).trans ?_; (intro _ _; try dsimp only)))
theorem qp0Off_kept : ∀ s, (qp0Off s).kept = s.kept := by
  intro s
  unfold qp0Off
  (try dsimp only)
  repeat' (first | with_reducible rfl | simp only [kept_upd, kept_ite, startDelete_kept, endDelete_kept] | split | (refine (foldl_kept _ _ _ ?_).trans ?_; (intro _ _; try dsimp only)))
theorem flushHeld_kept : ∀ s, (flushHeld s).kept = s.kept := by
  intro s
  unfold flushHeld
  (try dsimp only)
  repeat' (first | with_reducible rfl | simp only [kept_upd, kept_ite, sendMsix_kept] | split | (refine (foldl_kept _ _ _ ?_).trans ?_; (intro _ _; try dsimp only)))
theorem sendPending_kept : ∀ s, (sendPending s).kept = s.kept := by
  intro s
  unfold sendPending
  (try dsimp only)
  repeat' (first | with_reducible rfl | simp only [kept_upd, kept_ite, sendMsix_kept] | split | (refine (foldl_kept _ _ _ ?_).trans ?_; (intro _ _; try dsimp only)))
theorem tableWord_kept : ∀ x0 x1 s, (tableWord x0 x1 s).kept = s.kept := by
  intro x0 x1 s
  unfold tableWord
  (try dsimp only)
  repeat' (first | with_reducible rfl | simp only [kept_upd, kept_ite, sendPending_kept] | split | (refine (foldl_kept _ _ _ ?_).trans ?_; (intro _ _; try dsimp only)))
theorem bar2Write_kept : ∀ x0 x1 x2 s, (bar2Write x0 x1 x2 s).kept = s.kept := by
  intro x0 x1 x2 s
  unfold bar2Write
  (try dsimp only)
  repeat' (first | with_reducible rfl | simp only [kept_upd, kept_ite, tableWord_kept] | split | (refine (foldl_kept _ _ _ ?_).trans ?_; (intro _ _; try dsimp only)))
theorem bar2Read_kept : ∀ x0 x1 s, (bar2Read x0 x1 s).kept = s.kept := by
  intro x0 x1 s
  unfold bar2Read
  (try dsimp only)
  repeat' (first | with_reducible rfl | simp only [kept_upd, kept_ite, State.put_kept] | split | (refine (foldl_kept _ _ _ ?_).trans ?_; (intro _ _; try dsimp only)))
theorem cfgWrite_kept : ∀ x0 x1 s, (cfgWrite x0 x1 s).kept.base = s.kept.base := by
  intro x0 x1 s
  unfold cfgWrite
  (try dsimp only)
  repeat' (first | with_reducible rfl | simp only [kept_upd, base_upd, base_ite, resetControl_kept, kept_ite, resetControl_kept, sendPending_kept] | split | (refine (foldl_kept_base _ _ _ ?_).trans ?_; (intro _ _; try dsimp only)))
theorem rwWrite_kept : ∀ x0 x1 s, (rwWrite x0 x1 s).kept.base = s.kept.base := by
  intro x0 x1 s
  unfold rwWrite
  (try dsimp only)
  repeat' (first | with_reducible rfl | simp only [kept_upd, base_upd, base_ite, kept_ite, ite_self, capCtrl_kept, qp0On_kept, judgeFifo_kept, qp0Off_kept, setLevel_kept] | split | (refine (foldl_kept_base _ _ _ ?_).trans ?_; (intro _ _; try dsimp only)))
theorem primaryWrite_kept : ∀ x0 x1 s, (primaryWrite x0 x1 s).kept.base = s.kept.base := by
  intro x0 x1 s
  unfold primaryWrite
  (try dsimp only)
  repeat' (first | with_reducible rfl | simp only [kept_upd, base_upd, base_ite, kept_ite, rwWrite_kept, lockViolation_kept] | split | (refine (foldl_kept_base _ _ _ ?_).trans ?_; (intro _ _; try dsimp only)))
theorem aliasWrite_kept : ∀ x0 x1 x2 s, (aliasWrite x0 x1 x2 s).kept.base = s.kept.base := by
  intro x0 x1 x2 s
  unfold aliasWrite
  (try dsimp only)
  repeat' (first | with_reducible rfl | simp only [kept_upd, base_upd, base_ite, kept_ite, rwWrite_kept, lockViolation_kept] | split | (refine (foldl_kept_base _ _ _ ?_).trans ?_; (intro _ _; try dsimp only)))
theorem guardedSet_kept : ∀ x0 x1 s, (guardedSet x0 x1 s).kept.base = s.kept.base := by
  intro x0 x1 s
  unfold guardedSet
  (try dsimp only)
  repeat' (first | with_reducible rfl | simp only [kept_upd, base_upd, base_ite, kept_ite, capCtrl_kept, lockViolation_kept] | split | (refine (foldl_kept_base _ _ _ ?_).trans ?_; (intro _ _; try dsimp only)))
theorem dropPending_kept : ∀ s, (dropPending s).kept = s.kept := by
  intro s
  unfold dropPending
  (try dsimp only)
  repeat' (first | with_reducible rfl | simp only [kept_upd, kept_ite, guardFailed_kept] | split | (refine (foldl_kept _ _ _ ?_).trans ?_; (intro _ _; try dsimp only)))
theorem guardPrimary_kept : ∀ x0 x1 x2 s, (guardPrimary x0 x1 x2 s).kept = s.kept := by
  intro x0 x1 x2 s
  unfold guardPrimary
  (try dsimp only)
  repeat' (first | with_reducible rfl | simp only [kept_upd, kept_ite, badAccess_kept, dropPending_kept] | split | (refine (foldl_kept _ _ _ ?_).trans ?_; (intro _ _; try dsimp only)))
theorem guardPartner_kept : ∀ x0 x1 x2 s, (guardPartner x0 x1 x2 s).kept.base = s.kept.base := by
  intro x0 x1 x2 s
  unfold guardPartner
  (try dsimp only)
  repeat' (first | with_reducible rfl | simp only [kept_upd, base_upd, base_ite, kept_ite, guardedSet_kept, guardFailed_kept, badAccess_kept] | split | (refine (foldl_kept_base _ _ _ ?_).trans ?_; (intro _ _; try dsimp only)))
theorem aliasAccess_kept : ∀ x0 x1 x2 x3 s, (aliasAccess x0 x1 x2 x3 s).kept.base = s.kept.base := by
  intro x0 x1 x2 x3 s
  unfold aliasAccess
  (try dsimp only)
  repeat' (first | with_reducible rfl | simp only [kept_upd, base_upd, base_ite, kept_ite, aliasWrite_kept, badAccess_kept] | split | (refine (foldl_kept_base _ _ _ ?_).trans ?_; (intro _ _; try dsimp only)))
theorem ctrSet_kept : ∀ x0 s x2, (ctrSet x0 s x2).kept = s.kept := by
  intro x0 s x2
  unfold ctrSet
  (try dsimp only)
  repeat' (first | with_reducible rfl | simp only [kept_upd, kept_ite] | split | (refine (foldl_kept _ _ _ ?_).trans ?_; (intro _ _; try dsimp only)))
theorem counterWr_kept : ∀ x0 x1 x2 s, (counterWr x0 x1 x2 s).kept = s.kept := by
  intro x0 x1 x2 s
  unfold counterWr
  (try dsimp only)
  repeat' (first | with_reducible rfl | simp only [kept_upd, kept_ite, badAccess_kept, ctrSet_kept] | split | (refine (foldl_kept _ _ _ ?_).trans ?_; (intro _ _; try dsimp only)))
theorem counterRd_kept : ∀ x0 x1 s, (counterRd x0 x1 s).kept = s.kept := by
  intro x0 x1 s
  unfold counterRd
  (try dsimp only)
  repeat' (first | with_reducible rfl | simp only [kept_upd, kept_ite, badAccess_kept, State.put_kept] | split | (refine (foldl_kept _ _ _ ?_).trans ?_; (intro _ _; try dsimp only)))
theorem hmfPush_kept : ∀ x0 s, (hmfPush x0 s).kept = s.kept := by
  intro x0 s
  unfold hmfPush
  (try dsimp only)
  repeat' (first | with_reducible rfl | simp only [kept_upd, kept_ite, overrunFifo_kept, judgeFifo_kept] | split | (refine (foldl_kept _ _ _ ?_).trans ?_; (intro _ _; try dsimp only)))
theorem evfRead_kept : ∀ x0 s, (evfRead x0 s).kept = s.kept := by
  intro x0 s
  unfold evfRead
  (try dsimp only)
  repeat' (first | with_reducible rfl | simp only [kept_upd, kept_ite, judgeFifo_kept, logErr_kept, State.put_kept] | split | (refine (foldl_kept _ _ _ ?_).trans ?_; (intro _ _; try dsimp only)))
theorem fifoClear_kept : ∀ x0 s, (fifoClear x0 s).kept = s.kept := by
  intro x0 s
  unfold fifoClear
  (try dsimp only)
  repeat' (first | with_reducible rfl | simp only [kept_upd, kept_ite, State.setFifo_kept] | split | (refine (foldl_kept _ _ _ ?_).trans ?_; (intro _ _; try dsimp only)))
theorem barWrite_kept : ∀ x0 x1 x2 s, (barWrite x0 x1 x2 s).kept.base = s.kept.base := by
  intro x0 x1 x2 s
  unfold barWrite
  (try dsimp only)
  repeat' (first | with_reducible rfl | simp only [kept_upd, base_upd, base_ite, kept_ite, cqDoorbell_kept, eqDoorbell_kept, hmfPush_kept, sqDoorbell_kept, guardPartner_kept, aliasAccess_kept, primaryWrite_kept, counterWr_kept, guardPrimary_kept, badAccess_kept] | split | (refine (foldl_kept_base _ _ _ ?_).trans ?_; (intro _ _; try dsimp only)))
theorem drainFlush_kept : ∀ s, (drainFlush s).kept = s.kept := by
  intro s
  unfold drainFlush
  (try dsimp only)
  repeat' (first | with_reducible rfl | simp only [kept_upd, kept_ite] | split | (refine (foldl_kept _ _ _ ?_).trans ?_; (intro _ _; try dsimp only)))
theorem drainRecords_kept : ∀ s, (drainRecords s).kept = s.kept := by
  intro s
  unfold drainRecords
  (try dsimp only)
  repeat' (first | with_reducible rfl | simp only [kept_upd, kept_ite] | split | (refine (foldl_kept _ _ _ ?_).trans ?_; (intro _ _; try dsimp only)))
theorem drainExtra_kept : ∀ s, (drainExtra s).kept = s.kept := by
  intro s
  unfold drainExtra
  (try dsimp only)
  repeat' (first | with_reducible rfl | simp only [kept_upd, kept_ite] | split | (refine (foldl_kept _ _ _ ?_).trans ?_; (intro _ _; try dsimp only)))
theorem warmGo_kept : ∀ s, (warmGo s).kept = s.kept := by
  intro s
  unfold warmGo
  (try dsimp only)
  repeat' (first | with_reducible rfl | simp only [kept_upd, kept_ite, walkStart_kept] | split | (refine (foldl_kept _ _ _ ?_).trans ?_; (intro _ _; try dsimp only)))
theorem drainGo_kept : ∀ s, (drainGo s).kept = s.kept := by
  intro s
  unfold drainGo
  (try dsimp only)
  repeat' (first | with_reducible rfl | simp only [kept_upd, kept_ite, drainExtra_kept, drainFlush_kept, walkEnds_kept, drainRecords_kept, warmGo_kept] | split | (refine (foldl_kept _ _ _ ?_).trans ?_; (intro _ _; try dsimp only)))
theorem wbNext_kept : ∀ x0 x1 s, (wbNext x0 x1 s).kept = s.kept := by
  intro x0
  induction x0 with
  | zero => intros; rfl
  | succ n ih =>
    intro x1 s
    unfold wbNext
    (try dsimp only)
    repeat' (first | with_reducible rfl | simp only [kept_upd, kept_ite, ih, run_kept, State.updSlice_kept] | split)
theorem wbAll_kept : ∀ s, (wbAll s).kept = s.kept := by
  intro s
  unfold wbAll
  (try dsimp only)
  repeat' (first | with_reducible rfl | simp only [kept_upd, kept_ite, wbNext_kept] | split | (refine (foldl_kept _ _ _ ?_).trans ?_; (intro _ _; try dsimp only)))
theorem jobDo_kept : ∀ x0 x1 s, (jobDo x0 x1 s).kept = s.kept := by
  intro x0 x1 s
  unfold jobDo
  (try dsimp only)
  repeat' (first | with_reducible rfl | simp only [kept_upd, kept_ite, patrolWay_kept, farFix_kept, kick_kept] | split | (refine (foldl_kept _ _ _ ?_).trans ?_; (intro _ _; try dsimp only)))
theorem jobsGo_kept : ∀ x0 s, (jobsGo x0 s).kept = s.kept := by
  intro x0 s
  unfold jobsGo
  (try dsimp only)
  repeat' (first | with_reducible rfl | simp only [kept_upd, kept_ite, jobDo_kept, State.updSlice_kept] | split | (refine (foldl_kept _ _ _ ?_).trans ?_; (intro _ _; try dsimp only)))
theorem jobsAll_kept : ∀ s, (jobsAll s).kept = s.kept := by
  intro s
  unfold jobsAll
  (try dsimp only)
  repeat' (first | with_reducible rfl | simp only [kept_upd, kept_ite, jobsGo_kept] | split | (refine (foldl_kept _ _ _ ?_).trans ?_; (intro _ _; try dsimp only)))
theorem settleLinks_kept : ∀ s, (settleLinks s).kept = s.kept := by
  intro s
  unfold settleLinks
  (try dsimp only)
  repeat' (first | with_reducible rfl | simp only [kept_upd, kept_ite, takeAll_kept, homeKick_kept, jobsAll_kept, wbAll_kept, datAll_kept, settleFar_kept, stashEnds_kept, fencesUp_kept, upLost_kept, upsGo_kept] | split | (refine (foldl_kept _ _ _ ?_).trans ?_; (intro _ _; try dsimp only)))
theorem dirBadsEnd_kept : ∀ s, (dirBadsEnd s).kept = s.kept := by
  intro s
  unfold dirBadsEnd
  (try dsimp only)
  repeat' (first | with_reducible rfl | simp only [kept_upd, kept_ite, dirBadEnds_kept] | split | (refine (foldl_kept _ _ _ ?_).trans ?_; (intro _ _; try dsimp only)))
theorem settle_kept : ∀ s, (settle s).kept = s.kept := by
  intro s
  unfold settle
  (try dsimp only)
  repeat' (first | with_reducible rfl | simp only [kept_upd, kept_ite, slotsEnd_kept, noticesAll_kept, takeAll_kept, settleLinks_kept, wmAll_kept, logLow_kept, walkEnds_kept, ztInitEnd_kept, clearStep2_kept, settleFar_kept, dirBadsEnd_kept, drainGo_kept, streamsGo_kept] | split | (refine (foldl_kept _ _ _ ?_).trans ?_; (intro _ _; try dsimp only)))
theorem rowEnd_kept (s t : State) : (rowEnd s t).kept = t.kept := by unfold rowEnd; rw [evOrder_kept, settle_kept]
theorem act_kept (s t : State) (h : t.kept = s.kept) : (act s t).kept = s.kept := by
  unfold act
  split
  · rfl
  · rw [rowEnd_kept, h]
theorem act_kept_base (s t : State) (h : t.kept.base = s.kept.base) : (act s t).kept.base = s.kept.base := by
  unfold act
  split
  · rfl
  · rw [rowEnd_kept, h]
theorem logSram_kept : ∀ x0 x1 x2 x3 s, (logSram x0 x1 x2 x3 s).kept = s.kept := by
  intro x0 x1 x2 x3 s
  unfold logSram
  (try dsimp only)
  repeat' (first | with_reducible rfl | simp only [kept_upd, kept_ite, logErr_kept, cntErr_kept] | split | (refine (foldl_kept _ _ _ ?_).trans ?_; (intro _ _; try dsimp only)))
theorem ctxFail_kept : ∀ x0 s, (ctxFail x0 s).kept = s.kept := by
  intro x0 s
  unfold ctxFail
  (try dsimp only)
  repeat' (first | with_reducible rfl | simp only [kept_upd, kept_ite, State.updCtx_kept, postEvent_kept, logErr_kept] | split | (refine (foldl_kept _ _ _ ?_).trans ?_; (intro _ _; try dsimp only)))
theorem cutWrite_kept : ∀ x0 x1 s, (cutWrite x0 x1 s).kept = s.kept := by
  intro x0 x1 s
  unfold cutWrite
  (try dsimp only)
  repeat' (first | with_reducible rfl | simp only [kept_upd, kept_ite, endPull_kept, State.updPort_kept, State.updSlice_kept] | split | (refine (foldl_kept _ _ _ ?_).trans ?_; (intro _ _; try dsimp only)))
theorem cutRead_kept : ∀ x0 x1 s, (cutRead x0 x1 s).kept = s.kept := by
  intro x0 x1 s
  unfold cutRead
  (try dsimp only)
  repeat' (first | with_reducible rfl | simp only [kept_upd, kept_ite, closeTxn_kept, State.updSlice_kept, ownNow_kept, kick_kept] | split | (refine (foldl_kept _ _ _ ?_).trans ?_; (intro _ _; try dsimp only)))
theorem cutOwn_kept : ∀ x0 x1 s, (cutOwn x0 x1 s).kept = s.kept := by
  intro x0 x1 s
  unfold cutOwn
  (try dsimp only)
  repeat' (first | with_reducible rfl | simp only [kept_upd, kept_ite, closeTxn_kept, State.updSlice_kept, kick_kept] | split | (refine (foldl_kept _ _ _ ?_).trans ?_; (intro _ _; try dsimp only)))
theorem silence_kept : ∀ x0 s, (silence x0 s).kept = s.kept := by
  intro x0 s
  unfold silence
  (try dsimp only)
  repeat' (first | with_reducible rfl | simp only [kept_upd, kept_ite, updWr_kept, endOpen_kept] | split | (refine (foldl_kept _ _ _ ?_).trans ?_; (intro _ _; try dsimp only)))
theorem txnLost_kept : ∀ x0 x1 x2 s, (txnLost x0 x1 x2 s).kept = s.kept := by
  intro x0 x1 x2 s
  unfold txnLost
  (try dsimp only)
  repeat' (first | with_reducible rfl | simp only [kept_upd, kept_ite, wrLose_kept, poisonLine_kept, updTxn_kept, readPoisoned_kept, silence_kept, cutWrite_kept, cutOwn_kept, cutRead_kept] | split | (refine (foldl_kept _ _ _ ?_).trans ?_; (intro _ _; try dsimp only)))
theorem restartEnds_kept : ∀ s, (restartEnds s).kept = s.kept := by
  intro s
  unfold restartEnds
  (try dsimp only)
  repeat' (first | with_reducible rfl | simp only [kept_upd, kept_ite, complete_kept] | split | (refine (foldl_kept _ _ _ ?_).trans ?_; (intro _ _; try dsimp only)))
theorem mcRestart_kept : ∀ s, (mcRestart s).kept = s.kept := by
  intro s
  unfold mcRestart
  (try dsimp only)
  repeat' (first | with_reducible rfl | simp only [kept_upd, kept_ite, restartEnds_kept, logErr_kept] | split | (refine (foldl_kept _ _ _ ?_).trans ?_; (intro _ _; try dsimp only)))
theorem storeFault.cntTbc_kept : ∀ x0 s, (storeFault.cntTbc x0 s).kept = s.kept := by
  intro x0 s
  unfold storeFault.cntTbc
  (try dsimp only)
  repeat' (first | with_reducible rfl | simp only [kept_upd, kept_ite, State.updSlice_kept] | split | (refine (foldl_kept _ _ _ ?_).trans ?_; (intro _ _; try dsimp only)))
theorem storeFault_kept : ∀ x0 x1 x2 s, (storeFault x0 x1 x2 s).kept = s.kept := by
  intro x0 x1 x2 s
  unfold storeFault
  (try dsimp only)
  repeat' (first | with_reducible rfl | (rw [kept_ite]; refine kept_if _ _ _ _ ?_ ?_) | split | (refine (foldl_kept _ _ _ ?_).trans ?_; (intro _ _; try dsimp only)) | simp only [kept_upd, vbPoison_kept, ctxFail_kept, txnLost_kept, offBad_kept, storeFault.cntTbc_kept, State.updSlice_kept, cntPf_kept, mcRestart_kept, wrLose_kept, logSram_kept])
theorem retireAuto_kept : ∀ x0 s, (retireAuto x0 s).kept = s.kept := by
  intro x0 s
  unfold retireAuto
  (try dsimp only)
  repeat' (first | with_reducible rfl | simp only [kept_upd, kept_ite, retireList_kept, postEvent_kept, logErr_kept, State.updSlice_kept] | split | (refine (foldl_kept _ _ _ ?_).trans ?_; (intro _ _; try dsimp only)))
theorem dropOcc_kept : ∀ x0 s, (dropOcc x0 s).kept = s.kept := by
  intro x0 s
  unfold dropOcc
  (try dsimp only)
  repeat' (first | with_reducible rfl | simp only [kept_upd, kept_ite] | split | (refine (foldl_kept _ _ _ ?_).trans ?_; (intro _ _; try dsimp only)))
theorem logErrAt_kept : ∀ x0 x1 x2 x3 x4 x5 x6 x7 s, (logErrAt x0 x1 x2 x3 x4 x5 x6 x7 s).kept = s.kept := by
  intro x0 x1 x2 x3 x4 x5 x6 x7 s
  unfold logErrAt
  (try dsimp only)
  repeat' (first | with_reducible rfl | simp only [kept_upd, kept_ite, logErr_kept] | split | (refine (foldl_kept _ _ _ ?_).trans ?_; (intro _ _; try dsimp only)))
theorem scanEnd_kept : ∀ x0 x1 s, (scanEnd x0 x1 s).kept = s.kept := by
  intro x0 x1 s
  unfold scanEnd
  (try dsimp only)
  repeat' (first | with_reducible rfl | simp only [kept_upd, kept_ite, offBad_kept, countUe_kept, run_kept, dropOcc_kept, logErrAt_kept, writeRowTb_kept, postEvent_kept, retireAuto_kept, State.updSlice_kept, tbcInstall_kept] | split | (refine (foldl_kept _ _ _ ?_).trans ?_; (intro _ _; try dsimp only)))
theorem recallNext_kept : ∀ x0 x1 s, (recallNext x0 x1 s).kept = s.kept := by
  intro x0 x1 s
  unfold recallNext
  (try dsimp only)
  repeat' (first | with_reducible rfl | simp only [kept_upd, kept_ite, dirUpset_kept, dirMeet_kept, reclTxn_kept, State.updSlice_kept, setDir_kept] | split | (refine (foldl_kept _ _ _ ?_).trans ?_; (intro _ _; try dsimp only)))
theorem deliver_kept : ∀ x0 x1 x2 x3 x4 s, (deliver x0 x1 x2 x3 x4 s).kept = s.kept := by
  intro x0 x1 x2 x3 x4 s
  rw [deliver]
  exact act_kept s _ (by rw [kept_ite, message_kept, ite_self])
theorem farLate_kept : ∀ x0 s, (farLate x0 s).kept = s.kept := by
  intro x0 s
  unfold farLate
  (try dsimp only)
  repeat' (first | with_reducible rfl | simp only [kept_upd, kept_ite, cntErr_kept] | split | (refine (foldl_kept _ _ _ ?_).trans ?_; (intro _ _; try dsimp only)))
theorem capLookup_kept : ∀ x0 x1 s, (capLookup x0 x1 s).kept = s.kept := by
  intro x0 x1 s
  unfold capLookup
  (try dsimp only)
  repeat' (first | with_reducible rfl | simp only [kept_upd, kept_ite, capIn_kept] | split | (refine (foldl_kept _ _ _ ?_).trans ?_; (intro _ _; try dsimp only)))
theorem capMcData_kept : ∀ x0 x1 s, (capMcData x0 x1 s).kept = s.kept := by
  intro x0 x1 s
  unfold capMcData
  (try dsimp only)
  repeat' (first | with_reducible rfl | simp only [kept_upd, kept_ite, capIn_kept] | split | (refine (foldl_kept _ _ _ ?_).trans ?_; (intro _ _; try dsimp only)))
theorem capMcAccept_kept : ∀ x0 s, (capMcAccept x0 s).kept = s.kept := by
  intro x0 s
  unfold capMcAccept
  (try dsimp only)
  repeat' (first | with_reducible rfl | simp only [kept_upd, kept_ite, capIn_kept] | split | (refine (foldl_kept _ _ _ ?_).trans ?_; (intro _ _; try dsimp only)))
theorem lookFaults_kept : ∀ x0 x1 x2 s, (lookFaults x0 x1 x2 s).kept = s.kept := by
  intro x0 x1 x2 s
  unfold lookFaults
  (try dsimp only)
  repeat' (first | with_reducible rfl | simp only [kept_upd, kept_ite, capTouch_kept, dirRead_kept, storeFault_kept] | split | (refine (foldl_kept _ _ _ ?_).trans ?_; (intro _ _; try dsimp only)))
theorem stepTwo_kept : ∀ x0 x1 x2 s, (stepTwo x0 x1 x2 s).kept = s.kept := by
  intro x0 x1 x2 s
  unfold stepTwo
  (try dsimp only)
  repeat' (first | with_reducible rfl | simp only [kept_upd, kept_ite, storeFault_kept, lookFaults_kept] | split | (refine (foldl_kept _ _ _ ?_).trans ?_; (intro _ _; try dsimp only)))
theorem victimGive_kept : ∀ x0 x1 x2 s, (victimGive x0 x1 x2 s).kept = s.kept := by
  intro x0 x1 x2 s
  unfold victimGive
  (try dsimp only)
  repeat' (first | with_reducible rfl | simp only [kept_upd, kept_ite, fallbackWay_kept, run_kept, updTxn_kept] | split | (refine (foldl_kept _ _ _ ?_).trans ?_; (intro _ _; try dsimp only)))
theorem victimFallback_kept : ∀ x0 x1 x2 s, (victimFallback x0 x1 x2 s).kept = s.kept := by
  intro x0 x1 x2 s
  unfold victimFallback
  (try dsimp only)
  repeat' (first | with_reducible rfl | simp only [kept_upd, kept_ite, monSys_kept, cntPol_kept, victimGive_kept] | split | (refine (foldl_kept _ _ _ ?_).trans ?_; (intro _ _; try dsimp only)))
theorem polStop_kept : ∀ s, (polStop s).kept = s.kept := by
  intro s
  unfold polStop
  (try dsimp only)
  repeat' (first | with_reducible rfl | simp only [kept_upd, kept_ite, State.updSeq_kept, cntPol_kept, victimGive_kept] | split | (refine (foldl_kept _ _ _ ?_).trans ?_; (intro _ _; try dsimp only)))
theorem polInstall_kept : ∀ x0 x1 s, (polInstall x0 x1 s).kept = s.kept := by
  intro x0 x1 s
  unfold polInstall
  (try dsimp only)
  repeat' (first | with_reducible rfl | simp only [kept_upd, kept_ite, State.updSeq_kept] | split | (refine (foldl_kept _ _ _ ?_).trans ?_; (intro _ _; try dsimp only)))
theorem postUntested_kept : ∀ s, (postUntested s).kept = s.kept := by
  intro s
  unfold postUntested
  (try dsimp only)
  repeat' (first | with_reducible rfl | simp only [kept_upd, kept_ite, postEvent_kept] | split | (refine (foldl_kept _ _ _ ?_).trans ?_; (intro _ _; try dsimp only)))
theorem polEnd_kept : ∀ s, (polEnd s).kept = s.kept := by
  intro s
  unfold polEnd
  (try dsimp only)
  repeat' (first | with_reducible rfl | simp only [kept_upd, kept_ite, postUntested_kept, finish_kept, postEvent_kept] | split | (refine (foldl_kept _ _ _ ?_).trans ?_; (intro _ _; try dsimp only)))
theorem initEnd_kept : ∀ x0 x1 s, (initEnd x0 x1 s).kept = s.kept := by
  intro x0 x1 s
  unfold initEnd
  (try dsimp only)
  repeat' (first | with_reducible rfl | simp only [kept_upd, kept_ite, polInstall_kept, State.updSeq_kept, polEnd_kept, run_kept] | split | (refine (foldl_kept _ _ _ ?_).trans ?_; (intro _ _; try dsimp only)))
theorem polLoad_kept : ∀ x0 x1 s, (polLoad x0 x1 s).kept = s.kept := by
  intro x0 x1 s
  unfold polLoad
  (try dsimp only)
  repeat' (first | with_reducible rfl | simp only [kept_upd, kept_ite, polInstall_kept, polEnd_kept] | split | (refine (foldl_kept _ _ _ ?_).trans ?_; (intro _ _; try dsimp only)))
theorem polWait_kept : ∀ s, (polWait s).kept = s.kept := by
  intro s
  unfold polWait
  (try dsimp only)
  repeat' (first | with_reducible rfl | simp only [kept_upd, kept_ite, polLoad_kept, updProg_kept] | split | (refine (foldl_kept _ _ _ ?_).trans ?_; (intro _ _; try dsimp only)))
theorem polBegin_kept : ∀ x0 x1 s, (polBegin x0 x1 s).kept = s.kept := by
  intro x0 x1 s
  unfold polBegin
  (try dsimp only)
  repeat' (first | with_reducible rfl | simp only [kept_upd, kept_ite, beginCmd_kept, polStop_kept, recStop_kept, polWait_kept] | split | (refine (foldl_kept _ _ _ ?_).trans ?_; (intro _ _; try dsimp only)))
theorem afterEvent_kept : ∀ x0 x1 x2 s, (afterEvent x0 x1 x2 s).kept = s.kept := by
  intro x0 x1 x2 s
  unfold afterEvent
  (try dsimp only)
  repeat' (first | with_reducible rfl | simp only [kept_upd, kept_ite, initEnd_kept, polWait_kept] | split | (refine (foldl_kept _ _ _ ?_).trans ?_; (intro _ _; try dsimp only)))
theorem seqAbort_kept : ∀ x0 s, (seqAbort x0 s).kept = s.kept := by
  intro x0 s
  unfold seqAbort
  (try dsimp only)
  repeat' (first | with_reducible rfl | simp only [kept_upd, kept_ite, State.updSeq_kept, victimGive_kept, afterEvent_kept] | split | (refine (foldl_kept _ _ _ ?_).trans ?_; (intro _ _; try dsimp only)))
theorem seqFault_kept : ∀ x0 x1 s, (seqFault x0 x1 s).kept = s.kept := by
  intro x0 x1 s
  unfold seqFault
  (try dsimp only)
  repeat' (first | with_reducible rfl | simp only [kept_upd, kept_ite, postEvent_kept, cntPol_kept, seqAbort_kept] | split | (refine (foldl_kept _ _ _ ?_).trans ?_; (intro _ _; try dsimp only)))
theorem seqParity_kept : ∀ x0 x1 x2 s, (seqParity x0 x1 x2 s).kept = s.kept := by
  intro x0 x1 x2 s
  unfold seqParity
  (try dsimp only)
  repeat' (first | with_reducible rfl | simp only [kept_upd, kept_ite, logErr_kept, cntPol_kept, logSram_kept] | split | (refine (foldl_kept _ _ _ ?_).trans ?_; (intro _ _; try dsimp only)))
theorem issue_kept : ∀ i sl gd k eff s, (∀ s, (eff s).kept = s.kept) → (issue i sl gd k eff s).kept = s.kept := by
  intro i sl gd k eff s h
  unfold issue
  (try dsimp only)
  repeat' (first | with_reducible rfl | simp only [kept_ite, h, rowEnd_kept, seqFault_kept, State.updSeq_kept, ite_self] | split)
theorem wrG_kept : ∀ x0 x1 x2 x3 s, (wrG x0 x1 x2 x3 s).kept = s.kept := by
  intro x0 x1 x2 x3 s
  unfold wrG
  (try dsimp only)
  repeat' (first | with_reducible rfl | simp only [kept_upd, kept_ite, State.updSeq_kept] | split | (refine (foldl_kept _ _ _ ?_).trans ?_; (intro _ _; try dsimp only)))
theorem wrP_kept : ∀ x0 x1 x2 s, (wrP x0 x1 x2 s).kept = s.kept := by
  intro x0 x1 x2 s
  unfold wrP
  (try dsimp only)
  repeat' (first | with_reducible rfl | simp only [kept_upd, kept_ite, State.updSeq_kept] | split | (refine (foldl_kept _ _ _ ?_).trans ?_; (intro _ _; try dsimp only)))
theorem branchTo_kept : ∀ x0 x1 s, (branchTo x0 x1 s).kept = s.kept := by
  intro x0 x1 s
  unfold branchTo
  (try dsimp only)
  repeat' (first | with_reducible rfl | simp only [kept_upd, kept_ite, State.updSeq_kept] | split | (refine (foldl_kept _ _ _ ?_).trans ?_; (intro _ _; try dsimp only)))
theorem putRepl_kept : ∀ x0 x1 x2 s, (putRepl x0 x1 x2 s).kept = s.kept := by
  intro x0 x1 x2 s
  unfold putRepl
  (try dsimp only)
  repeat' (first | with_reducible rfl | simp only [kept_upd, kept_ite, State.updSlice_kept] | split | (refine (foldl_kept _ _ _ ?_).trans ?_; (intro _ _; try dsimp only)))
theorem victimResult_kept : ∀ x0 x1 x2 x3 s, (victimResult x0 x1 x2 x3 s).kept = s.kept := by
  intro x0 x1 x2 x3 s
  unfold victimResult
  (try dsimp only)
  repeat' (first | with_reducible rfl | simp only [kept_upd, kept_ite, victimFallback_kept, victimGive_kept] | split | (refine (foldl_kept _ _ _ ?_).trans ?_; (intro _ _; try dsimp only)))
theorem defaultHandler_kept : ∀ n e s, (defaultHandler n e s).kept = s.kept := by
  intro n e s
  unfold defaultHandler
  dsimp only
  rw [afterEvent_kept]
  repeat' (first | with_reducible rfl | simp only [kept_ite, victimResult_kept, putRepl_kept, State.updSeq_kept, ite_self] | split)
theorem fetchParity_kept : ∀ x0 x1 s, (fetchParity x0 x1 s).kept = s.kept := by
  intro x0 x1 s
  unfold fetchParity
  (try dsimp only)
  repeat' (first | with_reducible rfl | simp only [kept_upd, kept_ite, seqParity_kept, State.updSeq_kept, seqFault_kept] | split | (refine (foldl_kept _ _ _ ?_).trans ?_; (intro _ _; try dsimp only)))
theorem txLink_kept : ∀ x0 x1 s, (txLink x0 x1 s).kept = s.kept := by
  intro x0 x1 s
  unfold txLink
  (try dsimp only)
  repeat' (first | with_reducible rfl | simp only [kept_upd, kept_ite, ctrlFlit_kept] | split | (refine (foldl_kept _ _ _ ?_).trans ?_; (intro _ _; try dsimp only)))
theorem resetDone_kept : ∀ x0 s, (resetDone x0 s).kept = s.kept := by
  intro x0 s
  unfold resetDone
  (try dsimp only)
  repeat' (first | with_reducible rfl | simp only [kept_upd, kept_ite, finish_kept] | split | (refine (foldl_kept _ _ _ ?_).trans ?_; (intro _ _; try dsimp only)))
theorem holdPort_kept : ∀ x0 x1 s, (holdPort x0 x1 s).kept = s.kept := by
  intro x0 x1 s
  unfold holdPort
  (try dsimp only)
  repeat' (first | with_reducible rfl | simp only [kept_upd, kept_ite, recompute_kept, postEvent_kept, State.updPort_kept, resetDone_kept] | split | (refine (foldl_kept _ _ _ ?_).trans ?_; (intro _ _; try dsimp only)))
theorem linkDown_kept : ∀ x0 s, (linkDown x0 s).kept = s.kept := by
  intro x0 s
  unfold linkDown
  (try dsimp only)
  repeat' (first | with_reducible rfl | simp only [kept_upd, kept_ite, loseAgent_kept, holdPort_kept, State.updPort_kept] | split | (refine (foldl_kept _ _ _ ?_).trans ?_; (intro _ _; try dsimp only)))
theorem recovery_kept : ∀ x0 s, (recovery x0 s).kept = s.kept := by
  intro x0 s
  unfold recovery
  (try dsimp only)
  repeat' (first | with_reducible rfl | simp only [kept_upd, kept_ite, linkDown_kept, State.updPort_kept, monPort_kept] | split | (refine (foldl_kept _ _ _ ?_).trans ?_; (intro _ _; try dsimp only)))
theorem replayFrom_kept : ∀ x0 x1 s, (replayFrom x0 x1 s).kept = s.kept := by
  intro x0 x1 s
  unfold replayFrom
  (try dsimp only)
  repeat' (first | with_reducible rfl | simp only [kept_upd, kept_ite, State.updPort_kept, State.put_kept, recovery_kept, monPort_kept] | split | (refine (foldl_kept _ _ _ ?_).trans ?_; (intro _ _; try dsimp only)))
theorem retryIn_kept : ∀ x0 x1 s, (retryIn x0 x1 s).kept = s.kept := by
  intro x0 x1 s
  unfold retryIn
  (try dsimp only)
  repeat' (first | with_reducible rfl | simp only [kept_upd, kept_ite, replayFrom_kept, recovery_kept] | split | (refine (foldl_kept _ _ _ ?_).trans ?_; (intro _ _; try dsimp only)))
theorem ackIn_kept : ∀ x0 x1 s, (ackIn x0 x1 s).kept = s.kept := by
  intro x0 x1 s
  unfold ackIn
  (try dsimp only)
  repeat' (first | with_reducible rfl | simp only [kept_upd, kept_ite, State.updPort_kept, replayFrom_kept, recovery_kept, flushTx_kept] | split | (refine (foldl_kept _ _ _ ?_).trans ?_; (intro _ _; try dsimp only)))
theorem creditsIn_kept : ∀ x0 x1 s, (creditsIn x0 x1 s).kept = s.kept := by
  intro x0 x1 s
  unfold creditsIn
  (try dsimp only)
  repeat' (first | with_reducible rfl | simp only [kept_upd, kept_ite, State.updPort_kept, flushTx_kept] | split | (refine (foldl_kept _ _ _ ?_).trans ?_; (intro _ _; try dsimp only)))
theorem initDone_kept : ∀ x0 s, (initDone x0 s).kept = s.kept := by
  intro x0 s
  unfold initDone
  (try dsimp only)
  repeat' (first | with_reducible rfl | simp only [kept_upd, kept_ite, recompute_kept, State.updPort_kept, resetDone_kept] | split | (refine (foldl_kept _ _ _ ?_).trans ?_; (intro _ _; try dsimp only)))
theorem paramIn_kept : ∀ x0 x1 s, (paramIn x0 x1 s).kept = s.kept := by
  intro x0 x1 s
  unfold paramIn
  (try dsimp only)
  repeat' (first | with_reducible rfl | simp only [kept_upd, kept_ite, txLink_kept, holdPort_kept, State.updPort_kept, initDone_kept] | split | (refine (foldl_kept _ _ _ ?_).trans ?_; (intro _ _; try dsimp only)))
theorem initAckIn_kept : ∀ x0 x1 s, (initAckIn x0 x1 s).kept = s.kept := by
  intro x0 x1 s
  unfold initAckIn
  (try dsimp only)
  repeat' (first | with_reducible rfl | simp only [kept_upd, kept_ite, holdPort_kept, State.updPort_kept, initDone_kept] | split | (refine (foldl_kept _ _ _ ?_).trans ?_; (intro _ _; try dsimp only)))
theorem linkIn_kept : ∀ x0 x1 s, (linkIn x0 x1 s).kept = s.kept := by
  intro x0 x1 s
  unfold linkIn
  (try dsimp only)
  repeat' (first | with_reducible rfl | simp only [kept_upd, kept_ite, retryIn_kept, paramIn_kept, resetDone_kept, initAckIn_kept, badAnswer_kept] | split | (refine (foldl_kept _ _ _ ?_).trans ?_; (intro _ _; try dsimp only)))
theorem slotIn_kept : ∀ x0 x1 s, (slotIn x0 x1 s).kept = s.kept := by
  intro x0 x1 s
  unfold slotIn
  (try dsimp only)
  repeat' (first | with_reducible rfl | simp only [kept_upd, kept_ite, State.updPort_kept, badAnswer_kept, message_kept] | split | (refine (foldl_kept _ _ _ ?_).trans ?_; (intro _ _; try dsimp only)))
theorem flitIn_kept : ∀ x0 x1 s, (flitIn x0 x1 s).kept = s.kept := by
  intro x0 x1 s
  unfold flitIn
  (try dsimp only)
  repeat' (first | with_reducible rfl | simp only [kept_upd, kept_ite, slotIn_kept, creditsIn_kept, ctrlFlit_kept, txLink_kept, State.updPort_kept, monPort_kept, linkIn_kept, ackIn_kept] | split | (refine (foldl_kept _ _ _ ?_).trans ?_; (intro _ _; try dsimp only)))
theorem startInit_kept : ∀ x0 x1 x2 s, (startInit x0 x1 x2 s).kept = s.kept := by
  intro x0 x1 x2 s
  unfold startInit
  (try dsimp only)
  repeat' (first | with_reducible rfl | simp only [kept_upd, kept_ite, txLink_kept, State.updPort_kept, replayFrom_kept] | split | (refine (foldl_kept _ _ _ ?_).trans ?_; (intro _ _; try dsimp only)))
theorem trainPort_kept : ∀ x0 s, (trainPort x0 s).kept = s.kept := by
  intro x0 s
  unfold trainPort
  (try dsimp only)
  repeat' (first | with_reducible rfl | simp only [kept_upd, kept_ite, State.updPort_kept] | split | (refine (foldl_kept _ _ _ ?_).trans ?_; (intro _ _; try dsimp only)))
theorem clearPort_kept : ∀ x0 s, (clearPort x0 s).kept = s.kept := by
  intro x0 s
  unfold clearPort
  (try dsimp only)
  repeat' (first | with_reducible rfl | simp only [kept_upd, kept_ite, State.updPort_kept] | split | (refine (foldl_kept _ _ _ ?_).trans ?_; (intro _ _; try dsimp only)))
theorem resetStep2_kept : ∀ s, (resetStep2 s).kept = s.kept := by
  intro s
  unfold resetStep2
  (try dsimp only)
  repeat' (first | with_reducible rfl | simp only [kept_upd, kept_ite, recompute_kept, resetDone_kept, updProg_kept, clearPort_kept, trainPort_kept] | split | (refine (foldl_kept _ _ _ ?_).trans ?_; (intro _ _; try dsimp only)))
theorem candidate_kept : ∀ x0 x1 x2 x3 x4 s, (candidate x0 x1 x2 x3 x4 s).kept = s.kept := by
  intro x0 x1 x2 x3 x4 s
  unfold candidate
  (try dsimp only)
  repeat' (first | with_reducible rfl | simp only [kept_upd, kept_ite, monSys_kept, dirMeet_kept, run_kept, State.updSlice_kept, cntPf_kept] | split | (refine (foldl_kept _ _ _ ?_).trans ?_; (intro _ _; try dsimp only)))
theorem ageSlice_kept : ∀ x0 s, (ageSlice x0 s).kept = s.kept := by
  intro x0 s
  unfold ageSlice
  (try dsimp only)
  repeat' (first | with_reducible rfl | simp only [kept_upd, kept_ite, State.updSlice_kept, cntPf_kept] | split | (refine (foldl_kept _ _ _ ?_).trans ?_; (intro _ _; try dsimp only)))
theorem lockedOut_kept : ∀ x0 s, (lockedOut x0 s).kept = s.kept := by
  intro x0 s
  unfold lockedOut
  (try dsimp only)
  repeat' (first | with_reducible rfl | simp only [kept_upd, kept_ite, complete_kept, lockViolation_kept] | split | (refine (foldl_kept _ _ _ ?_).trans ?_; (intro _ _; try dsimp only)))
theorem zeroBitmap_kept : ∀ x0 s, (zeroBitmap x0 s).kept = s.kept := by
  intro x0 s
  unfold zeroBitmap
  (try dsimp only)
  repeat' (first | with_reducible rfl | simp only [kept_upd, kept_ite, farWrite_kept] | split | (refine (foldl_kept _ _ _ ?_).trans ?_; (intro _ _; try dsimp only)))
theorem regionWrite_kept : ∀ x0 s, (regionWrite x0 s).kept = s.kept := by
  intro x0 s
  unfold regionWrite
  (try dsimp only)
  repeat' (first | with_reducible rfl | simp only [kept_upd, kept_ite, beginCmd_kept, complete_kept, zeroBitmap_kept] | split | (refine (foldl_kept _ _ _ ?_).trans ?_; (intro _ _; try dsimp only)))
theorem setPerm_kept : ∀ x0 s, (setPerm x0 s).kept = s.kept := by
  intro x0 s
  unfold setPerm
  (try dsimp only)
  repeat' (first | with_reducible rfl | simp only [kept_upd, kept_ite] | split | (refine (foldl_kept _ _ _ ?_).trans ?_; (intro _ _; try dsimp only)))
theorem setMap_kept : ∀ x0 s, (setMap x0 s).kept.base = s.kept.base := by
  intro x0 s
  unfold setMap
  (try dsimp only)
  repeat' (first | with_reducible rfl | simp only [kept_upd, base_upd, base_ite, kept_ite, kickAll_kept] | split | (refine (foldl_kept_base _ _ _ ?_).trans ?_; (intro _ _; try dsimp only)))
theorem setMask_kept : ∀ x0 s, (setMask x0 s).kept.base = s.kept.base := by
  intro x0 s
  unfold setMask
  (try dsimp only)
  repeat' (first | with_reducible rfl | simp only [kept_upd, base_upd, base_ite, kept_ite, kickAll_kept] | split | (refine (foldl_kept_base _ _ _ ?_).trans ?_; (intro _ _; try dsimp only)))
theorem setPrefetch_kept : ∀ x0 s, (setPrefetch x0 s).kept = s.kept := by
  intro x0 s
  unfold setPrefetch
  (try dsimp only)
  repeat' (first | with_reducible rfl | simp only [kept_upd, kept_ite, State.updPort_kept] | split | (refine (foldl_kept _ _ _ ?_).trans ?_; (intro _ _; try dsimp only)))
theorem retireDrop_kept : ∀ x0 x1 s, (retireDrop x0 x1 s).kept = s.kept := by
  intro x0 x1 s
  unfold retireDrop
  (try dsimp only)
  repeat' (first | with_reducible rfl | simp only [kept_upd, kept_ite] | split | (refine (foldl_kept _ _ _ ?_).trans ?_; (intro _ _; try dsimp only)))
theorem patrolLines_kept : ∀ x0 x1 s, (patrolLines x0 x1 s).kept = s.kept := by
  intro x0 x1 s
  unfold patrolLines
  (try dsimp only)
  repeat' (first | with_reducible rfl | simp only [kept_upd, kept_ite, patrolWay_kept, State.updSlice_kept] | split | (refine (foldl_kept _ _ _ ?_).trans ?_; (intro _ _; try dsimp only)))
theorem patrolAt_kept : ∀ x0 s, (patrolAt x0 s).kept = s.kept := by
  intro x0 s
  unfold patrolAt
  (try dsimp only)
  repeat' (first | with_reducible rfl | simp only [kept_upd, kept_ite, cntErr_kept] | split | (refine (foldl_kept _ _ _ ?_).trans ?_; (intro _ _; try dsimp only)))
theorem patrolSet_kept : ∀ x0 x1 x2 s, (patrolSet x0 x1 x2 s).kept = s.kept := by
  intro x0 x1 x2 s
  unfold patrolSet
  (try dsimp only)
  repeat' (first | with_reducible rfl | simp only [kept_upd, kept_ite, setLost_kept, burstsNow_kept, countCe_kept, patrolLines_kept, bursts_kept, logErr_kept, cntErr_kept] | split | (refine (foldl_kept _ _ _ ?_).trans ?_; (intro _ _; try dsimp only)))
theorem patrol_kept : ∀ x0 x1 x2 s, (patrol x0 x1 x2 s).kept = s.kept := by
  intro x0 x1 x2 s
  unfold patrol
  (try dsimp only)
  repeat' (first | with_reducible rfl | simp only [kept_upd, kept_ite, patrolSet_kept, capWalk_kept, patrolAt_kept] | split | (refine (foldl_kept _ _ _ ?_).trans ?_; (intro _ _; try dsimp only)))
theorem creditReturn_kept : ∀ x0 x1 s, (creditReturn x0 x1 s).kept = s.kept := by
  intro x0 x1 s
  unfold creditReturn
  (try dsimp only)
  repeat' (first | with_reducible rfl | simp only [kept_upd, kept_ite, flowCredits_kept, State.updPort_kept] | split | (refine (foldl_kept _ _ _ ?_).trans ?_; (intro _ _; try dsimp only)))
theorem guarMissed_kept : ∀ x0 x1 s, (guarMissed x0 x1 s).kept = s.kept := by
  intro x0 x1 s
  unfold guarMissed
  (try dsimp only)
  repeat' (first | with_reducible rfl | simp only [kept_upd, kept_ite, postEvent_kept] | split | (refine (foldl_kept _ _ _ ?_).trans ?_; (intro _ _; try dsimp only)))
theorem windowEnd_kept : ∀ s, (windowEnd s).kept = s.kept := by
  intro s
  unfold windowEnd
  (try dsimp only)
  repeat' (first | with_reducible rfl | simp only [kept_upd, kept_ite, windowStart_kept, guarMissed_kept, recomputeRsv_kept, sendMsix_kept] | split | (refine (foldl_kept _ _ _ ?_).trans ?_; (intro _ _; try dsimp only)))
theorem hashGet_kept : ∀ x0 x1 s, (hashGet x0 x1 s).1.kept = s.kept := by
  intro x0 x1 s
  unfold hashGet
  (try dsimp only)
  repeat' (first | with_reducible rfl | simp only [kept_upd, kept_ite, farSend_kept, monSys_kept, injRead_kept, capFarEnd_kept, logFarRead_kept, farDead_kept, logFarPoison_kept] | split | (refine (foldl_kept _ _ _ ?_).trans ?_; (intro _ _; try dsimp only)))
theorem hashBase_kept : ∀ x0 x1 s, (hashBase x0 x1 s).1.kept = s.kept := by
  intro x0 x1 s
  unfold hashBase
  (try dsimp only)
  repeat' (first | with_reducible rfl | simp only [kept_upd, kept_ite, hashGet_kept, ztPut_kept] | split | (refine (foldl_kept _ _ _ ?_).trans ?_; (intro _ _; try dsimp only)))
theorem hashRead_kept : ∀ x0 x1 x2 s, (hashRead x0 x1 x2 s).1.kept = s.kept := by
  intro x0 x1 x2 s
  unfold hashRead
  (try dsimp only)
  repeat' (first | with_reducible rfl | simp only [hashBase_kept, lineOutcome_kept, burstsNow_kept] | split)
theorem hashLook_kept : ∀ x0 s, (hashLook x0 s).kept = s.kept := by
  intro x0 s
  unfold hashLook
  (try dsimp only)
  repeat' (first | with_reducible rfl | simp only [kept_upd, kept_ite, tagNow_kept] | split | (refine (foldl_kept _ _ _ ?_).trans ?_; (intro _ _; try dsimp only)))
theorem hashServe_kept : ∀ x0 x1 x2 s, (hashServe x0 x1 x2 s).1.kept = s.kept := by
  intro x0 x1 x2 s
  unfold hashServe
  (try dsimp only)
  repeat' (first | with_reducible rfl | simp only [kept_upd, kept_ite, hashRead_kept, capOut_kept] | split | (refine (foldl_kept _ _ _ ?_).trans ?_; (intro _ _; try dsimp only)))
theorem hashLine_kept : ∀ x0 x1 x2 s, (hashLine x0 x1 x2 s).kept = s.kept := by
  intro x0 x1 x2 s
  unfold hashLine
  (try dsimp only)
  repeat' (first | with_reducible rfl | simp only [kept_upd, kept_ite, hashLook_kept, State.updCtx_kept, offBad_kept, monSys_kept, capIn_kept, hashedAt_kept, hashServe_kept, releaseOff_kept] | split | (refine (foldl_kept _ _ _ ?_).trans ?_; (intro _ _; try dsimp only)))
theorem signItem_kept : ∀ x0 s, (signItem x0 s).kept = s.kept := by
  intro x0 s
  unfold signItem
  (try dsimp only)
  repeat' (first | with_reducible rfl | simp only [kept_upd, kept_ite, placeItems_kept] | split | (refine (foldl_kept _ _ _ ?_).trans ?_; (intro _ _; try dsimp only)))
theorem slotWritten_kept : ∀ x0 x1 s, (slotWritten x0 x1 s).kept = s.kept := by
  intro x0 x1 s
  unfold slotWritten
  (try dsimp only)
  repeat' (first | with_reducible rfl | simp only [kept_upd, kept_ite, farEnd_kept, slotDone_kept] | split | (refine (foldl_kept _ _ _ ?_).trans ?_; (intro _ _; try dsimp only)))
theorem setKeySt_kept : ∀ x0 s, (setKeySt x0 s).kept.base = s.kept.base := by
  intro x0 s
  unfold setKeySt
  (try dsimp only)
  repeat' (first | with_reducible rfl | simp only [kept_upd, base_upd, base_ite, kept_ite] | split | (refine (foldl_kept_base _ _ _ ?_).trans ?_; (intro _ _; try dsimp only)))
theorem cryptoError_kept : ∀ x0 s, (cryptoError x0 s).kept.base = s.kept.base := by
  intro x0 s
  unfold cryptoError
  (try dsimp only)
  repeat' (first | with_reducible rfl | simp only [kept_upd, base_upd, base_ite, kept_ite, postEvent_kept, abandonSigs_kept] | split | (refine (foldl_kept_base _ _ _ ?_).trans ?_; (intro _ _; try dsimp only)))
theorem testFailed_kept : ∀ s, (testFailed s).kept.base = s.kept.base := by
  intro s
  unfold testFailed
  (try dsimp only)
  repeat' (first | with_reducible rfl | simp only [kept_upd, base_upd, base_ite, kept_ite, cryptoError_kept] | split | (refine (foldl_kept_base _ _ _ ?_).trans ?_; (intro _ _; try dsimp only)))
theorem identityDone_kept : ∀ x0 s, (identityDone x0 s).kept.base = s.kept.base := by
  intro x0 s
  unfold identityDone
  (try dsimp only)
  repeat' (first | with_reducible rfl | simp only [kept_upd, base_upd, base_ite, kept_ite, setKeySt_kept, finishBlock_kept, finish_kept, lockViolation_kept] | split | (refine (foldl_kept_base _ _ _ ?_).trans ?_; (intro _ _; try dsimp only)))
theorem sealKeyDone_kept : ∀ x0 s, (sealKeyDone x0 s).kept.base = s.kept.base := by
  intro x0 s
  unfold sealKeyDone
  (try dsimp only)
  repeat' (first | with_reducible rfl | simp only [kept_upd, base_upd, base_ite, kept_ite, setKeySt_kept, finish_kept, addItem_kept] | split | (refine (foldl_kept_base _ _ _ ?_).trans ?_; (intro _ _; try dsimp only)))
theorem zeroiseDone_kept : ∀ x0 s, (zeroiseDone x0 s).kept.base = s.kept.base := by
  intro x0 s
  unfold zeroiseDone
  (try dsimp only)
  repeat' (first | with_reducible rfl | simp only [kept_upd, base_upd, base_ite, kept_ite, setKeySt_kept, finish_kept] | split | (refine (foldl_kept_base _ _ _ ?_).trans ?_; (intro _ _; try dsimp only)))
theorem recBegin_kept : ∀ s, (recBegin s).kept = s.kept := by
  intro s
  unfold recBegin
  (try dsimp only)
  repeat' (first | with_reducible rfl | simp only [kept_upd, kept_ite, recRaw_kept] | split | (refine (foldl_kept _ _ _ ?_).trans ?_; (intro _ _; try dsimp only)))
theorem freeSides_kept : ∀ s, (freeSides s).kept = s.kept := by
  intro s
  unfold freeSides
  (try dsimp only)
  repeat' (first | with_reducible rfl | simp only [kept_upd, kept_ite, State.updSlice_kept, cntPf_kept] | split | (refine (foldl_kept _ _ _ ?_).trans ?_; (intro _ _; try dsimp only)))
theorem recStartEnd_kept : ∀ x0 s, (recStartEnd x0 s).kept = s.kept := by
  intro x0 s
  unfold recStartEnd
  (try dsimp only)
  repeat' (first | with_reducible rfl | simp only [kept_upd, kept_ite, finish_kept] | split | (refine (foldl_kept _ _ _ ?_).trans ?_; (intro _ _; try dsimp only)))
theorem quiesceFail_kept : ∀ s, (quiesceFail s).kept = s.kept := by
  intro s
  unfold quiesceFail
  (try dsimp only)
  repeat' (first | with_reducible rfl | simp only [kept_upd, kept_ite, recStartEnd_kept] | split | (refine (foldl_kept _ _ _ ?_).trans ?_; (intro _ _; try dsimp only)))
theorem spill_kept : ∀ x0 x1 s, (spill x0 x1 s).kept = s.kept := by
  intro x0 x1 s
  unfold spill
  (try dsimp only)
  repeat' (first | with_reducible rfl | simp only [kept_upd, kept_ite, recStop_kept, logErr_kept, logSram_kept, State.put_kept, cntErr_kept] | split | (refine (foldl_kept _ _ _ ?_).trans ?_; (intro _ _; try dsimp only)))
theorem replayRestore_kept : ∀ s, (replayRestore s).kept.base = s.kept.base := by
  intro s
  unfold replayRestore
  (try dsimp only)
  repeat' (first | with_reducible rfl | simp only [kept_upd, base_upd, base_ite, kept_ite] | split | (refine (foldl_kept_base _ _ _ ?_).trans ?_; (intro _ _; try dsimp only)))
theorem emptySlices_kept : ∀ s, (emptySlices s).kept = s.kept := by
  intro s
  unfold emptySlices
  (try dsimp only)
  repeat' (first | with_reducible rfl | simp only [kept_upd, kept_ite, State.updSlice_kept] | split | (refine (foldl_kept _ _ _ ?_).trans ?_; (intro _ _; try dsimp only)))
theorem bootPolicy_kept : ∀ s, (bootPolicy s).kept = s.kept := by
  intro s
  unfold bootPolicy
  (try dsimp only)
  repeat' (first | with_reducible rfl | simp only [kept_upd, kept_ite, polLoad_kept, State.updSeq_kept, run_kept, postEvent_kept] | split | (refine (foldl_kept _ _ _ ?_).trans ?_; (intro _ _; try dsimp only)))
theorem replayClean_kept : ∀ s, (replayClean s).kept = s.kept := by
  intro s
  unfold replayClean
  (try dsimp only)
  repeat' (first | with_reducible rfl | simp only [kept_upd, kept_ite, bootPolicy_kept, emptySlices_kept] | split | (refine (foldl_kept _ _ _ ?_).trans ?_; (intro _ _; try dsimp only)))
theorem replayEnd_kept : ∀ x0 s, (replayEnd x0 s).kept.base = s.kept.base := by
  intro x0 s
  unfold replayEnd
  (try dsimp only)
  repeat' (first | with_reducible rfl | simp only [kept_upd, base_upd, base_ite, kept_ite, replayClean_kept, replayRestore_kept, postEvent_kept, changeMode_kept, recompute_kept] | split | (refine (foldl_kept_base _ _ _ ?_).trans ?_; (intro _ _; try dsimp only)))
theorem snapLoad_kept : ∀ x0 s, (snapLoad x0 s).kept.base = s.kept.base := by
  intro x0 s
  unfold snapLoad
  (try dsimp only)
  repeat' (first | with_reducible rfl | simp only [kept_upd, base_upd, base_ite, kept_ite, State.updSlice_kept] | split | (refine (foldl_kept_base _ _ _ ?_).trans ?_; (intro _ _; try dsimp only)))
theorem replayBegin_kept : ∀ x0 x1 s, (replayBegin x0 x1 s).kept.base = s.kept.base := by
  intro x0 x1 s
  unfold replayBegin
  (try dsimp only)
  repeat' (first | with_reducible rfl | simp only [kept_upd, base_upd, base_ite, kept_ite, changeMode_kept, snapLoad_kept, State.updPort_kept] | split | (refine (foldl_kept_base _ _ _ ?_).trans ?_; (intro _ _; try dsimp only)))
theorem installTouch_kept : ∀ x0 s, (installTouch x0 s).kept = s.kept := by
  intro x0 s
  unfold installTouch
  (try dsimp only)
  repeat' (first | with_reducible rfl | simp only [kept_upd, kept_ite, State.updSlice_kept] | split | (refine (foldl_kept _ _ _ ?_).trans ?_; (intro _ _; try dsimp only)))
theorem mcPlace_kept : ∀ s x0, (mcPlace s x0).kept = s.kept := by
  intro s x0
  unfold mcPlace
  (try dsimp only)
  repeat' (first | with_reducible rfl | simp only [kept_upd, kept_ite] | split | (refine (foldl_kept _ _ _ ?_).trans ?_; (intro _ _; try dsimp only)))
theorem injectMc_kept : ∀ x0 x1 x2 s, (injectMc x0 x1 x2 s).kept = s.kept := by
  intro x0 x1 x2 s
  unfold injectMc
  (try dsimp only)
  repeat' (first | with_reducible rfl | simp only [kept_upd, kept_ite, lineReturn_kept, victReturn_kept, tagReturn_kept, kick_kept] | split | (refine (foldl_kept _ _ _ ?_).trans ?_; (intro _ _; try dsimp only)))
theorem injectEnd_kept : ∀ x0 x1 x2 x3 s, (injectEnd x0 x1 x2 x3 s).kept.base = s.kept.base := by
  intro x0 x1 x2 x3 s
  unfold injectEnd
  (try dsimp only)
  repeat' (first | with_reducible rfl | simp only [kept_upd, base_upd, base_ite, kept_ite, retireMark_kept, State.updSlice_kept] | split | (refine (foldl_kept_base _ _ _ ?_).trans ?_; (intro _ _; try dsimp only)))
theorem injectCtrl_kept : ∀ x0 x1 s, (injectCtrl x0 x1 s).kept.base = s.kept.base := by
  intro x0 x1 s
  unfold injectCtrl
  (try dsimp only)
  repeat' (first | with_reducible rfl | simp only [kept_upd, base_upd, base_ite, kept_ite, setPrefetch_kept, setPerm_kept, setMap_kept, kickAll_kept, setMask_kept, injectEnd_kept] | split | (refine (foldl_kept_base _ _ _ ?_).trans ?_; (intro _ _; try dsimp only)))
theorem injectWalk_kept : ∀ x0 x1 x2 s, (injectWalk x0 x1 x2 s).kept = s.kept := by
  intro x0 x1 x2 s
  unfold injectWalk
  (try dsimp only)
  repeat' (first | with_reducible rfl | simp only [kept_upd, kept_ite, walkAct_kept, walkPut_kept, patrolSet_kept, cmd_kept, reclTxn_kept] | split | (refine (foldl_kept _ _ _ ?_).trans ?_; (intro _ _; try dsimp only)))
theorem injectCand_kept : ∀ x0 s, (injectCand x0 s).kept = s.kept := by
  intro x0 s
  unfold injectCand
  (try dsimp only)
  repeat' (first | with_reducible rfl | simp only [kept_upd, kept_ite, candidate_kept, State.updSlice_kept] | split | (refine (foldl_kept _ _ _ ?_).trans ?_; (intro _ _; try dsimp only)))
theorem inject_kept : ∀ x0 x1 s, (inject x0 x1 s).kept.base = s.kept.base := by
  intro x0 x1 s
  unfold inject
  (try dsimp only)
  repeat' (first | with_reducible rfl | simp only [kept_upd, base_upd, base_ite, kept_ite, updTxn_kept, applyAnswer_kept, injectMc_kept, arbitrate_kept, injectWalk_kept, run_kept, hashLook_kept, hubApply_kept, farEnd_kept, homeSnoop_kept, accept_kept, hashServe_kept, injectCand_kept, injectCtrl_kept, State.updSlice_kept, kick_kept] | split | (refine (foldl_kept_base _ _ _ ?_).trans ?_; (intro _ _; try dsimp only)))
theorem diverge_kept : ∀ x0 x1 x2 x3 s, (diverge x0 x1 x2 x3 s).kept.base = s.kept.base := by
  intro x0 x1 x2 x3 s
  unfold diverge
  (try dsimp only)
  repeat' (first | with_reducible rfl | simp only [kept_upd, base_upd, base_ite, kept_ite, replayEnd_kept, postEvent_kept] | split | (refine (foldl_kept_base _ _ _ ?_).trans ?_; (intro _ _; try dsimp only)))
theorem compareOut_kept : ∀ x0 s, (compareOut x0 s).kept.base = s.kept.base := by
  intro x0 s
  unfold compareOut
  (try dsimp only)
  repeat' (first | with_reducible rfl | simp only [kept_upd, base_upd, base_ite, kept_ite, diverge_kept] | split | (refine (foldl_kept_base _ _ _ ?_).trans ?_; (intro _ _; try dsimp only)))
theorem replayIn_kept : ∀ x0 s x1, (replayIn x0 s x1).kept.base = s.kept.base := by
  intro x0 s x1
  unfold replayIn
  (try dsimp only)
  repeat' (first | with_reducible rfl | simp only [kept_upd, base_upd, base_ite, kept_ite, inject_kept, installTouch_kept] | split | (refine (foldl_kept_base _ _ _ ?_).trans ?_; (intro _ _; try dsimp only)))
theorem replayOut_kept : ∀ s x0, (replayOut s x0).kept.base = s.kept.base := by
  intro s x0
  unfold replayOut
  (try dsimp only)
  repeat' (first | with_reducible rfl | simp only [kept_upd, base_upd, base_ite, kept_ite, compareOut_kept] | split | (refine (foldl_kept_base _ _ _ ?_).trans ?_; (intro _ _; try dsimp only)))
theorem replayGroup_kept : ∀ s x0, (replayGroup s x0).kept.base = s.kept.base := by
  intro s x0
  unfold replayGroup
  (try dsimp only)
  repeat' (first | with_reducible rfl | simp only [kept_upd, base_upd, base_ite, kept_ite, mcPlace_kept, replayIn_kept, replayOut_kept, diverge_kept, foldl_kept] | split | (refine (foldl_kept_base _ _ _ ?_).trans ?_; (intro _ _; try dsimp only)))
theorem replayCycle_kept : ∀ x0 x1 s, (replayCycle x0 x1 s).kept.base = s.kept.base := by
  intro x0 x1 s
  unfold replayCycle
  (try dsimp only)
  repeat' (first | with_reducible rfl | simp only [kept_upd, base_upd, base_ite, kept_ite, replayEnd_kept, diverge_kept, replayGroup_kept, diverge_kept] | split | (refine (foldl_kept_base _ _ _ ?_).trans ?_; (intro _ _; try dsimp only)))
theorem doneUp_kept : ∀ s, (doneUp s).kept = s.kept := by
  intro s
  unfold doneUp
  (try dsimp only)
  repeat' (first | with_reducible rfl | simp only [kept_upd, kept_ite] | split | (refine (foldl_kept _ _ _ ?_).trans ?_; (intro _ _; try dsimp only)))
theorem abortCmd_kept : ∀ x0 x1 s, (abortCmd x0 x1 s).kept = s.kept := by
  intro x0 x1 s
  unfold abortCmd
  (try dsimp only)
  repeat' (first | with_reducible rfl | simp only [kept_upd, kept_ite, finish_kept] | split | (refine (foldl_kept _ _ _ ?_).trans ?_; (intro _ _; try dsimp only)))
theorem walksStop_kept : ∀ s, (walksStop s).kept = s.kept := by
  intro s
  unfold walksStop
  (try dsimp only)
  repeat' (first | with_reducible rfl | simp only [kept_upd, kept_ite, finish_kept, State.updSlice_kept] | split | (refine (foldl_kept _ _ _ ?_).trans ?_; (intro _ _; try dsimp only)))
theorem streamsAbort_kept : ∀ s, (streamsAbort s).kept = s.kept := by
  intro s
  unfold streamsAbort
  (try dsimp only)
  repeat' (first | with_reducible rfl | simp only [kept_upd, kept_ite, State.updCtx_kept, finish_kept] | split | (refine (foldl_kept _ _ _ ?_).trans ?_; (intro _ _; try dsimp only)))
theorem drainEnter_kept : ∀ x0 x1 s, (drainEnter x0 x1 s).kept.base = s.kept.base := by
  intro x0 x1 s
  unfold drainEnter
  (try dsimp only)
  repeat' (first | with_reducible rfl | simp only [kept_upd, base_upd, base_ite, kept_ite, sendMsix_kept, recStop_kept, State.updSlice_kept, replayEnd_kept, closeCombines_kept, walksStop_kept, postEvent_kept, streamsAbort_kept, changeMode_kept, abandonSigs_kept, quiesceFail_kept, tearAll_kept, recompute_kept, State.updPort_kept, abortCmd_kept] | split | (refine (foldl_kept_base _ _ _ ?_).trans ?_; (intro _ _; try dsimp only)))
theorem drainCause_kept : ∀ x0 x1 s, (drainCause x0 x1 s).kept.base = s.kept.base := by
  intro x0 x1 s
  unfold drainCause
  (try dsimp only)
  repeat' (first | with_reducible rfl | simp only [kept_upd, base_upd, base_ite, kept_ite, drainEnter_kept, doneUp_kept] | split | (refine (foldl_kept_base _ _ _ ?_).trans ?_; (intro _ _; try dsimp only)))
theorem endDataless_kept : ∀ s, (endDataless s).kept = s.kept := by
  intro s
  unfold endDataless
  (try dsimp only)
  repeat' (first | with_reducible rfl | simp only [kept_upd, kept_ite, wrLose_kept, endPull_kept, State.updPort_kept, State.updSlice_kept] | split | (refine (foldl_kept _ _ _ ?_).trans ?_; (intro _ _; try dsimp only)))
theorem quiesceEnd_kept : ∀ s, (quiesceEnd s).kept = s.kept := by
  intro s
  unfold quiesceEnd
  (try dsimp only)
  repeat' (first | with_reducible rfl | simp only [kept_upd, kept_ite, endDataless_kept] | split | (refine (foldl_kept _ _ _ ?_).trans ?_; (intro _ _; try dsimp only)))
theorem drainRecord_kept : ∀ x0 s, (drainRecord x0 s).kept = s.kept := by
  intro x0 s
  unfold drainRecord
  (try dsimp only)
  repeat' (first | with_reducible rfl | simp only [kept_upd, kept_ite, formRecord_kept, sealPoint_kept] | split | (refine (foldl_kept _ _ _ ?_).trans ?_; (intro _ _; try dsimp only)))
theorem gpfEnd_kept : ∀ s, (gpfEnd s).kept = s.kept := by
  intro s
  unfold gpfEnd
  (try dsimp only)
  repeat' (first | with_reducible rfl | simp only [kept_upd, kept_ite] | split | (refine (foldl_kept _ _ _ ?_).trans ?_; (intro _ _; try dsimp only)))
theorem gpfSend_kept : ∀ x0 s, (gpfSend x0 s).kept = s.kept := by
  intro x0 s
  unfold gpfSend
  (try dsimp only)
  repeat' (first | with_reducible rfl | simp only [kept_upd, kept_ite, phase_kept, gpfEnd_kept, State.put_kept] | split | (refine (foldl_kept _ _ _ ?_).trans ?_; (intro _ _; try dsimp only)))
theorem gpfAnswer_kept : ∀ x0 x1 x2 s, (gpfAnswer x0 x1 x2 s).kept = s.kept := by
  intro x0 x1 x2 s
  unfold gpfAnswer
  (try dsimp only)
  repeat' (first | with_reducible rfl | simp only [kept_upd, kept_ite, phase_kept, gpfEnd_kept] | split | (refine (foldl_kept _ _ _ ?_).trans ?_; (intro _ _; try dsimp only)))
theorem drainEnd_kept : ∀ s, (drainEnd s).kept = s.kept := by
  intro s
  unfold drainEnd
  (try dsimp only)
  repeat' (first | with_reducible rfl | simp only [kept_upd, kept_ite, finish_kept, postEvent_kept, sendMsix_kept, doneUp_kept] | split | (refine (foldl_kept _ _ _ ?_).trans ?_; (intro _ _; try dsimp only)))
theorem resumeTo_kept : ∀ x0 s, (resumeTo x0 s).kept = s.kept := by
  intro x0 s
  unfold resumeTo
  (try dsimp only)
  repeat' (first | with_reducible rfl | simp only [kept_upd, kept_ite, recompute_kept, replayClean_kept, changeMode_kept, declareLost_kept] | split | (refine (foldl_kept _ _ _ ?_).trans ?_; (intro _ _; try dsimp only)))
theorem warmBegin_kept : ∀ s, (warmBegin s).kept = s.kept := by
  intro s
  unfold warmBegin
  (try dsimp only)
  repeat' (first | with_reducible rfl | simp only [kept_upd, kept_ite, closeCombines_kept, recStop_kept, tearAll_kept] | split | (refine (foldl_kept _ _ _ ?_).trans ?_; (intro _ _; try dsimp only)))
theorem voteFixed_kept : ∀ x0 s, (voteFixed x0 s).kept = s.kept := by
  intro x0 s
  unfold voteFixed
  (try dsimp only)
  repeat' (first | with_reducible rfl | simp only [kept_upd, kept_ite, logErr_kept, cntErr_kept] | split | (refine (foldl_kept _ _ _ ?_).trans ?_; (intro _ _; try dsimp only)))
theorem voteOne_kept : ∀ x0 x1 s, (voteOne x0 x1 s).kept = s.kept := by
  intro x0 x1 s
  unfold voteOne
  (try dsimp only)
  repeat' (first | with_reducible rfl | simp only [kept_upd, kept_ite, voteFixed_kept] | split | (refine (foldl_kept _ _ _ ?_).trans ?_; (intro _ _; try dsimp only)))
theorem voteAll_kept : ∀ x0 x1 s, (voteAll x0 x1 s).kept.base = s.kept.base := by
  intro x0 x1 s
  unfold voteAll
  (try dsimp only)
  repeat' (first | with_reducible rfl | simp only [kept_upd, base_upd, base_ite, kept_ite, logErr_kept, writeMode_kept, txnLost_kept, drainCause_kept, testFailed_kept] | split | (refine (foldl_kept_base _ _ _ ?_).trans ?_; (intro _ _; try dsimp only)))
theorem shutDown_kept : ∀ s, (shutDown s).kept = s.kept := by
  intro s
  unfold shutDown
  (try dsimp only)
  repeat' (first | with_reducible rfl | simp only [kept_upd, kept_ite] | split | (refine (foldl_kept _ _ _ ?_).trans ?_; (intro _ _; try dsimp only)))
theorem trip_kept : ∀ s, (trip s).kept.base = s.kept.base := by
  intro s
  unfold trip
  (try dsimp only)
  repeat' (first | with_reducible rfl | simp only [kept_upd, base_upd, base_ite, kept_ite, drainCause_kept] | split | (refine (foldl_kept_base _ _ _ ?_).trans ?_; (intro _ _; try dsimp only)))
theorem sample_kept : ∀ x0 s, (sample x0 s).kept.base = s.kept.base := by
  intro x0 s
  unfold sample
  (try dsimp only)
  repeat' (first | with_reducible rfl | simp only [kept_upd, base_upd, base_ite, kept_ite, shutDown_kept, setLevel_kept, trip_kept] | split | (refine (foldl_kept_base _ _ _ ?_).trans ?_; (intro _ _; try dsimp only)))
theorem cycleDue_kept : ∀ x0 s, (cycleDue x0 s).kept = s.kept := by
  intro x0 s
  unfold cycleDue
  (try dsimp only)
  repeat' (first | with_reducible rfl | simp only [kept_upd, kept_ite] | split | (refine (foldl_kept _ _ _ ?_).trans ?_; (intro _ _; try dsimp only)))
theorem hoursTo_kept : ∀ x0 s, (hoursTo x0 s).kept = s.kept := by
  intro x0 s
  unfold hoursTo
  (try dsimp only)
  repeat' (first | with_reducible rfl | simp only [kept_upd, kept_ite, cycleDue_kept] | split | (refine (foldl_kept _ _ _ ?_).trans ?_; (intro _ _; try dsimp only)))
theorem writeHours_kept : ∀ s, (writeHours s).kept = s.kept := by
  intro s
  unfold writeHours
  (try dsimp only)
  repeat' (first | with_reducible rfl | simp only [kept_upd, kept_ite, healthJob_kept] | split | (refine (foldl_kept _ _ _ ?_).trans ?_; (intro _ _; try dsimp only)))
theorem linkPlans_kept : ∀ x0 s, (linkPlans x0 s).kept = s.kept := by
  intro x0 s
  unfold linkPlans
  (try dsimp only)
  repeat' (first | with_reducible rfl | simp only [kept_upd, kept_ite, State.updFar_kept, State.updPort_kept] | split | (refine (foldl_kept _ _ _ ?_).trans ?_; (intro _ _; try dsimp only)))
theorem eyePlan_kept : ∀ s, (eyePlan s).kept = s.kept := by
  intro s
  unfold eyePlan
  (try dsimp only)
  repeat' (first | with_reducible rfl | simp only [kept_upd, kept_ite] | split | (refine (foldl_kept _ _ _ ?_).trans ?_; (intro _ _; try dsimp only)))
theorem planEnd_kept : ∀ s, (planEnd s).kept = s.kept := by
  intro s
  unfold planEnd
  (try dsimp only)
  repeat' (first | with_reducible rfl | simp only [kept_upd, kept_ite, finish_kept] | split | (refine (foldl_kept _ _ _ ?_).trans ?_; (intro _ _; try dsimp only)))
theorem cycleEnd_kept : ∀ x0 s, (cycleEnd x0 s).kept = s.kept := by
  intro x0 s
  unfold cycleEnd
  (try dsimp only)
  repeat' (first | with_reducible rfl | simp only [kept_upd, kept_ite, recompute_kept, linkPlans_kept, healthJob_kept, postEvent_kept, eyePlan_kept, logErr_kept, planEnd_kept, writeHours_kept] | split | (refine (foldl_kept _ _ _ ?_).trans ?_; (intro _ _; try dsimp only)))
theorem useConfig_kept : ∀ s, (useConfig s).kept = s.kept := by
  intro s
  unfold useConfig
  (try dsimp only)
  repeat' (first | with_reducible rfl | simp only [kept_upd, kept_ite, State.updFar_kept, State.updPort_kept] | split | (refine (foldl_kept _ _ _ ?_).trans ?_; (intro _ _; try dsimp only)))
theorem resetState_pending (s : State) : (resetState s).pending = s.pending := rfl
theorem unwrapKeys_kept : ∀ x0 x1 s, (unwrapKeys x0 x1 s).kept.base = s.kept.base := by
  intro x0 x1 s
  unfold unwrapKeys
  (try dsimp only)
  repeat' (first | with_reducible rfl | simp only [kept_upd, base_upd, base_ite, kept_ite, setKeySt_kept, postEvent_kept] | split | (refine (foldl_kept_base _ _ _ ?_).trans ?_; (intro _ _; try dsimp only)))
theorem trainAll_kept : ∀ s, (trainAll s).kept = s.kept := by
  intro s
  unfold trainAll
  (try dsimp only)
  repeat' (first | with_reducible rfl | simp only [kept_upd, kept_ite, trainPort_kept] | split | (refine (foldl_kept _ _ _ ?_).trans ?_; (intro _ _; try dsimp only)))
theorem firmwareRuns_kept : ∀ x0 x1 x2 x3 s, (firmwareRuns x0 x1 x2 x3 s).kept.base = s.kept.base := by
  intro x0 x1 x2 x3 s
  unfold firmwareRuns
  (try dsimp only)
  repeat' (first | with_reducible rfl | simp only [kept_upd, base_upd, base_ite, kept_ite, bootPolicy_kept, useConfig_kept, cycleDue_kept, cryptoError_kept, unwrapKeys_kept, trainAll_kept] | split | (refine (foldl_kept_base _ _ _ ?_).trans ?_; (intro _ _; try dsimp only)))
theorem firmwareStart_kept : ∀ x0 x1 x2 x3 s, (firmwareStart x0 x1 x2 x3 s).kept.base = s.kept.base := by
  intro x0 x1 x2 x3 s
  unfold firmwareStart
  (try dsimp only)
  repeat' (first | with_reducible rfl | simp only [kept_upd, base_upd, base_ite, kept_ite, firmwareRuns_kept] | split | (refine (foldl_kept_base _ _ _ ?_).trans ?_; (intro _ _; try dsimp only)))
theorem applyRetire_kept : ∀ s, (applyRetire s).kept = s.kept := by
  intro s
  unfold applyRetire
  (try dsimp only)
  repeat' (first | with_reducible rfl | simp only [kept_upd, kept_ite, postEvent_kept] | split | (refine (foldl_kept _ _ _ ?_).trans ?_; (intro _ _; try dsimp only)))
theorem dirtyRead_kept : ∀ x0 x1 s, (dirtyRead x0 x1 s).kept = s.kept := by
  intro x0 x1 s
  unfold dirtyRead
  (try dsimp only)
  repeat' (first | with_reducible rfl | simp only [kept_upd, kept_ite, healthJob_kept, postEvent_kept] | split | (refine (foldl_kept _ _ _ ?_).trans ?_; (intro _ _; try dsimp only)))
theorem recovered_kept : ∀ x0 x1 x2 x3 x4 x5 s, (recovered x0 x1 x2 x3 x4 x5 s).kept = s.kept := by
  intro x0 x1 x2 x3 x4 x5 s
  unfold recovered
  (try dsimp only)
  repeat' (first | with_reducible rfl | simp only [kept_upd, kept_ite, recompute_kept, finish_kept, dirtyRead_kept, State.updFar_kept, logErr_kept, retryDead_kept] | split | (refine (foldl_kept _ _ _ ?_).trans ?_; (intro _ _; try dsimp only)))
theorem enumerated_kept : ∀ x0 x1 s, (enumerated x0 x1 s).kept = s.kept := by
  intro x0 x1 s
  unfold enumerated
  (try dsimp only)
  repeat' (first | with_reducible rfl | simp only [kept_upd, kept_ite, dirtyRead_kept, State.updFar_kept] | split | (refine (foldl_kept _ _ _ ?_).trans ?_; (intro _ _; try dsimp only)))
theorem warmReboot_kept : ∀ s, (warmReboot s).kept.base = s.kept.base := by
  intro s
  unfold warmReboot
  (try dsimp only)
  repeat' (first | with_reducible rfl | simp only [kept_upd, base_upd, base_ite, kept_ite, resetControl_kept, changeMode_kept, recompute_kept] | split | (refine (foldl_kept_base _ _ _ ?_).trans ?_; (intro _ _; try dsimp only)))
theorem areaErased_kept : ∀ x0 s, (areaErased x0 s).kept = s.kept := by
  intro x0 s
  unfold areaErased
  (try dsimp only)
  repeat' (first | with_reducible rfl | simp only [kept_upd, kept_ite] | split | (refine (foldl_kept _ _ _ ?_).trans ?_; (intro _ _; try dsimp only)))
theorem committed_kept : ∀ x0 s, (committed x0 s).kept = s.kept := by
  intro x0 s
  unfold committed
  (try dsimp only)
  repeat' (first | with_reducible rfl | simp only [kept_upd, kept_ite, finish_kept] | split | (refine (foldl_kept _ _ _ ?_).trans ?_; (intro _ _; try dsimp only)))
theorem activated_kept : ∀ x0 s, (activated x0 s).kept.base = s.kept.base := by
  intro x0 s
  unfold activated
  (try dsimp only)
  repeat' (first | with_reducible rfl | simp only [kept_upd, base_upd, base_ite, kept_ite, updProg_kept, finish_kept, resetControl_kept, warmBegin_kept] | split | (refine (foldl_kept_base _ _ _ ?_).trans ?_; (intro _ _; try dsimp only)))
theorem configWritten_kept : ∀ x0 s, (configWritten x0 s).kept = s.kept := by
  intro x0 s
  unfold configWritten
  (try dsimp only)
  repeat' (first | with_reducible rfl | simp only [kept_upd, kept_ite, finish_kept] | split | (refine (foldl_kept _ _ _ ?_).trans ?_; (intro _ _; try dsimp only)))
theorem jobEnd_kept : ∀ x0 s, (jobEnd x0 s).kept.base = s.kept.base := by
  intro x0 s
  unfold jobEnd
  (try dsimp only)
  repeat' (first | with_reducible rfl | simp only [kept_upd, base_upd, base_ite, kept_ite, zeroiseDone_kept, sealKeyDone_kept, finish_kept, committed_kept, activated_kept, identityDone_kept, configWritten_kept] | split | (refine (foldl_kept_base _ _ _ ?_).trans ?_; (intro _ _; try dsimp only)))
theorem bootDrain_kept : ∀ s, (bootDrain s).kept = s.kept := by
  intro s
  unfold bootDrain
  (try dsimp only)
  repeat' (first | with_reducible rfl | simp only [kept_upd, kept_ite, doneUp_kept] | split | (refine (foldl_kept _ _ _ ?_).trans ?_; (intro _ _; try dsimp only)))
theorem flashDone_kept : ∀ x0 s, (flashDone x0 s).kept.base = s.kept.base := by
  intro x0 s
  unfold flashDone
  (try dsimp only)
  repeat' (first | with_reducible rfl | simp only [kept_upd, base_upd, base_ite, kept_ite, doneUp_kept, jobEnd_kept, bootDrain_kept] | split | (refine (foldl_kept_base _ _ _ ?_).trans ?_; (intro _ _; try dsimp only)))
theorem readClears_kept : ∀ x0 s, (readClears x0 s).kept = s.kept := by
  intro x0 s
  unfold readClears
  (try dsimp only)
  repeat' (first | with_reducible rfl | simp only [kept_upd, kept_ite, fifoClear_kept] | split | (refine (foldl_kept _ _ _ ?_).trans ?_; (intro _ _; try dsimp only)))
theorem barRead_kept : ∀ x0 x1 s, (barRead x0 x1 s).kept = s.kept := by
  intro x0 x1 s
  unfold barRead
  (try dsimp only)
  repeat' (first | with_reducible rfl | simp only [kept_upd, kept_ite, badAccess_kept, readClears_kept, counterRd_kept, dropPending_kept, State.put_kept, evfRead_kept] | split | (refine (foldl_kept _ _ _ ?_).trans ?_; (intro _ _; try dsimp only)))
theorem mirror_kept : ∀ s, (mirror s).kept = s.kept := by
  intro s
  unfold mirror
  (try dsimp only)
  repeat' (first | with_reducible rfl | simp only [kept_upd, kept_ite] | split | (refine (foldl_kept _ _ _ ?_).trans ?_; (intro _ _; try dsimp only)))
theorem idleFlits_kept : ∀ x0 s, (idleFlits x0 s).kept = s.kept := by
  intro x0 s
  unfold idleFlits
  (try dsimp only)
  repeat' (first | with_reducible rfl | simp only [kept_upd, kept_ite, State.updPort_kept, monPort_kept] | split | (refine (foldl_kept _ _ _ ?_).trans ?_; (intro _ _; try dsimp only)))
theorem portClock_kept : ∀ x0 x1 s, (portClock x0 x1 s).kept = s.kept := by
  intro x0 x1 s
  unfold portClock
  (try dsimp only)
  repeat' (first | with_reducible rfl | simp only [kept_upd, kept_ite, State.updPort_kept, replayFrom_kept, monPort_kept, monPortWord_kept, idleFlits_kept] | split | (refine (foldl_kept _ _ _ ?_).trans ?_; (intro _ _; try dsimp only)))
theorem openSum_kept : ∀ x0 s, (openSum x0 s).kept = s.kept := by
  intro x0 s
  unfold openSum
  (try dsimp only)
  repeat' (first | with_reducible rfl | simp only [kept_upd, kept_ite, monSys_kept] | split | (refine (foldl_kept _ _ _ ?_).trans ?_; (intro _ _; try dsimp only)))
theorem coreTick_kept : ∀ s, (coreTick s).kept = s.kept := by
  intro s
  unfold coreTick
  (try dsimp only)
  repeat' (first | with_reducible rfl | simp only [kept_upd, kept_ite, portClock_kept, monOvf_kept, State.updSlice_kept, openSum_kept] | split | (refine (foldl_kept _ _ _ ?_).trans ?_; (intro _ _; try dsimp only)))
theorem aoTick_kept : ∀ s, (aoTick s).kept = s.kept := by
  intro s
  unfold aoTick
  (try dsimp only)
  repeat' (first | with_reducible rfl | simp only [kept_upd, kept_ite, hoursTo_kept, run_kept] | split | (refine (foldl_kept _ _ _ ?_).trans ?_; (intro _ _; try dsimp only)))
theorem live_kept (s t : State) (h : t.kept = s.kept) : (live s t).kept = s.kept := by unfold live; split <;> [rfl; exact h]
theorem live_kept_base (s t : State) (h : t.kept.base = s.kept.base) : (live s t).kept.base = s.kept.base := by unfold live; split <;> [rfl; exact h]
theorem ctl_kept (s t : State) (h : t.kept = s.kept) : (ctl s t).kept = s.kept := by unfold ctl; split <;> [rfl; exact h]
theorem ctl_kept_base (s t : State) (h : t.kept.base = s.kept.base) : (ctl s t).kept.base = s.kept.base := by unfold ctl; split <;> [rfl; exact h]
theorem clocked_kept (s t : State) (h : t.kept = s.kept) : (clocked s t).kept = s.kept := by
  unfold clocked; split <;> [rfl; rw [rowEnd_kept, h]]
theorem clocked_kept_base (s t : State) (h : t.kept.base = s.kept.base) : (clocked s t).kept.base = s.kept.base := by
  unfold clocked; split <;> [rfl; rw [show (rowEnd s t).kept.base = t.kept.base by rw [rowEnd_kept], h]]
theorem alu_kept (i sl gd op n rd f s) : ∃ t, alu i sl gd op n rd f s = .next t ∧ t.kept = s.kept := ⟨_, rfl, issue_kept _ _ _ _ _ _ (fun _ => wrG_kept _ _ _ _ _)⟩
theorem cmpr_kept (i sl gd op rd f s) : ∃ t, cmpr i sl gd op rd f s = .next t ∧ t.kept = s.kept := ⟨_, rfl, issue_kept _ _ _ _ _ _ (fun _ => wrP_kept _ _ _ _)⟩

end Sys2Proof.Machine
end

