-- ==== Sys2Proof/Laws/State.lean ====
section
/-! SUPPORT. What each update of a part of the state leaves alone, field by field, and a read after a write of a part. -/
namespace Sys2Proof.Machine

@[simp] theorem State.updPort_ao (s : State) (p : Nat) (f : Port → Port) : (s.updPort p f).ao = s.ao := rfl
@[simp] theorem State.updPort_trip (s : State) (p : Nat) (f : Port → Port) : (s.updPort p f).trip = s.trip := rfl
@[simp] theorem State.updPort_regs (s : State) (p : Nat) (f : Port → Port) : (s.updPort p f).regs = s.regs := rfl
@[simp] theorem State.updPort_cp (s : State) (p : Nat) (f : Port → Port) : (s.updPort p f).cp = s.cp := rfl
@[simp] theorem State.updPort_regions (s : State) (p : Nat) (f : Port → Port) : (s.updPort p f).regions = s.regions := rfl
@[simp] theorem State.updPort_cache (s : State) (p : Nat) (f : Port → Port) : (s.updPort p f).cache = s.cache := rfl
@[simp] theorem State.updPort_pol (s : State) (p : Nat) (f : Port → Port) : (s.updPort p f).pol = s.pol := rfl
@[simp] theorem State.updPort_slices (s : State) (p : Nat) (f : Port → Port) : (s.updPort p f).slices = s.slices := rfl
@[simp] theorem State.updPort_str (s : State) (p : Nat) (f : Port → Port) : (s.updPort p f).str = s.str := rfl
@[simp] theorem State.updPort_keys (s : State) (p : Nat) (f : Port → Port) : (s.updPort p f).keys = s.keys := rfl
@[simp] theorem State.updPort_drain (s : State) (p : Nat) (f : Port → Port) : (s.updPort p f).drain = s.drain := rfl
@[simp] theorem State.updPort_regl (s : State) (p : Nat) (f : Port → Port) : (s.updPort p f).regl = s.regl := rfl
@[simp] theorem State.updPort_err (s : State) (p : Nat) (f : Port → Port) : (s.updPort p f).err = s.err := rfl
@[simp] theorem State.updPort_boot (s : State) (p : Nat) (f : Port → Port) : (s.updPort p f).boot = s.boot := rfl
@[simp] theorem State.updPort_rec_ (s : State) (p : Nat) (f : Port → Port) : (s.updPort p f).rec_ = s.rec_ := rfl
@[simp] theorem State.updPort_age (s : State) (p : Nat) (f : Port → Port) : (s.updPort p f).age = s.age := rfl
@[simp] theorem State.updPort_cycle (s : State) (p : Nat) (f : Port → Port) : (s.updPort p f).cycle = s.cycle := rfl
@[simp] theorem State.updPort_nextId (s : State) (p : Nat) (f : Port → Port) : (s.updPort p f).nextId = s.nextId := rfl
@[simp] theorem State.updPort_free (s : State) (p : Nat) (f : Port → Port) : (s.updPort p f).free = s.free := rfl
@[simp] theorem State.updPort_out (s : State) (p : Nat) (f : Port → Port) : (s.updPort p f).out = s.out := rfl
@[simp] theorem State.updPort_pending (s : State) (p : Nat) (f : Port → Port) : (s.updPort p f).pending = s.pending := rfl
@[simp] theorem State.updPort_mode (s : State) (p : Nat) (f : Port → Port) : (s.updPort p f).mode = s.mode := rfl
@[simp] theorem State.updPort_off (s : State) (p : Nat) (f : Port → Port) : (s.updPort p f).off = s.off := rfl
@[simp] theorem State.updPort_nPorts (s : State) (p : Nat) (f : Port → Port) : (s.updPort p f).nPorts = s.nPorts := rfl
@[simp] theorem State.updPort_nFar (s : State) (p : Nat) (f : Port → Port) : (s.updPort p f).nFar = s.nFar := rfl
@[simp] theorem State.updPort_popK (s : State) (p : Nat) (f : Port → Port) : (s.updPort p f).popK = s.popK := rfl
@[simp] theorem State.updPort_nSets (s : State) (p : Nat) (f : Port → Port) : (s.updPort p f).nSets = s.nSets := rfl
@[simp] theorem State.updPort_deaf (s : State) (p : Nat) (f : Port → Port) : (s.updPort p f).deaf = s.deaf := rfl

@[simp] theorem State.updFar_ao (s : State) (p : Nat) (f : FarPort → FarPort) : (s.updFar p f).ao = s.ao := rfl
@[simp] theorem State.updFar_trip (s : State) (p : Nat) (f : FarPort → FarPort) : (s.updFar p f).trip = s.trip := rfl
@[simp] theorem State.updFar_regs (s : State) (p : Nat) (f : FarPort → FarPort) : (s.updFar p f).regs = s.regs := rfl
@[simp] theorem State.updFar_cp (s : State) (p : Nat) (f : FarPort → FarPort) : (s.updFar p f).cp = s.cp := rfl
@[simp] theorem State.updFar_regions (s : State) (p : Nat) (f : FarPort → FarPort) : (s.updFar p f).regions = s.regions := rfl
@[simp] theorem State.updFar_cache (s : State) (p : Nat) (f : FarPort → FarPort) : (s.updFar p f).cache = s.cache := rfl
@[simp] theorem State.updFar_pol (s : State) (p : Nat) (f : FarPort → FarPort) : (s.updFar p f).pol = s.pol := rfl
@[simp] theorem State.updFar_slices (s : State) (p : Nat) (f : FarPort → FarPort) : (s.updFar p f).slices = s.slices := rfl
@[simp] theorem State.updFar_str (s : State) (p : Nat) (f : FarPort → FarPort) : (s.updFar p f).str = s.str := rfl
@[simp] theorem State.updFar_keys (s : State) (p : Nat) (f : FarPort → FarPort) : (s.updFar p f).keys = s.keys := rfl
@[simp] theorem State.updFar_drain (s : State) (p : Nat) (f : FarPort → FarPort) : (s.updFar p f).drain = s.drain := rfl
@[simp] theorem State.updFar_regl (s : State) (p : Nat) (f : FarPort → FarPort) : (s.updFar p f).regl = s.regl := rfl
@[simp] theorem State.updFar_err (s : State) (p : Nat) (f : FarPort → FarPort) : (s.updFar p f).err = s.err := rfl
@[simp] theorem State.updFar_boot (s : State) (p : Nat) (f : FarPort → FarPort) : (s.updFar p f).boot = s.boot := rfl
@[simp] theorem State.updFar_rec_ (s : State) (p : Nat) (f : FarPort → FarPort) : (s.updFar p f).rec_ = s.rec_ := rfl
@[simp] theorem State.updFar_age (s : State) (p : Nat) (f : FarPort → FarPort) : (s.updFar p f).age = s.age := rfl
@[simp] theorem State.updFar_cycle (s : State) (p : Nat) (f : FarPort → FarPort) : (s.updFar p f).cycle = s.cycle := rfl
@[simp] theorem State.updFar_nextId (s : State) (p : Nat) (f : FarPort → FarPort) : (s.updFar p f).nextId = s.nextId := rfl
@[simp] theorem State.updFar_free (s : State) (p : Nat) (f : FarPort → FarPort) : (s.updFar p f).free = s.free := rfl
@[simp] theorem State.updFar_out (s : State) (p : Nat) (f : FarPort → FarPort) : (s.updFar p f).out = s.out := rfl
@[simp] theorem State.updFar_pending (s : State) (p : Nat) (f : FarPort → FarPort) : (s.updFar p f).pending = s.pending := rfl
@[simp] theorem State.updFar_mode (s : State) (p : Nat) (f : FarPort → FarPort) : (s.updFar p f).mode = s.mode := rfl
@[simp] theorem State.updFar_off (s : State) (p : Nat) (f : FarPort → FarPort) : (s.updFar p f).off = s.off := rfl
@[simp] theorem State.updFar_nPorts (s : State) (p : Nat) (f : FarPort → FarPort) : (s.updFar p f).nPorts = s.nPorts := rfl
@[simp] theorem State.updFar_nFar (s : State) (p : Nat) (f : FarPort → FarPort) : (s.updFar p f).nFar = s.nFar := rfl
@[simp] theorem State.updFar_popK (s : State) (p : Nat) (f : FarPort → FarPort) : (s.updFar p f).popK = s.popK := rfl
@[simp] theorem State.updFar_nSets (s : State) (p : Nat) (f : FarPort → FarPort) : (s.updFar p f).nSets = s.nSets := rfl
@[simp] theorem State.updFar_deaf (s : State) (p : Nat) (f : FarPort → FarPort) : (s.updFar p f).deaf = s.deaf := rfl

@[simp] theorem State.updSlice_ao (s : State) (n : Nat) (f : Slice → Slice) : (s.updSlice n f).ao = s.ao := rfl
@[simp] theorem State.updSlice_trip (s : State) (n : Nat) (f : Slice → Slice) : (s.updSlice n f).trip = s.trip := rfl
@[simp] theorem State.updSlice_regs (s : State) (n : Nat) (f : Slice → Slice) : (s.updSlice n f).regs = s.regs := rfl
@[simp] theorem State.updSlice_cp (s : State) (n : Nat) (f : Slice → Slice) : (s.updSlice n f).cp = s.cp := rfl
@[simp] theorem State.updSlice_regions (s : State) (n : Nat) (f : Slice → Slice) : (s.updSlice n f).regions = s.regions := rfl
@[simp] theorem State.updSlice_cache (s : State) (n : Nat) (f : Slice → Slice) : (s.updSlice n f).cache = s.cache := rfl
@[simp] theorem State.updSlice_pol (s : State) (n : Nat) (f : Slice → Slice) : (s.updSlice n f).pol = s.pol := rfl
@[simp] theorem State.updSlice_links (s : State) (n : Nat) (f : Slice → Slice) : (s.updSlice n f).links = s.links := rfl
@[simp] theorem State.updSlice_str (s : State) (n : Nat) (f : Slice → Slice) : (s.updSlice n f).str = s.str := rfl
@[simp] theorem State.updSlice_keys (s : State) (n : Nat) (f : Slice → Slice) : (s.updSlice n f).keys = s.keys := rfl
@[simp] theorem State.updSlice_drain (s : State) (n : Nat) (f : Slice → Slice) : (s.updSlice n f).drain = s.drain := rfl
@[simp] theorem State.updSlice_regl (s : State) (n : Nat) (f : Slice → Slice) : (s.updSlice n f).regl = s.regl := rfl
@[simp] theorem State.updSlice_err (s : State) (n : Nat) (f : Slice → Slice) : (s.updSlice n f).err = s.err := rfl
@[simp] theorem State.updSlice_boot (s : State) (n : Nat) (f : Slice → Slice) : (s.updSlice n f).boot = s.boot := rfl
@[simp] theorem State.updSlice_rec_ (s : State) (n : Nat) (f : Slice → Slice) : (s.updSlice n f).rec_ = s.rec_ := rfl
@[simp] theorem State.updSlice_age (s : State) (n : Nat) (f : Slice → Slice) : (s.updSlice n f).age = s.age := rfl
@[simp] theorem State.updSlice_cycle (s : State) (n : Nat) (f : Slice → Slice) : (s.updSlice n f).cycle = s.cycle := rfl
@[simp] theorem State.updSlice_nextId (s : State) (n : Nat) (f : Slice → Slice) : (s.updSlice n f).nextId = s.nextId := rfl
@[simp] theorem State.updSlice_free (s : State) (n : Nat) (f : Slice → Slice) : (s.updSlice n f).free = s.free := rfl
@[simp] theorem State.updSlice_out (s : State) (n : Nat) (f : Slice → Slice) : (s.updSlice n f).out = s.out := rfl
@[simp] theorem State.updSlice_pending (s : State) (n : Nat) (f : Slice → Slice) : (s.updSlice n f).pending = s.pending := rfl
@[simp] theorem State.updSlice_mode (s : State) (n : Nat) (f : Slice → Slice) : (s.updSlice n f).mode = s.mode := rfl
@[simp] theorem State.updSlice_off (s : State) (n : Nat) (f : Slice → Slice) : (s.updSlice n f).off = s.off := rfl
@[simp] theorem State.updSlice_nPorts (s : State) (n : Nat) (f : Slice → Slice) : (s.updSlice n f).nPorts = s.nPorts := rfl
@[simp] theorem State.updSlice_nFar (s : State) (n : Nat) (f : Slice → Slice) : (s.updSlice n f).nFar = s.nFar := rfl
@[simp] theorem State.updSlice_popK (s : State) (n : Nat) (f : Slice → Slice) : (s.updSlice n f).popK = s.popK := rfl
@[simp] theorem State.updSlice_nSets (s : State) (n : Nat) (f : Slice → Slice) : (s.updSlice n f).nSets = s.nSets := rfl
@[simp] theorem State.updSlice_deaf (s : State) (n : Nat) (f : Slice → Slice) : (s.updSlice n f).deaf = s.deaf := rfl

@[simp] theorem State.updSeq_ao (s : State) (n : Nat) (f : Seq → Seq) : (s.updSeq n f).ao = s.ao := rfl
@[simp] theorem State.updSeq_trip (s : State) (n : Nat) (f : Seq → Seq) : (s.updSeq n f).trip = s.trip := rfl
@[simp] theorem State.updSeq_regs (s : State) (n : Nat) (f : Seq → Seq) : (s.updSeq n f).regs = s.regs := rfl
@[simp] theorem State.updSeq_cp (s : State) (n : Nat) (f : Seq → Seq) : (s.updSeq n f).cp = s.cp := rfl
@[simp] theorem State.updSeq_regions (s : State) (n : Nat) (f : Seq → Seq) : (s.updSeq n f).regions = s.regions := rfl
@[simp] theorem State.updSeq_cache (s : State) (n : Nat) (f : Seq → Seq) : (s.updSeq n f).cache = s.cache := rfl
@[simp] theorem State.updSeq_pol (s : State) (n : Nat) (f : Seq → Seq) : (s.updSeq n f).pol = s.pol := rfl
@[simp] theorem State.updSeq_links (s : State) (n : Nat) (f : Seq → Seq) : (s.updSeq n f).links = s.links := rfl
@[simp] theorem State.updSeq_str (s : State) (n : Nat) (f : Seq → Seq) : (s.updSeq n f).str = s.str := rfl
@[simp] theorem State.updSeq_keys (s : State) (n : Nat) (f : Seq → Seq) : (s.updSeq n f).keys = s.keys := rfl
@[simp] theorem State.updSeq_drain (s : State) (n : Nat) (f : Seq → Seq) : (s.updSeq n f).drain = s.drain := rfl
@[simp] theorem State.updSeq_regl (s : State) (n : Nat) (f : Seq → Seq) : (s.updSeq n f).regl = s.regl := rfl
@[simp] theorem State.updSeq_err (s : State) (n : Nat) (f : Seq → Seq) : (s.updSeq n f).err = s.err := rfl
@[simp] theorem State.updSeq_boot (s : State) (n : Nat) (f : Seq → Seq) : (s.updSeq n f).boot = s.boot := rfl
@[simp] theorem State.updSeq_rec_ (s : State) (n : Nat) (f : Seq → Seq) : (s.updSeq n f).rec_ = s.rec_ := rfl
@[simp] theorem State.updSeq_age (s : State) (n : Nat) (f : Seq → Seq) : (s.updSeq n f).age = s.age := rfl
@[simp] theorem State.updSeq_cycle (s : State) (n : Nat) (f : Seq → Seq) : (s.updSeq n f).cycle = s.cycle := rfl
@[simp] theorem State.updSeq_nextId (s : State) (n : Nat) (f : Seq → Seq) : (s.updSeq n f).nextId = s.nextId := rfl
@[simp] theorem State.updSeq_free (s : State) (n : Nat) (f : Seq → Seq) : (s.updSeq n f).free = s.free := rfl
@[simp] theorem State.updSeq_out (s : State) (n : Nat) (f : Seq → Seq) : (s.updSeq n f).out = s.out := rfl
@[simp] theorem State.updSeq_pending (s : State) (n : Nat) (f : Seq → Seq) : (s.updSeq n f).pending = s.pending := rfl
@[simp] theorem State.updSeq_mode (s : State) (n : Nat) (f : Seq → Seq) : (s.updSeq n f).mode = s.mode := rfl
@[simp] theorem State.updSeq_off (s : State) (n : Nat) (f : Seq → Seq) : (s.updSeq n f).off = s.off := rfl
@[simp] theorem State.updSeq_nPorts (s : State) (n : Nat) (f : Seq → Seq) : (s.updSeq n f).nPorts = s.nPorts := rfl
@[simp] theorem State.updSeq_nFar (s : State) (n : Nat) (f : Seq → Seq) : (s.updSeq n f).nFar = s.nFar := rfl
@[simp] theorem State.updSeq_popK (s : State) (n : Nat) (f : Seq → Seq) : (s.updSeq n f).popK = s.popK := rfl
@[simp] theorem State.updSeq_nSets (s : State) (n : Nat) (f : Seq → Seq) : (s.updSeq n f).nSets = s.nSets := rfl
@[simp] theorem State.updSeq_deaf (s : State) (n : Nat) (f : Seq → Seq) : (s.updSeq n f).deaf = s.deaf := rfl

@[simp] theorem State.updCtx_ao (s : State) (n : Nat) (f : Ctx → Ctx) : (s.updCtx n f).ao = s.ao := rfl
@[simp] theorem State.updCtx_trip (s : State) (n : Nat) (f : Ctx → Ctx) : (s.updCtx n f).trip = s.trip := rfl
@[simp] theorem State.updCtx_regs (s : State) (n : Nat) (f : Ctx → Ctx) : (s.updCtx n f).regs = s.regs := rfl
@[simp] theorem State.updCtx_cp (s : State) (n : Nat) (f : Ctx → Ctx) : (s.updCtx n f).cp = s.cp := rfl
@[simp] theorem State.updCtx_regions (s : State) (n : Nat) (f : Ctx → Ctx) : (s.updCtx n f).regions = s.regions := rfl
@[simp] theorem State.updCtx_cache (s : State) (n : Nat) (f : Ctx → Ctx) : (s.updCtx n f).cache = s.cache := rfl
@[simp] theorem State.updCtx_pol (s : State) (n : Nat) (f : Ctx → Ctx) : (s.updCtx n f).pol = s.pol := rfl
@[simp] theorem State.updCtx_links (s : State) (n : Nat) (f : Ctx → Ctx) : (s.updCtx n f).links = s.links := rfl
@[simp] theorem State.updCtx_slices (s : State) (n : Nat) (f : Ctx → Ctx) : (s.updCtx n f).slices = s.slices := rfl
@[simp] theorem State.updCtx_keys (s : State) (n : Nat) (f : Ctx → Ctx) : (s.updCtx n f).keys = s.keys := rfl
@[simp] theorem State.updCtx_drain (s : State) (n : Nat) (f : Ctx → Ctx) : (s.updCtx n f).drain = s.drain := rfl
@[simp] theorem State.updCtx_regl (s : State) (n : Nat) (f : Ctx → Ctx) : (s.updCtx n f).regl = s.regl := rfl
@[simp] theorem State.updCtx_err (s : State) (n : Nat) (f : Ctx → Ctx) : (s.updCtx n f).err = s.err := rfl
@[simp] theorem State.updCtx_boot (s : State) (n : Nat) (f : Ctx → Ctx) : (s.updCtx n f).boot = s.boot := rfl
@[simp] theorem State.updCtx_rec_ (s : State) (n : Nat) (f : Ctx → Ctx) : (s.updCtx n f).rec_ = s.rec_ := rfl
@[simp] theorem State.updCtx_age (s : State) (n : Nat) (f : Ctx → Ctx) : (s.updCtx n f).age = s.age := rfl
@[simp] theorem State.updCtx_cycle (s : State) (n : Nat) (f : Ctx → Ctx) : (s.updCtx n f).cycle = s.cycle := rfl
@[simp] theorem State.updCtx_nextId (s : State) (n : Nat) (f : Ctx → Ctx) : (s.updCtx n f).nextId = s.nextId := rfl
@[simp] theorem State.updCtx_free (s : State) (n : Nat) (f : Ctx → Ctx) : (s.updCtx n f).free = s.free := rfl
@[simp] theorem State.updCtx_out (s : State) (n : Nat) (f : Ctx → Ctx) : (s.updCtx n f).out = s.out := rfl
@[simp] theorem State.updCtx_pending (s : State) (n : Nat) (f : Ctx → Ctx) : (s.updCtx n f).pending = s.pending := rfl
@[simp] theorem State.updCtx_mode (s : State) (n : Nat) (f : Ctx → Ctx) : (s.updCtx n f).mode = s.mode := rfl
@[simp] theorem State.updCtx_off (s : State) (n : Nat) (f : Ctx → Ctx) : (s.updCtx n f).off = s.off := rfl
@[simp] theorem State.updCtx_nPorts (s : State) (n : Nat) (f : Ctx → Ctx) : (s.updCtx n f).nPorts = s.nPorts := rfl
@[simp] theorem State.updCtx_nFar (s : State) (n : Nat) (f : Ctx → Ctx) : (s.updCtx n f).nFar = s.nFar := rfl
@[simp] theorem State.updCtx_popK (s : State) (n : Nat) (f : Ctx → Ctx) : (s.updCtx n f).popK = s.popK := rfl
@[simp] theorem State.updCtx_nSets (s : State) (n : Nat) (f : Ctx → Ctx) : (s.updCtx n f).nSets = s.nSets := rfl
@[simp] theorem State.updCtx_deaf (s : State) (n : Nat) (f : Ctx → Ctx) : (s.updCtx n f).deaf = s.deaf := rfl

@[simp] theorem State.updQp_ao (s : State) (n : Nat) (f : QP → QP) : (s.updQp n f).ao = s.ao := rfl
@[simp] theorem State.updQp_trip (s : State) (n : Nat) (f : QP → QP) : (s.updQp n f).trip = s.trip := rfl
@[simp] theorem State.updQp_regs (s : State) (n : Nat) (f : QP → QP) : (s.updQp n f).regs = s.regs := rfl
@[simp] theorem State.updQp_regions (s : State) (n : Nat) (f : QP → QP) : (s.updQp n f).regions = s.regions := rfl
@[simp] theorem State.updQp_cache (s : State) (n : Nat) (f : QP → QP) : (s.updQp n f).cache = s.cache := rfl
@[simp] theorem State.updQp_pol (s : State) (n : Nat) (f : QP → QP) : (s.updQp n f).pol = s.pol := rfl
@[simp] theorem State.updQp_links (s : State) (n : Nat) (f : QP → QP) : (s.updQp n f).links = s.links := rfl
@[simp] theorem State.updQp_slices (s : State) (n : Nat) (f : QP → QP) : (s.updQp n f).slices = s.slices := rfl
@[simp] theorem State.updQp_str (s : State) (n : Nat) (f : QP → QP) : (s.updQp n f).str = s.str := rfl
@[simp] theorem State.updQp_keys (s : State) (n : Nat) (f : QP → QP) : (s.updQp n f).keys = s.keys := rfl
@[simp] theorem State.updQp_drain (s : State) (n : Nat) (f : QP → QP) : (s.updQp n f).drain = s.drain := rfl
@[simp] theorem State.updQp_regl (s : State) (n : Nat) (f : QP → QP) : (s.updQp n f).regl = s.regl := rfl
@[simp] theorem State.updQp_err (s : State) (n : Nat) (f : QP → QP) : (s.updQp n f).err = s.err := rfl
@[simp] theorem State.updQp_boot (s : State) (n : Nat) (f : QP → QP) : (s.updQp n f).boot = s.boot := rfl
@[simp] theorem State.updQp_rec_ (s : State) (n : Nat) (f : QP → QP) : (s.updQp n f).rec_ = s.rec_ := rfl
@[simp] theorem State.updQp_age (s : State) (n : Nat) (f : QP → QP) : (s.updQp n f).age = s.age := rfl
@[simp] theorem State.updQp_cycle (s : State) (n : Nat) (f : QP → QP) : (s.updQp n f).cycle = s.cycle := rfl
@[simp] theorem State.updQp_nextId (s : State) (n : Nat) (f : QP → QP) : (s.updQp n f).nextId = s.nextId := rfl
@[simp] theorem State.updQp_free (s : State) (n : Nat) (f : QP → QP) : (s.updQp n f).free = s.free := rfl
@[simp] theorem State.updQp_out (s : State) (n : Nat) (f : QP → QP) : (s.updQp n f).out = s.out := rfl
@[simp] theorem State.updQp_pending (s : State) (n : Nat) (f : QP → QP) : (s.updQp n f).pending = s.pending := rfl
@[simp] theorem State.updQp_mode (s : State) (n : Nat) (f : QP → QP) : (s.updQp n f).mode = s.mode := rfl
@[simp] theorem State.updQp_off (s : State) (n : Nat) (f : QP → QP) : (s.updQp n f).off = s.off := rfl
@[simp] theorem State.updQp_nPorts (s : State) (n : Nat) (f : QP → QP) : (s.updQp n f).nPorts = s.nPorts := rfl
@[simp] theorem State.updQp_nFar (s : State) (n : Nat) (f : QP → QP) : (s.updQp n f).nFar = s.nFar := rfl
@[simp] theorem State.updQp_popK (s : State) (n : Nat) (f : QP → QP) : (s.updQp n f).popK = s.popK := rfl
@[simp] theorem State.updQp_nSets (s : State) (n : Nat) (f : QP → QP) : (s.updQp n f).nSets = s.nSets := rfl
@[simp] theorem State.updQp_deaf (s : State) (n : Nat) (f : QP → QP) : (s.updQp n f).deaf = s.deaf := rfl

@[simp] theorem State.put_ao (s : State) (o : Out) : (s.put o).ao = s.ao := rfl
@[simp] theorem State.put_trip (s : State) (o : Out) : (s.put o).trip = s.trip := rfl
@[simp] theorem State.put_regs (s : State) (o : Out) : (s.put o).regs = s.regs := rfl
@[simp] theorem State.put_cp (s : State) (o : Out) : (s.put o).cp = s.cp := rfl
@[simp] theorem State.put_regions (s : State) (o : Out) : (s.put o).regions = s.regions := rfl
@[simp] theorem State.put_cache (s : State) (o : Out) : (s.put o).cache = s.cache := rfl
@[simp] theorem State.put_pol (s : State) (o : Out) : (s.put o).pol = s.pol := rfl
@[simp] theorem State.put_links (s : State) (o : Out) : (s.put o).links = s.links := rfl
@[simp] theorem State.put_slices (s : State) (o : Out) : (s.put o).slices = s.slices := rfl
@[simp] theorem State.put_str (s : State) (o : Out) : (s.put o).str = s.str := rfl
@[simp] theorem State.put_keys (s : State) (o : Out) : (s.put o).keys = s.keys := rfl
@[simp] theorem State.put_drain (s : State) (o : Out) : (s.put o).drain = s.drain := rfl
@[simp] theorem State.put_regl (s : State) (o : Out) : (s.put o).regl = s.regl := rfl
@[simp] theorem State.put_err (s : State) (o : Out) : (s.put o).err = s.err := rfl
@[simp] theorem State.put_boot (s : State) (o : Out) : (s.put o).boot = s.boot := rfl
@[simp] theorem State.put_rec_ (s : State) (o : Out) : (s.put o).rec_ = s.rec_ := rfl
@[simp] theorem State.put_age (s : State) (o : Out) : (s.put o).age = s.age := rfl
@[simp] theorem State.put_cycle (s : State) (o : Out) : (s.put o).cycle = s.cycle := rfl
@[simp] theorem State.put_nextId (s : State) (o : Out) : (s.put o).nextId = s.nextId := rfl
@[simp] theorem State.put_free (s : State) (o : Out) : (s.put o).free = s.free := rfl
@[simp] theorem State.put_pending (s : State) (o : Out) : (s.put o).pending = s.pending := rfl
@[simp] theorem State.put_mode (s : State) (o : Out) : (s.put o).mode = s.mode := rfl
@[simp] theorem State.put_off (s : State) (o : Out) : (s.put o).off = s.off := rfl
@[simp] theorem State.put_nPorts (s : State) (o : Out) : (s.put o).nPorts = s.nPorts := rfl
@[simp] theorem State.put_nFar (s : State) (o : Out) : (s.put o).nFar = s.nFar := rfl
@[simp] theorem State.put_popK (s : State) (o : Out) : (s.put o).popK = s.popK := rfl
@[simp] theorem State.put_nSets (s : State) (o : Out) : (s.put o).nSets = s.nSets := rfl
@[simp] theorem State.put_deaf (s : State) (o : Out) : (s.put o).deaf = s.deaf := rfl

@[simp] theorem State.port_updPort (s : State) (n : Nat) (f : Port → Port) : (s.updPort n f).port n = f (s.port n) := by
  simp [State.updPort, State.port]
theorem State.port_updPort_ne (s : State) {n m : Nat} (f : Port → Port) (h : m ≠ n) : (s.updPort n f).port m = s.port m :=
  NMap.get_upd_ne _ _ f h
@[simp] theorem State.farP_updFar (s : State) (n : Nat) (f : FarPort → FarPort) : (s.updFar n f).farP n = f (s.farP n) := by
  simp [State.updFar, State.farP]
theorem State.farP_updFar_ne (s : State) {n m : Nat} (f : FarPort → FarPort) (h : m ≠ n) : (s.updFar n f).farP m = s.farP m :=
  NMap.get_upd_ne _ _ f h
@[simp] theorem State.slice_updSlice (s : State) (n : Nat) (f : Slice → Slice) : (s.updSlice n f).slice n = f (s.slice n) := by
  simp [State.updSlice, State.slice]
theorem State.slice_updSlice_ne (s : State) {n m : Nat} (f : Slice → Slice) (h : m ≠ n) : (s.updSlice n f).slice m = s.slice m :=
  NMap.get_upd_ne _ _ f h
@[simp] theorem State.ctx_updCtx (s : State) (n : Nat) (f : Ctx → Ctx) : (s.updCtx n f).ctx n = f (s.ctx n) := by
  simp [State.updCtx, State.ctx]
theorem State.ctx_updCtx_ne (s : State) {n m : Nat} (f : Ctx → Ctx) (h : m ≠ n) : (s.updCtx n f).ctx m = s.ctx m :=
  NMap.get_upd_ne _ _ f h
@[simp] theorem State.qp_updQp (s : State) (n : Nat) (f : QP → QP) : (s.updQp n f).qp n = f (s.qp n) := by
  simp [State.updQp, State.qp]
theorem State.qp_updQp_ne (s : State) {n m : Nat} (f : QP → QP) (h : m ≠ n) : (s.updQp n f).qp m = s.qp m :=
  NMap.get_upd_ne _ _ f h
@[simp] theorem State.seq_updSeq (s : State) (n : Nat) (f : Seq → Seq) : (s.updSeq n f).seq n = f (s.seq n) := by
  simp [State.updSeq, State.updSlice, State.seq, State.slice]
theorem State.seq_updSeq_ne (s : State) {n m : Nat} (f : Seq → Seq) (h : m ≠ n) : (s.updSeq n f).seq m = s.seq m :=
  congrArg Slice.seq (State.slice_updSlice_ne s _ h)
@[simp] theorem State.updSeq_updSeq (s : State) (n : Nat) (f g : Seq → Seq) : (s.updSeq n f).updSeq n g = s.updSeq n (fun q => g (f q)) := by
  simp [State.updSeq, State.updSlice]
/-- Two changes of a sequencer that agree on it give one state. -/
theorem State.updSeq_congr {s : State} {n : Nat} {f g : Seq → Seq} (h : f (s.seq n) = g (s.seq n)) : s.updSeq n f = s.updSeq n g := by
  unfold State.seq State.slice at h
  simp only [State.updSeq, State.updSlice, NMap.upd, h]

/-- The header of a row's message carries the row's opcode. -/
theorem hd_op (h : Slot) (op : Nat) (ho : op < 256) : Hd.op (putBits h 0 8 op) = op := by
  have e : (putBits h 0 8 op).setWidth 8 = BitVec.ofNat 8 op := by
    ext i hi
    simp [putBits, Nat.mod_eq_of_lt ho]

  have := congrArg BitVec.toNat e
  simpa [Hd.op, nbits, Nat.mod_eq_of_lt ho] using this

end Sys2Proof.Machine
end

