-- ==== Sys2Proof/Laws/Seq.lean ====
section
/-! SUPPORT. What an issued sequencer instruction does: the sequencer after it, and what landed writes leave alone. -/
namespace Sys2Proof.Machine

theorem Seq.land_run (q : Seq) : q.land.run = q.run := by
  have : ∀ (l : List PendW) (q : Seq), (l.foldl landOne q).run = q.run := by
    intro l; induction l with
    | nil => intro q; rfl
    | cons a l ih => intro q; rw [List.foldl_cons, ih]; unfold landOne; split <;> [rfl; (split <;> rfl)]
  unfold Seq.land; rw [this]
theorem Seq.land_slot (q : Seq) : q.land.slot = q.slot := by
  have : ∀ (l : List PendW) (q : Seq), (l.foldl landOne q).slot = q.slot := by
    intro l; induction l with
    | nil => intro q; rfl
    | cons a l ih => intro q; rw [List.foldl_cons, ih]; unfold landOne; split <;> [rfl; (split <;> rfl)]
  unfold Seq.land; rw [this]
/-- A row that issues, with an effect `f` on its own sequencer, is one step of that sequencer. -/
theorem issue_eq {i : Instr} {sl : BitVec 3} {gd : BitVec 4} {k : IKind} {s : State} {eff : State → State} {f : Seq → Seq}
    (h : Issues (asWord i) sl gd s) (hk : k.noSlot = false ∨ (s.seq sl.toNat).slot = false)
    (he : ∀ (t : State) g, eff (t.updSeq sl.toNat g) = t.updSeq sl.toNat (fun q => f (g q))) (hf : ∀ q, (f q).run = q.run) :
    issue i sl gd k eff s = s.updSeq sl.toNat (seqStep k.branch k.clocks f) := by
  obtain ⟨ho, ⟨e, hr, hl⟩, hg, hw⟩ := h
  unfold issue
  have hr2 : ∀ q, (f q).run.isNone = q.run.isNone := fun q => by rw [hf]
  have hb : (k.noSlot && (s.seq sl.toNat).land.slot) = false := by rw [Seq.land_slot]; rcases hk with h | h <;> simp [h]
  have hlr : (s.seq sl.toNat).land.run = some e := by rw [Seq.land_run, hr]
  have hn : ¬ evLimit e ≤ (s.seq sl.toNat).issued := by omega
  simp only [hr, ho, hw, State.seq_updSeq, hg, hn, Bool.true_and, hb, he, if_true, State.updSeq_updSeq, hr2, hlr, Option.isNone_some, Bool.false_eq_true, if_false,
    decide_false, Bool.or_self, Bool.and_false, ne_eq, not_true_eq_false]
  exact State.updSeq_congr rfl
/-- A row that issues and whose effect leaves no event running is that effect, behind the row's own marks. -/
theorem issue_ends {i : Instr} {sl : BitVec 3} {gd : BitVec 4} {k : IKind} {s : State} {eff : State → State}
    (h : Issues (asWord i) sl gd s) (hk : k.noSlot = false ∨ (s.seq sl.toNat).slot = false)
    (he : (eff (s.updSeq sl.toNat (fun q => { q.land with issued := q.land.issued + 1, lastIssue := q.land.clk, fresh := false, target := none, slot := k.branch }))
      |>.seq sl.toNat).run = none) :
    issue i sl gd k eff s = rowEnd s (eff (s.updSeq sl.toNat (fun q =>
      { q.land with issued := q.land.issued + 1, lastIssue := q.land.clk, fresh := false, target := none, slot := k.branch }))) := by
  obtain ⟨ho, ⟨e, hr, hl⟩, hg, hw⟩ := h
  unfold issue
  have hb : (k.noSlot && (s.seq sl.toNat).land.slot) = false := by rw [Seq.land_slot]; rcases hk with h | h <;> simp [h]
  have hn : ¬ evLimit e ≤ (s.seq sl.toNat).issued := by omega
  simp only [hr, ho, hw, State.seq_updSeq, hg, hn, Bool.true_and, hb, if_true, State.updSeq_updSeq, Bool.false_eq_true, if_false,
    decide_false, Bool.or_self, Bool.and_false, ne_eq, not_true_eq_false]
  simp [he]
/-- When a row does not issue, what an undefined opcode is, and what a guard that does not hold or a forbidden delay slot makes of a row that does. -/
theorem issue_gates (i : Instr) (sl : BitVec 3) (gd : BitVec 4) (k : IKind) (eff : State → State) (s : State) :
  let w := (s.seq sl.toNat).word
  ((s.seq sl.toNat).run = none → issue i sl gd k eff s = s) ∧
  (∀ e, (s.seq sl.toNat).run = some e →
    (evLimit e ≤ (s.seq sl.toNat).issued → issue i sl gd k eff s = s) ∧
    (s.sliceOff = false → (s.seq sl.toNat).issued < evLimit e →
      (standsIn s sl.toNat k = false → seqDecode sl w = none →
        issue i sl gd k eff s = rowEnd s (seqFault sl.toNat (nbits w 63 56) (s.updSeq sl.toNat Seq.land))) ∧
      (standsIn s sl.toNat k = false → ∀ j, seqDecode sl w = some j → j ≠ asWord i → issue i sl gd k eff s = s) ∧
      (standsIn s sl.toNat k = true ∨ seqDecode sl w = some (asWord i) →
        ((s.seq sl.toNat).land.guard gd = false → issue i sl gd k eff s = (s.updSeq sl.toNat (seqStep k.branch 1 id))) ∧
        ((s.seq sl.toNat).land.guard gd = true → k.noSlot = true → (s.seq sl.toNat).slot = true →
          issue i sl gd k eff s = (rowEnd s (seqFault sl.toNat k.op (s.updSeq sl.toNat Seq.land))))))) := by
  refine ⟨fun h => ?_, fun e h => ⟨fun hl => ?_, fun ho hl => ?_⟩⟩
  · simp only [issue, h]
  · simp only [issue, h, hl, decide_true, Bool.or_true, if_true]
  have hn : ¬ evLimit e ≤ (s.seq sl.toNat).issued := by omega
  have hlr : (s.seq sl.toNat).land.run = some e := by rw [Seq.land_run, h]
  have hls := Seq.land_slot (s.seq sl.toNat)
  refine ⟨fun hi hw => ?_, fun hi j hw hj => ?_, fun hw => ⟨fun hg => ?_, fun hg hk hs => ?_⟩⟩
  · simp only [issue, h, ho, hn, hi, hw, decide_false, Bool.or_self, Bool.false_eq_true, if_false, if_true, Bool.not_false, Option.isNone_none, Bool.and_self]
  · simp only [issue, h, ho, hn, hi, hw, decide_false, Bool.or_self, Bool.false_eq_true, if_false, if_true, Bool.not_false, Option.isNone_some, Bool.and_false,
      ne_eq, Option.some.injEq, hj, not_false_eq_true, decide_true, Bool.and_self]
  · rcases hw with hw | hw <;>
    · simp only [issue, h, ho, hn, hw, State.seq_updSeq, hg, hlr, State.updSeq_updSeq, decide_false, Bool.or_self, Bool.false_and, Bool.and_false,
        Bool.false_eq_true, if_false, Option.isNone_some, Bool.not_true, ne_eq, not_true_eq_false]
      exact State.updSeq_congr rfl
  · rcases hw with hw | hw <;>
      simp only [issue, h, ho, hn, hw, State.seq_updSeq, hg, hls, hk, hs, decide_false, Bool.or_self, Bool.and_self, Bool.false_and, Bool.and_false, Bool.false_eq_true,
        if_false, if_true, Option.isNone_some, Bool.not_true, ne_eq, not_true_eq_false]

end Sys2Proof.Machine
end

