-- ==== Sys2Proof/Tests/Slice0.lean ====
section
/-! SUPPORT. Tests of the model: ill-formed commands are refused, words of the sequencer's instruction set decode, small steps give what the rules
say, and states and operands that meet the hypotheses of every statement. -/
section Slice0
set_option linter.unusedVariables false
set_option Elab.async false
open Sys2Proof Sys2Proof.Machine

/-! ### States and packets -/

/-- The hub in a mode, its firmware running, Bus Master Enable set, and queue pair 1 with one entry to take; all else as after reset. -/
def on (m : BitVec 3) : State :=
  { State.reset with
    trip.mode := Trip.all m, ao.modeMirror := m, boot.fwRun := true, cp.bme := true
    cp.qps := [(1, { QP.init with on := true, sqN := 2, cqN := 2, sqTail := 1 })] }
/-- A packet of queue pair 1 with every parameter zero. -/
def p0 : Packet := ⟨1, 0, 7, 0, 0, true, true, true, []⟩
/-- Channels trained: 8 channels, not dense. -/
def Sys2Proof.Machine.State.trained (s : State) : State := { s with cache.trained := true, cache.chans := 0, cache.dense := false }
/-- A valid region entry: BASE_LINE, SIZE_LINES and other bits of R25. -/
def ent (base size rest : Nat) : BitVec 320 := BitVec.ofNat 320 (2 ^ 63 + base + size * 2 ^ 64 + rest)
/-- One region entry, at index 0. -/
def Sys2Proof.Machine.State.with0 (s : State) (e : BitVec 320) : State := { s with regions := [(0, e)] }
/-- Stream 0 open. -/
def Sys2Proof.Machine.State.opened (s : State) : State := s.updCtx 0 (fun c => { c with state := 1 })
/-- An active far device of 4,096 lines on port 0. -/
def Sys2Proof.Machine.State.far0 (s : State) : State := s.updFar 0 (fun f => { f with enable := true, up := true, active := true, cap := 0x1000 })
/-- A trace that holds one START record (R489) of a replayable recording, with zeros for its other fields. -/
def trace0 : List Byte := leBytes 8 (9 + 4 * 16) ++ List.replicate 8 0 ++ leBytes 4 0x7E512EC0 ++ [1, 2] ++ List.replicate 58 0
/-- A customer key record (R460) of a key of zeros. -/
def custImage : List Byte := leBytes 4 0x7E51C05E ++ [2, 0, 0, 0] ++ List.replicate 120 0
/-- A policy image of one instruction word (R153, R155), its signature 96 zero bytes. -/
def policyImage : List Byte :=
  leBytes 4 0x7E51A0C3 ++ [0, 1, 0, 0] ++ leBytes 4 360 ++ [1, 0, 0, 0] ++ List.replicate 240 0 ++ List.replicate 104 0

/-! ### Ill-formed commands -/

theorem test_ill_formed_port : (Instr.readOnce 12 0).wf = false ∧ (Instr.readOnce 11 0).wf = true ∧ (Instr.widthFailed 12).wf = false := by decide
theorem test_ill_formed_size : (Instr.registerWrite (.bar0 0x20) 0 0).wf = false ∧ (Instr.registerWrite (.bar0 0x20) 0 8).wf = true := by decide
theorem test_ill_formed_rate : (Instr.portL0Reached 0 3 8).wf = false ∧ (Instr.channelTrainingEnd 0 0 3).wf = false := by decide
theorem test_ill_formed_width : (Instr.portL0Reached 0 2 5).wf = false ∧ (Instr.portL0Reached 0 2 4).wf = true := by decide
theorem test_ill_formed_sample : (Instr.thermalSample []).wf = false ∧ (Instr.thermalSample (List.replicate 16 0)).wf = true := by decide
theorem test_ill_formed_refresh : (Instr.refreshRateChange 0 3).wf = false ∧ (Instr.refreshRateChange 0 4).wf = true := by decide
theorem test_ill_formed_tap : (Instr.tapInstruction 6).wf = false ∧ (Instr.tapInstruction 5).wf = true := by decide
theorem test_ill_formed_packet (l : List Byte) (h : l.length = 4294967296) : packetOk { p0 with data := l } = false ∧ packetOk p0 = true :=
  ⟨by simp [packetOk, h], by decide⟩

/-! ### Words of the sequencer's instructions (R134, R138) -/

theorem test_andi_word : seqDecode 0 0x0542000000003FFF = some (.andi 0 0 4 2 0x3FFF) := rfl
theorem test_done_word : seqDecode 0 0x380D000000000000 = some (.done 0 0 13 0 0) := rfl
theorem test_ffs_word : seqDecode 0 0x13DD000000000000 = some (.ffs 0 0 13 13) := rfl
theorem test_undefined_word : seqDecode 0 0xFF00000000000000 = none := rfl
theorem test_no_word_spells_a_command : decodeTableWord 8 0 = none := rfl

/-! ### Small steps -/

/-- What a test sees of a step. -/
def seen {α : Type} (f : State → α) : Host.Outcome State Fault Refusal → Option α
  | .next t => some (f t)
  | _ => none
/-- A sequencer of slice 0 in an event, with two registers. -/
def twoRegs (a b : SWord) : State :=
  (on 3).updSeq 0 (fun q => { q with g := [(1, a), (2, b)], run := some ⟨1, 1, 3, 0, false, 0, 1, 0, 0, 0, 0x3FFF, 0, none, false⟩ })
/-- An instruction of slice 0 issues, its word being the one fetched. -/
def ran (i : Instr) (a b : SWord) : Host.Outcome State Fault Refusal :=
  exec i ((twoRegs a b).updSeq 0 (fun q => { q with fbuf := some (0, [(seqEncode i).getD 0]) }))
/-- Register d3 once the results due have landed. -/
def r3 (s : State) : SWord := ({ s.seq 0 with clk := 1000 }.land).rg 3

theorem test_idle_counts : seen (fun t => t.ao.time) (step State.reset) = some 1 := by decide +kernel
theorem test_add_wraps : seen r3 (ran (.add 0 0 3 1 2) 0xFFFFFFFFFF 2) = some 1 := by decide +kernel
theorem test_sub_borrows : seen r3 (ran (.sub 0 0 3 1 2) 0 1) = some 0xFFFFFFFFFF := by decide +kernel
theorem test_shl_past_the_width : seen r3 (ran (.shl 0 0 3 1 40) 1 0) = some 0 := by decide +kernel
theorem test_shl_by_64_is_0 : seen r3 (ran (.shlv 0 0 3 1 2) 1 64) = some 1 := by decide +kernel
theorem test_lsb : seen r3 (ran (.lsb 0 0 3 1) 0xC 0) = some 4 := by decide +kernel
theorem test_g0_reads_zero : seen r3 (ran (.or 0 0 3 0 2) 5 6) = some 6 := by decide +kernel
/-- R138: an undefined opcode faults, whatever row would have issued; R149: a row that the fetched word does not spell changes nothing. -/
theorem test_undefined_opcode_faults :
    seen (fun t => ((t.seq 0).run, NMap.get 0 t.pol.cnt 10)) (exec (.nop 0 0) ((twoRegs 0 0).updSeq 0 (fun q => { q with fbuf := some (0, [0xFF00000000000000]) }))) =
      some (none, 1) ∧
    seen (fun t => (t.seq 0).issued) (exec (.add 0 0 3 1 2) (twoRegs 1 2)) = some 0 := by decide +kernel
theorem test_region_lock : seen (fun t => (t.locked, t.cp.prog.length)) (exec (.regionLock p0) (on 2)) = some (true, 0) := by decide +kernel
theorem test_freeze_mask_set : seen (fun t => t.freezeMask) (exec (.aliasClearWrite 0x28 1 8) (on 2)) = some 0x1E := by decide +kernel
theorem test_narrow_write_is_bad : seen (fun t => (t.regs.accessErr, t.freezeMask)) (exec (.registerWrite (.bar0 0x28) 0 4) (on 2)) = some (true, 0x1F) := by decide +kernel
theorem test_armed_then_zeroise_expires :
    seen (fun t => t.regs.zArm) (exec (.guardedPartnerWrite 0x8800 (~~~0xA55A) 8) { on 2 with regs.guardP := some (0x8000, 0xA55A, 0) }) = some true ∧
    seen (fun t => t.regs.zArm) (exec .zeroiseArmExpiry { on 2 with regs.zArm := true }) = some false := by decide +kernel
theorem test_home_slices : (homeSlice 1, homeSlice 2, homeSlice 4, homeSlice 8, homeSlice 0x8000000000) = (1, 2, 4, 1, 1) := by decide +kernel
theorem test_abc_digest : sha384 [0x61, 0x62, 0x63] = beBytes 48 0xCB00753F45A35E8BB5A03D699AC65007272C32AB0EDED1631A8B605A43FF5BED8086072BA1E7CC2358BAECA134C825A7 := by
  decide +kernel

/-- FIPS 186-5: the base point lies on the curve, and inverses modulo the order are inverses. -/
theorem test_p384 :
    p384G.y * p384G.y % p384P = fpSub (p384G.x * p384G.x * p384G.x + p384B) (3 * p384G.x) ∧ invMod p384N 7 * 7 % p384N = 1 ∧
    pairNats (pairBytes 5 (2 ^ 384 - 1)) = (5, 2 ^ 384 - 1) ∧ bits (pairBytes 1 2) 383 376 = (1 : Byte) := by decide +kernel

/-! ### Packets that pass their checks, and packets that fail one -/

/-- A packet that passes the gates and its checks, and one that passes the gates and fails a check. -/
abbrev both (f : Packet → State → Bool × Option (BitVec 16)) (p : Packet) (s : State) (p' : Packet) (s' : State) : Prop :=
  f p s = (true, none) ∧ (f p' s').1 = true ∧ (f p' s').2 ≠ none

theorem test_meets_QueueCommands :
    both
        (fun p s =>
          (ready (.identify p) s, firstFail ([(p.rsv 8 0 true || badBuf p.addr 256 256, St.invalid_param)])))
        p0 (on 2) ({ p0 with flags := 0x7F }) (on 2) ∧
    both
        (fun p s =>
          let n := p.target.toNat
          (ready (.queueCreate p) s, firstFail ([(p.rsv 20 0 false || n = 0 || 15 < n || badQueue (p.par 0 8) (p.par 16 2) 64 || badQueue (p.par 8 8) (p.par 18 2) 16, St.invalid_param),
            ((s.qp n).on, St.queue_exists)])))
        ({ p0 with params := 0x1000100000000000200000000000000010000, target := 2 }) (on 2) ({ p0 with params := 0x1000100000000000200000000000000010000, target := 2, flags := 0x7F }) (on 2) ∧
    both
        (fun p s =>
          let n := p.target.toNat
          (ready (.queueDelete p) s, firstFail ([(p.rsv 0 0 false || n = 0 || 15 < n || n = p.qp.toNat, St.invalid_param), (!(s.qp n).on, St.no_queue)])))
        ({ p0 with target := 2 }) ((on 2).updQp 2 (fun q => { q with on := true })) ({ p0 with target := 2, flags := 0x7F }) ((on 2).updQp 2 (fun q => { q with on := true })) ∧
    both
        (fun p s =>
          (ready (.eventQueueSet p) s, firstFail ([(if p.flag 0 then p.rsv 56 1 true
            else p.rsv 11 1 true || decide (p.par 8 2 < 15) || badBuf p.addr 4096 ((p.par 8 2 + 1) * 32), St.invalid_param)])))
        ({ p0 with params := 0x7f0000000000010000 }) (on 2) ({ p0 with params := 0x7f0000000000010000, flags := 0x7F }) (on 2) := by decide +kernel

theorem test_meets_ModeDrainAndResetCommands_1 :
    both
        (fun p s =>
          let m := p.par 0 1
          (ready (.modeSet p) s, firstFail (let up := s.mode = 2 && m = 3
            [(p.rsv 1 0 true || !(decide (m = s.mode.toNat) || (s.mode = 1 && m = 2) || up || (s.mode = 3 && m = 2)), St.invalid_param),
            (s.mode = 1 && m = 2 && !exitReady s, St.boot_pending), (up && s.popK.isNone, St.population_invalid), (up && !s.cache.invDone, St.not_invalidated)])))
        ({ p0 with params := 0x3 }) ({ (on 2).trained with cache.invDone := true }) ({ p0 with params := 0x3, flags := 0x7F }) ({ (on 2).trained with cache.invDone := true }) ∧
    both
        (fun p s =>
          (ready (.drain p) s, firstFail ([(p.rsv 0 0 true, St.invalid_param)])))
        p0 (on 2) ({ p0 with flags := 0x7F }) (on 2) ∧
    both
        (fun p s =>
          (ready (.resume p) s, firstFail ([(p.rsv 0 0 true, St.invalid_param), (!s.ao.drainDone, St.drain_busy), (s.drain.thermal, St.thermal), (!s.pfwLevel, St.pfw_low)])))
        p0 ({ on 5 with ao.drainDone := true, ao.pfwHigh := true }) ({ p0 with flags := 0x7F }) ({ on 5 with ao.drainDone := true, ao.pfwHigh := true }) ∧
    both
        (fun p s =>
          (ready (.drainQuery p) s, firstFail ([(p.rsv 8 0 true || badBuf p.addr 64 64, St.invalid_param)])))
        p0 (on 2) ({ p0 with flags := 0x7F }) (on 2) := by decide +kernel

theorem test_meets_ModeDrainAndResetCommands_2 :
    both
        (fun p s =>
          (ready (.warmReset p) s, firstFail ([(p.rsv 0 0 true, St.invalid_param)])))
        p0 (on 2) ({ p0 with flags := 0x7F }) (on 2) ∧
    both
        (fun p s =>
          (ready (.resetRecordQuery p) s, firstFail ([(p.rsv 8 0 true || badBuf p.addr 64 64, St.invalid_param)])))
        p0 (on 2) ({ p0 with flags := 0x7F }) (on 2) := by decide +kernel

theorem test_meets_RegionCommands_1 :
    both
        (fun p s =>
          (ready (.regionSet p) s, firstFail (regionSetChecks p s)))
        ({ p0 with params := 0x200000000000010000000000000000000 }) ((on 2).far0) ({ p0 with params := 0x200000000000010000000000000000000, flags := 0x7F }) ((on 2).far0) ∧
    both
        (fun p s =>
          let i := p.target.toNat
          (ready (.regionClear p) s, firstFail (if s.locked then [] else
            [(p.rsv 0 0 false || decide (1023 < i), St.invalid_param), (!Rg.valid (s.region i), St.no_region), (entryHeld s i, St.region_busy)])))
        p0 ((on 2).with0 (ent 0 0x1000 0)) ({ p0 with flags := 0x7F }) ((on 2).with0 (ent 0 0x1000 0)) ∧
    both
        (fun p s =>
          let i := p.target.toNat
          let m := fun (s : State) (v : Nat) => if s.boot.small then v % 256 else v
          (ready (.regionPerm p) s, firstFail (if s.locked then [] else
            [(p.rsv 4 0 false || decide (1023 < i) || decide (0xFFF < p.par 0 2) || decide (0xFFF < p.par 2 2), St.invalid_param),
            (!Rg.valid (s.region i), St.no_region)])))
        ({ p0 with params := 0x10001 }) ((on 2).with0 (ent 0 0x1000 0)) ({ p0 with params := 0x10001, flags := 0x7F }) ((on 2).with0 (ent 0 0x1000 0)) ∧
    both
        (fun p s =>
          (ready (.regionQuery p) s, firstFail ([(p.rsv 8 0 false || decide (1023 < p.target.toNat) || badBuf p.addr 64 64, St.invalid_param)])))
        p0 (on 2) ({ p0 with flags := 0x7F }) (on 2) := by decide +kernel

theorem test_meets_RegionCommands_2 :
    both
        (fun p s =>
          (ready (.regionLookup p) s, firstFail ([(p.rsv 5 0 true, St.invalid_param)])))
        p0 (on 2) ({ p0 with flags := 0x7F }) (on 2) ∧
    both
        (fun p s =>
          (ready (.regionLock p) s, firstFail ([(p.rsv 0 0 true, St.invalid_param)])))
        p0 (on 2) ({ p0 with flags := 0x7F }) (on 2) := by decide +kernel

theorem test_meets_CacheCommands_1 :
    both
        (fun p s =>
          (ready (.invalidateAll p) s, firstFail ([(p.rsv 0 0 true, St.invalid_param), (s.popK.isNone, St.population_invalid)])))
        p0 ((on 2).trained) ({ p0 with flags := 0x7F }) ((on 2).trained) ∧
    both
        (fun p s =>
          (ready (.cacheEnable p) s, firstFail ([(p.rsv 0 0 true, St.invalid_param), (s.popK.isNone, St.population_invalid), (!s.cache.invDone, St.not_invalidated)])))
        p0 ({ (on 2).trained with cache.invDone := true }) ({ p0 with flags := 0x7F }) ({ (on 2).trained with cache.invDone := true }) ∧
    both
        (fun p s =>
          (ready (.cacheDisable p) s, firstFail ([(p.rsv 0 0 true, St.invalid_param)])))
        p0 (on 3) ({ p0 with flags := 0x7F }) (on 3) ∧
    both
        (fun p s =>
          let m := BitVec.ofNat 14 (p.par 0 2)
          (ready (.wayEnable p) s, firstFail ([(p.rsv 2 0 true || decide (0x3FFF < p.par 0 2) || m = 0, St.invalid_param)])))
        ({ p0 with params := 0xff }) (on 2) ({ p0 with params := 0xff, flags := 0x7F }) (on 2) := by decide +kernel

theorem test_meets_CacheCommands_2 :
    both
        (fun p s =>
          (ready (.clean p) s, firstFail (if p.flag 0 then setWayChecks p s else rangeChecks false p s)))
        ({ p0 with params := 0x40000000000000020 }) ((on 2).with0 (ent 0 0x1000 0)) ({ p0 with params := 0x40000000000000020, flags := 0x7F }) ((on 2).with0 (ent 0 0x1000 0)) ∧
    both
        (fun p s =>
          (ready (.invalidate p) s, firstFail (if p.flag 0 then setWayChecks p s else rangeChecks true p s)))
        ({ p0 with params := 0x100000000000000080000000000000000, flags := 1 }) ((on 2).trained) ({ p0 with params := 0x100000000000000080000000000000000, flags := 0x7F }) ((on 2).trained) ∧
    both
        (fun p s =>
          (ready (.cleanInvalidate p) s, firstFail (if p.flag 0 then setWayChecks p s else rangeChecks false p s)))
        ({ p0 with params := 0x10000000000000fff, flags := 2 }) ((on 2).with0 (ent 0 0x1000 0)) ({ p0 with params := 0x10000000000000fff, flags := 0x7F }) ((on 2).with0 (ent 0 0x1000 0)) ∧
    both
        (fun p s =>
          (ready (.cacheQuery p) s, firstFail ([(p.rsv 0 0 true, St.invalid_param)])))
        p0 (on 2) ({ p0 with flags := 0x7F }) (on 2) := by decide +kernel

theorem test_meets_CacheCommands_3 :
    both
        (fun p s =>
          let set := p.target.toNat
          (ready (.cacheReadSet p) s, firstFail ([(p.rsv 8 0 false || badBuf p.addr 128 128, St.invalid_param), (decide (s.nSets ≤ set), St.range_exceeds), (s.retired set, St.set_retired)])))
        ({ p0 with params := 0x10000, target := 8388607 }) ((on 2).trained) ({ p0 with params := 0x10000, target := 8388607, flags := 0x7F }) ((on 2).trained) := by decide +kernel

theorem test_meets_PartitionAndPrefetchCommands_1 :
    both
        (fun p s =>
          (ready (.partMapSet p) s, firstFail ([(p.rsv 24 0 true, St.invalid_param)])))
        p0 (on 2) ({ p0 with flags := 0x7F }) (on 2) ∧
    both
        (fun p s =>
          (ready (.partMaskSet p) s, firstFail ([(p.rsv 2 0 false || decide (15 < p.target.toNat) || decide (0x3FFF < p.par 0 2) || p.par 0 2 = 0, St.invalid_param)])))
        ({ p0 with params := 0x3fff, target := 15 }) (on 2) ({ p0 with params := 0x3fff, target := 15, flags := 0x7F }) (on 2) ∧
    both
        (fun p s =>
          (ready (.partQuery p) s, firstFail ([(p.rsv 8 0 true || badBuf p.addr 128 192, St.invalid_param)])))
        p0 (on 2) ({ p0 with flags := 0x7F }) (on 2) ∧
    both
        (fun p s =>
          (ready (.prefetchSet p) s, firstFail ([(prefetchBad p, St.invalid_param)])))
        ({ p0 with params := 0x3ff20020001000fff0fff }) (on 2) ({ p0 with params := 0x3ff20020001000fff0fff, flags := 0x7F }) (on 2) := by decide +kernel

theorem test_meets_PartitionAndPrefetchCommands_2 :
    both
        (fun p s =>
          (ready (.prefetchQuery p) s, firstFail ([(p.rsv 8 1 true || badBuf p.addr 128 128, St.invalid_param)])))
        p0 (on 2) ({ p0 with flags := 0x7F }) (on 2) := by decide +kernel

theorem test_meets_PolicyCommands :
    both
        (fun p s =>
          (ready (.policyQuery p) s, firstFail ([(p.rsv 8 1 true || badBuf p.addr 128 128, St.invalid_param)])))
        p0 (on 2) ({ p0 with flags := 0x7F }) (on 2) ∧
    both
        (fun p s =>
          (ready (.policyDefault p) s, firstFail ([(p.rsv 0 0 true, St.invalid_param)])))
        p0 (on 2) ({ p0 with flags := 0x7F }) (on 2) ∧
    both
        (fun p s =>
          (ready (.policyDataRead p) s, firstFail ((7 < p.target.toNat, St.invalid_param) :: dataRange p false)))
        ({ p0 with params := 0x11fff0000000000010000, target := 7 }) (on 2) ({ p0 with params := 0x11fff0000000000010000, target := 7, flags := 0x7F }) (on 2) ∧
    both
        (fun p s =>
          (ready (.policyDataWrite p) s, firstFail ((p.target.toNat = 0 || 255 < p.target.toNat, St.invalid_param) :: dataRange p true ++ [(!p.readOk, St.host_read_failed)])))
        ({ p0 with params := 0x100100000000000010000, target := 255 }) ({ on 2 with cp.bme := true }) ({ p0 with params := 0x100100000000000010000, target := 255, flags := 0x7F }) ({ on 2 with cp.bme := true }) := by decide +kernel

theorem test_meets_StreamCommands_1 :
    both
        (fun p s =>
          (ready (.streamOpen p) s, firstFail (openChecks p s)))
        ({ p0 with params := 0xf17000000000000002000000000000000200000000000010000, target := 5 }) ((on 2).with0 (ent 0 0x1000 (2 ^ 131 + 2 ^ 185 + 2 ^ 154))) ({ p0 with params := 0xf17000000000000002000000000000000200000000000010000, target := 5, flags := 0x7F }) ((on 2).with0 (ent 0 0x1000 (2 ^ 131 + 2 ^ 185 + 2 ^ 154))) ∧
    both
        (fun p s =>
          (ready (.streamClose p) s, firstFail ([(badSid p.target || p.rsv 0 0 false, St.invalid_param), ((s.ctx p.target.toNat).state = 0, St.stream_state)])))
        p0 ((on 2).opened) ({ p0 with flags := 0x7F }) ((on 2).opened) ∧
    both
        (fun p s =>
          (ready (.streamQuery p) s, firstFail ([(badSid p.target || p.rsv 8 0 false || badBuf p.addr 128 128, St.invalid_param)])))
        p0 (on 2) ({ p0 with flags := 0x7F }) (on 2) ∧
    both
        (fun p s =>
          let sid := p.target.toNat
          (ready (.streamWriters p) s, firstFail (let w := wrMaskOf (p.par 0 2)
            [(badSid p.target || p.rsv 2 0 false || decide (0xFFF < p.par 0 2) || w = 0 || decide (w &&& ~~~(regionWr (s.region (s.ctx sid).region.toNat)) ≠ 0),
            St.invalid_param), ((s.ctx sid).state ≠ 1, St.stream_state)])))
        ({ p0 with params := 0x1 }) ((on 2).opened.with0 (ent 0 0x1000 (2 ^ 131 + 2 ^ 185 + 2 ^ 154))) ({ p0 with params := 0x1, flags := 0x7F }) ((on 2).opened.with0 (ent 0 0x1000 (2 ^ 131 + 2 ^ 185 + 2 ^ 154))) := by decide +kernel

theorem test_meets_StreamCommands_2 :
    both
        (fun p s =>
          let n := p.par 0 5
          (ready (.streamAckGap p) s, firstFail (let c := s.ctx p.target.toNat
            [(badSid p.target || p.rsv 5 0 false || n = 0, St.invalid_param), (c.state = 0, St.stream_state), (!c.gapPend, St.no_gap),
            (decide (2 ^ 48 - 2 < c.wm + n), St.range_exceeds)])))
        ({ p0 with params := 0x1 }) ((on 2).updCtx 0 (fun c => { c with state := 1, gapPend := true, wm := 2 ^ 48 - 3 })) ({ p0 with params := 0x1, flags := 0x7F }) ((on 2).updCtx 0 (fun c => { c with state := 1, gapPend := true, wm := 2 ^ 48 - 3 })) ∧
    both
        (fun p s =>
          let k := p.target.toNat
          let sid := p.par 0 4
          (ready (.streamNotify p) s, firstFail (if !p.flag 0 then [(decide (4095 < k), St.invalid_param)] else
            [(decide (4095 < k) || p.rsv 22 1 false || decide (0x3FFFF < sid) || p.par 4 4 ≠ 0 || p.par 14 2 ≠ 0, St.invalid_param),
            ((s.ctx sid).state ≠ 1, St.stream_state)])))
        p0 (on 2) ({ p0 with flags := 0x7F }) (on 2) ∧
    both
        (fun p s =>
          let k := p.target.toNat
          (ready (.streamNotifyQuery p) s, firstFail ([(decide (4095 < k) || p.rsv 8 1 false || badBuf p.addr 32 32, St.invalid_param)])))
        p0 (on 2) ({ p0 with flags := 0x7F }) (on 2) ∧
    both
        (fun p s =>
          (ready (.streamGlobalSet p) s, firstFail ([(p.rsv 8 0 true || p.par 2 2 ≠ 0 || p.par 0 2 = 0 || decide (4096 < p.par 0 2) || decide (p.par 4 4 < 10) || decide (1000000 < p.par 4 4), St.invalid_param)])))
        ({ p0 with params := 0xa00001000 }) (on 2) ({ p0 with params := 0xa00001000, flags := 0x7F }) (on 2) := by decide +kernel

theorem test_meets_StreamCommands_3 :
    both
        (fun p s =>
          (ready (.streamGlobalQuery p) s, firstFail ([(p.rsv 8 1 true || badBuf p.addr 64 64, St.invalid_param)])))
        p0 (on 2) ({ p0 with flags := 0x7F }) (on 2) := by decide +kernel

theorem test_meets_SealCommands_1 :
    both
        (fun p s =>
          let sid := p.target.toNat
          (ready (.seal p) s, firstFail ([(badSid p.target || p.rsv 0 0 false, St.invalid_param), ((s.ctx sid).state ≠ 1, St.stream_state)])))
        p0 ((on 2).opened) ({ p0 with flags := 0x7F }) ((on 2).opened) ∧
    both
        (fun p s =>
          let sid := p.target.toNat
          (ready (.timeAnchor p) s, firstFail ([(p.rsv 8 1 false || decide (2 ^ 63 ≤ p.par 0 8) || (!p.flag 0 && badSid p.target), St.invalid_param),
            (!p.flag 0 && decide ((s.ctx sid).state ≠ 1), St.stream_state)])))
        ({ p0 with params := 0x7fffffffffffffff }) ((on 2).opened) ({ p0 with params := 0x7fffffffffffffff, flags := 0x7F }) ((on 2).opened) ∧
    both
        (fun p s =>
          let i := p.target.toNat
          (ready (.sealLogSet p) s, firstFail ([(p.rsv 0 0 false || decide (1023 < i) || !logOk (s.region i), St.invalid_param), (openStreams s ≠ 0, St.log_busy)])))
        p0 ((on 2).with0 (ent 0 131104 (2 ^ 129 + 2 ^ 131))) ({ p0 with flags := 0x7F }) ((on 2).with0 (ent 0 131104 (2 ^ 129 + 2 ^ 131))) ∧
    both
        (fun p s =>
          let v := p.par 0 8
          (ready (.sealLogAck p) s, firstFail ([(p.rsv 8 0 true || decide (v < s.str.logRead) || decide (logPersisted s < v), St.invalid_param)])))
        p0 (on 2) ({ p0 with flags := 0x7F }) (on 2) := by decide +kernel

theorem test_meets_SealCommands_2 :
    both
        (fun p s =>
          (ready (.sealLogQuery p) s, firstFail ([(p.rsv 8 0 true || badBuf p.addr 64 64, St.invalid_param)])))
        p0 (on 2) ({ p0 with flags := 0x7F }) (on 2) := by decide +kernel

theorem test_meets_KeyCommands_1 :
    both
        (fun p s =>
          (ready (.keyGenIdentity p) s, firstFail ([(s.keySt = 0 && s.keys.errState, St.self_test_failed), (p.rsv 8 0 true || badBuf p.addr 1 96, St.invalid_param)])))
        p0 (on 2) ({ p0 with flags := 0x7F }) (on 2) ∧
    both
        (fun p s =>
          (ready (.keyGenSeal p) s, firstFail ([(s.keySt ≠ 1 && s.keySt ≠ 2, St.key_state), (s.keys.errState, St.self_test_failed), (p.rsv 0 0 true, St.invalid_param)])))
        p0 ({ on 2 with trip.key := Trip.all 1 }) ({ p0 with flags := 0x7F }) ({ on 2 with trip.key := Trip.all 1 }) ∧
    both
        (fun p s =>
          (ready (.keyQuery p) s, firstFail ([(p.rsv 8 0 true || badBuf p.addr 1 256, St.invalid_param)])))
        p0 (on 2) ({ p0 with flags := 0x7F }) (on 2) ∧
    both
        (fun p s =>
          (ready (.keyZeroise p) s, firstFail ([(!s.regs.zArm, St.not_armed), (p.rsv 0 0 true, St.invalid_param)])))
        p0 ({ on 2 with regs.zArm := true }) ({ p0 with flags := 0x7F }) ({ on 2 with regs.zArm := true }) := by decide +kernel

theorem test_meets_KeyCommands_2 :
    both
        (fun p s =>
          let r := p.target.toNat
          (ready (.authChallenge p) s, firstFail ([(r = 0 && (officerKey s).isNone, St.no_officer_key), (s.keys.errState, St.self_test_failed),
            (p.rsv 8 0 false || decide (1 < r) || badBuf p.addr 1 48, St.invalid_param)])))
        ({ p0 with params := 0x10000, target := 1 }) (on 2) ({ p0 with params := 0x10000, target := 1, flags := 0x7F }) (on 2) ∧
    both
        (fun p s =>
          let r := p.target.toNat
          (ready (.authResponse p) s, firstFail ([(p.rsv 56 0 false || decide (1 < r) || badBuf p.addr 1 96, St.invalid_param), (!p.readOk, St.host_read_failed)])))
        ({ p0 with target := 1, data := List.replicate 96 0 }) ({ on 2 with cp.bme := true }) ({ p0 with target := 1, data := List.replicate 96 0, flags := 0x7F }) ({ on 2 with cp.bme := true }) ∧
    both
        (fun p s =>
          (ready (.authUserSet p) s, firstFail ([(p.rsv 8 0 true || badBuf p.addr 1 96, St.invalid_param), (!p.readOk, St.host_read_failed)])))
        ({ p0 with data := List.replicate 96 1 }) ({ on 2 with cp.bme := true }) ({ p0 with data := List.replicate 96 1, flags := 0x7F }) ({ on 2 with cp.bme := true }) ∧
    both
        (fun p s =>
          (ready (.approvedMode p) s, firstFail ([(!s.locked, St.region_unlocked), (s.keySt ≠ 2, St.key_state), (!s.keys.testsOk, St.self_test_failed), (s.keys.tapOpen, St.tap_open),
            (!s.keys.custOn, St.no_officer_key), (p.rsv 0 0 true, St.invalid_param)])))
        p0 ({ on 2 with trip.lock := Trip.all 1, trip.key := Trip.all 2, keys.testsOk := true, keys.tapOpen := false, keys.custOn := true }) ({ p0 with flags := 0x7F }) ({ on 2 with trip.lock := Trip.all 1, trip.key := Trip.all 2, keys.testsOk := true, keys.tapOpen := false, keys.custOn := true }) := by decide +kernel

theorem test_meets_KeyCommands_3 :
    both
        (fun p s =>
          (ready (.selfTest p) s, firstFail ([(p.rsv 0 0 true, St.invalid_param)])))
        p0 (on 2) ({ p0 with flags := 0x7F }) (on 2) := by decide +kernel

theorem test_meets_KeyCommands_ends :
    let g := fun (op : Byte) => (⟨4, p0, op, 1, 0, 0, []⟩ : Prog)
    let s := fun (m : BitVec 3) (op : Byte) => ({ on 2 with trip.key := Trip.all m, cp.prog := [g op], boot.flash := [⟨some 4, 1, false, none⟩] } : State)
    let v := fun (m : BitVec 3) (op : Byte) => ({ s m op with boot.flash := [] } : State)
    let k := Config.genWrapped (on 2).free
    (∀ m op, (s m op).off = false ∧ (s m op).boot.flash = ⟨some (g op).id, 1, false, none⟩ :: [] ∧
      (s m op).cp.prog.find? (fun h => h.id = (g op).id) = some (g op) ∧ (s m op).keys.errState = false ∧ (s m op).keys.wiped = false) ∧
    (s 0 0x55).keySt = 0 ∧ (s 1 0x56).keySt = 1 ∧
    (let t := setKeySt 1 { v 0 0x55 with keys.identPub := publicOf k, keys.identPriv := k, keys.stored := 1, free := (on 2).free + 1 }
     (finishBlock (g 0x55) (wordBytes 96 (publicOf k)) St.ok (identDigest t) t).boot.drainInBoot = false) ∧
    (let t := setKeySt 2 { v 1 0x56 with keys.sealPub := publicOf k, keys.sealPriv := k, keys.serial := (on 2).keys.serial + 1, keys.stored := 2, free := (on 2).free + 1 }
     let u := { t with keys.cert := certBytes t, free := (on 2).free + 2 }
     (finish (g 0x56) St.ok 0 (if (s 1 0x56).str.log.isSome then addItem 0xFFFFFFFE (certBytes t) false u else u)).boot.drainInBoot = false) ∧
    (finish (g 0x58) St.ok 0 (setKeySt 3 { v 0 0x58 with keys.identPriv := 0, keys.sealPriv := 0, keys.wiped := true, keys.stored := 3 })).boot.drainInBoot = false :=
  ⟨fun m op => ⟨rfl, rfl, rfl, rfl, rfl⟩, by decide +kernel, by decide +kernel, rfl, rfl, rfl⟩

theorem test_meets_RegulationCommands_1 :
    both
        (fun p s =>
          let k := pairOf p.target
          (ready (.regGuarSet p) s, firstFail ([(badPair s p.target || p.rsv 10 0 false || decide (k % 5 = 4) || decide (26200 < p.par 0 4) || decide (26200 < p.par 4 4) ||
            decide (100 < p.par 8 1) || decide (100 < p.par 9 1), St.invalid_param)])))
        p0 (on 2) ({ p0 with flags := 0x7F }) (on 2) ∧
    both
        (fun p s =>
          (ready (.regCapSet p) s, firstFail ([(badPair s p.target || p.rsv 2 0 false || decide (1024 < p.par 0 2), St.invalid_param)])))
        p0 (on 2) ({ p0 with flags := 0x7F }) (on 2) ∧
    both
        (fun p s =>
          let n := p.target.toNat
          (ready (.regFarPlan p) s, firstFail ([(p.rsv 8 0 false || decide (s.nFar ≤ n) || p.par 0 4 = 0 || decide (26200 < p.par 0 4) || p.par 4 4 = 0 || decide (26200 < p.par 4 4),
            St.invalid_param)])))
        ({ p0 with params := 0x100006658, target := 3 }) (on 2) ({ p0 with params := 0x100006658, target := 3, flags := 0x7F }) (on 2) ∧
    both
        (fun p s =>
          (ready (.regParamSet p) s, firstFail ([(p.rsv 4 0 true || decide (p.par 0 1 < 50) || decide (100 < p.par 0 1) || decide (p.par 1 1 < 16) || decide (64 < p.par 1 1) ||
            p.par 2 2 = 0 || decide (1000 < p.par 2 2), St.invalid_param)])))
        ({ p0 with params := 0x3e84032 }) (on 2) ({ p0 with params := 0x3e84032, flags := 0x7F }) (on 2) := by decide +kernel

theorem test_meets_RegulationCommands_2 :
    both
        (fun p s =>
          let k := pairOf p.target
          (ready (.regQuery p) s, firstFail ([(badPair s p.target || p.rsv 8 1 false || badBuf p.addr 64 64, St.invalid_param)])))
        p0 (on 2) ({ p0 with flags := 0x7F }) (on 2) ∧
    both
        (fun p s =>
          (ready (.regCapacityQuery p) s, firstFail ([(p.rsv 8 0 true || badBuf p.addr 64 64, St.invalid_param)])))
        p0 (on 2) ({ p0 with flags := 0x7F }) (on 2) := by decide +kernel

theorem test_meets_ErrorCommands_1 :
    both
        (fun p s =>
          let c := p.par 8 4
          (ready (.errLogRead p) s, firstFail ([(p.rsv 12 0 true || c = 0 || decide (4096 < c) || badBuf p.addr 32 (32 * c), St.invalid_param)])))
        ({ p0 with params := 0x10000000000000010000 }) (on 2) ({ p0 with params := 0x10000000000000010000, flags := 0x7F }) (on 2) ∧
    both
        (fun p s =>
          let v := p.par 0 8
          (ready (.errLogAck p) s, firstFail ([(p.rsv 8 0 true || decide (v < s.err.rd) || decide (s.err.wr < v), St.invalid_param)])))
        p0 (on 2) ({ p0 with flags := 0x7F }) (on 2) ∧
    both
        (fun p s =>
          let i := p.target.toNat
          (ready (.errMirrorSet p) s, firstFail ([(p.rsv 0 0 false || (decide (i ≠ 0xFFFF) && (decide (1023 < i) || !mirrorOk (s.region i))), St.invalid_param)])))
        ({ p0 with target := 65535 }) (on 2) ({ p0 with target := 65535, flags := 0x7F }) (on 2) ∧
    both
        (fun p s =>
          (ready (.errQuery p) s, firstFail ([(p.rsv 8 1 true || badBuf p.addr 32 160, St.invalid_param)])))
        p0 (on 2) ({ p0 with flags := 0x7F }) (on 2) := by decide +kernel

theorem test_meets_ErrorCommands_2 :
    both
        (fun p s =>
          let n := p.target.toNat
          (ready (.retireSet p) s, firstFail ([(p.rsv 0 0 false, St.invalid_param), (decide (s.nSets ≤ n), St.range_exceeds),
            (!setGone s n && decide (4096 ≤ s.err.rlSets.length), St.retire_full)])))
        ({ p0 with target := 8388607 }) ((on 2).trained) ({ p0 with target := 8388607, flags := 0x7F }) ((on 2).trained) ∧
    both
        (fun p s =>
          let n := p.target.toNat
          (ready (.retireBank p) s, firstFail ([(p.rsv 0 0 false, St.invalid_param), (decide (511 < n) || s.popK.isNone || decide (2 ^ s.popC ≤ n % 32), St.range_exceeds),
            (!s.cache.retBanks.contains n && decide (64 ≤ s.err.rlBanks.length), St.retire_full)])))
        ({ p0 with target := 487 }) ((on 2).trained) ({ p0 with target := 487, flags := 0x7F }) ((on 2).trained) ∧
    both
        (fun p s =>
          let n := p.target.toNat
          let st := fun (s : State) => if n < 4096 then s.err.rlSets[n]? else none
          let bk := fun (s : State) => if n < 4096 then none else s.err.rlBanks[n - 4096]?
          (ready (.retireClear p) s, firstFail ([(p.rsv 0 1 false || (!p.flag 0 && (st s).isNone && (bk s).isNone), St.invalid_param)])))
        ({ p0 with flags := 1 }) (on 2) ({ p0 with  flags := 0x7F }) (on 2) ∧
    both
        (fun p s =>
          (ready (.retireQuery p) s, firstFail ([(p.rsv 8 0 true || badBuf p.addr 64 16536, St.invalid_param)])))
        p0 (on 2) ({ p0 with flags := 0x7F }) (on 2) := by decide +kernel

theorem test_meets_ErrorCommands_3 :
    both
        (fun p s =>
          (ready (.scrubSet p) s, firstFail ([(p.rsv 5 0 true || decide (168 < p.par 0 1) || p.par 1 1 ≠ 0 || p.par 2 2 = 0 || p.par 4 1 = 0, St.invalid_param)])))
        ({ p0 with params := 0x1000100a8 }) (on 2) ({ p0 with params := 0x1000100a8, flags := 0x7F }) (on 2) ∧
    both
        (fun p s =>
          let n := p.target.toNat
          (ready (.farRecover p) s, firstFail ([(p.rsv 0 0 false || decide (s.nFar ≤ n), St.invalid_param), (!(s.farP n).dead, St.not_dead)])))
        ({ p0 with target := 3 }) ((on 2).updFar 3 (fun f => { f with dead := true })) ({ p0 with target := 3, flags := 0x7F }) ((on 2).updFar 3 (fun f => { f with dead := true })) ∧
    both
        (fun p s =>
          (ready (.freezeQuery p) s, firstFail ([(p.rsv 8 0 false || decide (s.nPorts ≤ p.target.toNat) || badBuf p.addr 32 32, St.invalid_param)])))
        p0 (on 2) ({ p0 with flags := 0x7F }) (on 2) ∧
    both
        (fun p s =>
          let k := p.par 0 1
          let o := BitVec.ofNat 64 (p.par 8 8)
          (ready (.errInject p) s, firstFail ([(s.approved, St.inject_locked), (s.err.inj.isSome, St.inject_busy),
            (p.rsv 16 0 true || p.par 1 7 ≠ 0 || injBad s k o, St.invalid_param), (k = 2 && decide (s.nSets ≤ nbits o 25 0), St.range_exceeds)])))
        p0 (on 2) ({ p0 with flags := 0x7F }) (on 2) := by decide +kernel

theorem test_meets_MonitorAndReplayCommands_1 :
    both
        (fun p s =>
          let n := p.target.toNat
          (ready (.monPortSet p) s, firstFail ([(p.rsv 4 0 false || decide (s.nPorts ≤ n) || (List.range 4).any (fun i => decide (0x10 < p.par i 1)), St.invalid_param)])))
        p0 (on 2) ({ p0 with flags := 0x7F }) (on 2) ∧
    both
        (fun p s =>
          (ready (.monSysSet p) s, firstFail ([(p.rsv 34 0 false || decide (7 < p.target.toNat) || monSysBad p, St.invalid_param)])))
        p0 (on 2) ({ p0 with flags := 0x7F }) (on 2) ∧
    both
        (fun p s =>
          (ready (.monQuery p) s, firstFail ([(p.rsv 8 0 true || badBuf p.addr 1 448, St.invalid_param)])))
        p0 (on 2) ({ p0 with flags := 0x7F }) (on 2) ∧
    both
        (fun p s =>
          let r := p.par 2 2
          (ready (.recConfig p) s, firstFail ([(p.rsv 16 7 true || decide (1 < p.par 0 1) || p.par 1 1 ≠ 0 || p.par 4 4 ≠ 0 || decide (2 ^ 40 ≤ p.par 8 8) || p.par 8 8 = 0 || decide (1023 < r) ||
            !traceOk (s.region r) || (p.flag 0 && (p.par 0 1 = 1 || p.flag 1)), St.invalid_param),
            (decide (Rg.size (s.region r) < p.par 8 8), St.range_exceeds), (s.recording || s.quiescing, St.rec_active)])))
        ({ p0 with params := 0x10000000000000000000 }) ((on 2).with0 (ent 0 0x1000 (2 ^ 129))) ({ p0 with params := 0x10000000000000000000, flags := 0x7F }) ((on 2).with0 (ent 0 0x1000 (2 ^ 129))) := by decide +kernel

theorem test_meets_MonitorAndReplayCommands_2 :
    both
        (fun p s =>
          (ready (.recStart p) s, firstFail ([(p.rsv 0 0 true || !s.rec_.configured, St.invalid_param), (s.recording || s.quiescing, St.rec_active)])))
        p0 ({ on 2 with rec_.configured := true }) ({ p0 with flags := 0x7F }) ({ on 2 with rec_.configured := true }) ∧
    both
        (fun p s =>
          (ready (.recStop p) s, firstFail ([(p.rsv 0 0 true, St.invalid_param)])))
        p0 (on 2) ({ p0 with flags := 0x7F }) (on 2) ∧
    both
        (fun p s =>
          (ready (.recQuery p) s, firstFail ([(p.rsv 8 0 true || badBuf p.addr 1 64, St.invalid_param)])))
        p0 (on 2) ({ p0 with flags := 0x7F }) (on 2) ∧
    both
        (fun p s =>
          let rs := recParse 4096 p.data
          (ready (.replayStart p) s, firstFail (replayChecks p rs s)))
        ({ p0 with params := 0x500000000000000000000000000000000, data := trace0 }) ((on 2).with0 (ent 0 0x1000 (2 ^ 129))) ({ p0 with params := 0x500000000000000000000000000000000, data := trace0, flags := 0x7F }) ((on 2).with0 (ent 0 0x1000 (2 ^ 129))) := by decide +kernel

theorem test_meets_MonitorAndReplayCommands_3 :
    both
        (fun p s =>
          (ready (.replayStop p) s, firstFail ([(p.rsv 0 0 true, St.invalid_param)])))
        p0 (on 4) ({ p0 with flags := 0x7F }) (on 4) ∧
    both
        (fun p s =>
          (ready (.replayQuery p) s, firstFail ([(p.rsv 8 0 true || badBuf p.addr 1 128, St.invalid_param)])))
        p0 (on 2) ({ p0 with flags := 0x7F }) (on 2) ∧
    both
        (fun p s =>
          (ready (.ageingMeasure p) s, firstFail ([(p.rsv 0 0 true, St.invalid_param)])))
        p0 (on 2) ({ p0 with flags := 0x7F }) (on 2) ∧
    both
        (fun p s =>
          (ready (.ageingQuery p) s, firstFail ([(p.rsv 8 0 true || badBuf p.addr 64 64, St.invalid_param)])))
        p0 (on 2) ({ p0 with flags := 0x7F }) (on 2) := by decide +kernel

theorem test_meets_MonitorAndReplayCommands_4 :
    both
        (fun p s =>
          (ready (.thermalQuery p) s, firstFail ([(p.rsv 8 0 true || badBuf p.addr 64 64, St.invalid_param)])))
        p0 (on 2) ({ p0 with flags := 0x7F }) (on 2) := by decide +kernel

theorem test_meets_FirmwareCommands_1 :
    both
        (fun p s =>
          let off := p.par 8 4
          let n := p.par 12 4
          (ready (.fwDownload p) s, firstFail ([(p.rsv 16 0 true || badBuf p.addr 8 n || off % 4096 ≠ 0 || n = 0 || decide (4194304 < n), St.invalid_param),
            (decide (4194304 < off + n), St.range_exceeds), (!p.readOk, St.host_read_failed)])))
        ({ p0 with params := 0x1000003ff0000000000000010000 }) ({ on 2 with cp.bme := true }) ({ p0 with params := 0x1000003ff0000000000000010000, flags := 0x7F }) ({ on 2 with cp.bme := true }) ∧
    both
        (fun p s =>
          (ready (.fwCommit p) s, firstFail (commitChecks p s)))
        ({ p0 with params := 0x2, target := 3 }) ({ on 2 with boot.staging := [(0, custImage)], keys.custOn := true, keys.cust := sha384w (slice0 custImage 8 96) }) ({ p0 with params := 0x2, target := 3, flags := 0x7F }) ({ on 2 with boot.staging := [(0, custImage)], keys.custOn := true, keys.cust := sha384w (slice0 custImage 8 96) }) ∧
    both
        (fun p s =>
          let t := p.target.toNat
          (ready (.fwActivate p) s, firstFail ([(t = 2 && s.mode = 1, St.mode_refused), (p.rsv 0 1 false || decide (2 < t), St.invalid_param),
            (decide (t < 2) && !bit s.boot.slotsOk t, St.image_invalid)] ++
            (if t = 2 then (s.boot.polBad, St.image_invalid) :: imgChecks s (leAt s.boot.polArea 8 4) s.boot.polArea else []))))
        ({ p0 with target := 1 }) ({ on 2 with boot.slotsOk := 3 }) ({ p0 with target := 1, flags := 0x7F }) ({ on 2 with boot.slotsOk := 3 }) ∧
    both
        (fun p s =>
          (ready (.fwQuery p) s, firstFail ([(p.rsv 8 0 true || badBuf p.addr 128 128, St.invalid_param)])))
        p0 (on 2) ({ p0 with flags := 0x7F }) (on 2) := by decide +kernel

theorem test_meets_FirmwareCommands_2 :
    both
        (fun p s =>
          let h := leNat (p.data.take 48)
          (ready (.customerKeySet p) s, firstFail ([(p.rsv 8 0 true || badBuf p.addr 1 48, St.invalid_param), (!p.readOk, St.host_read_failed), (h = 0, St.invalid_param)])))
        ({ p0 with data := List.replicate 48 1 }) ({ on 2 with cp.bme := true }) ({ p0 with data := List.replicate 48 1, flags := 0x7F }) ({ on 2 with cp.bme := true }) ∧
    both
        (fun p s =>
          (ready (.configQuery p) s, firstFail ([(p.rsv 8 0 true || badBuf p.addr 512 512, St.invalid_param)])))
        p0 (on 2) ({ p0 with flags := 0x7F }) (on 2) := by decide +kernel

theorem test_meets_PortCommands :
    both
        (fun p s =>
          let n := p.target.toNat
          let b := p.par 0 16
          (ready (.portConfig p) s, firstFail ([(p.rsv 16 0 false || s.nPorts ≤ n || portCfgBad b || !rangeOk s n (portCfgOf b), St.invalid_param)])))
        ({ p0 with params := 0x10000000100000001 }) (on 2) ({ p0 with params := 0x10000000100000001, flags := 0x7F }) (on 2) ∧
    both
        (fun p s =>
          let n := p.target.toNat
          (ready (.portReset p) s, firstFail ([(p.rsv 0 0 false || s.nPorts ≤ n, St.invalid_param), ((s.port n).link = 3, St.port_active)])))
        p0 (on 2) ({ p0 with flags := 0x7F }) (on 2) ∧
    both
        (fun p s =>
          let n := p.target.toNat
          (ready (.portQuery p) s, firstFail ([(p.rsv 8 0 false || s.nPorts ≤ n || badBuf p.addr 64 64, St.invalid_param)])))
        p0 (on 2) ({ p0 with flags := 0x7F }) (on 2) := by decide +kernel

/-- POLICY_LOAD: an image that passes every check but the signature's, which is a free value of log 4. -/
theorem test_meets_PolicyLoad :
    let p : Packet := { p0 with params := 0x1680000000000010000, data := policyImage }
    let s : State := { on 2 with cp.bme := true }
    ready (.policyLoad p) s = true ∧ p.rsv 12 0 true = false ∧ badBuf p.addr 8 (p.par 8 4) = false ∧
    firstFail (imgChecks s (p.par 8 4) (p.data.take (p.par 8 4))).dropLast = none ∧
    firstFail (imgChecks s (p.par 8 4) (p.data.drop 1)) = some St.image_invalid := by decide +kernel

/-- A configuration record (R469) of 13 agent IDs whose ports 0 to 11 have the IDs 1 to 12. -/
def configBody : List Byte :=
  leBytes 4 0x7E71C0F6 ++ List.replicate 12 0 ++ [13, 0, 0, 0, 1] ++ List.replicate 11 0 ++
    (List.range 12).flatMap (fun k => leBytes 16 (2 ^ 32 * (k + 1) + 2 ^ 64)) ++ List.replicate 280 0
/-- The record and its CRC. -/
def configImage : List Byte := configBody ++ leBytes 8 (crc64 configBody).toNat
theorem configBody_length : configBody.length = 504 := by decide +kernel
theorem leBytes_len (k v : Nat) : (leBytes k v).length = k := by
  induction k generalizing v with
  | zero => rfl
  | succ k ih => simp [leBytes, ih]
theorem leNat_leBytes (k v : Nat) : leNat (leBytes k v) = v % 256 ^ k := by
  induction k generalizing v with
  | zero => simp [leBytes, leNat]; omega
  | succ k ih =>
    have := ih (v / 256)
    simp only [leNat, leBytes, List.foldr_cons] at *
    have h8 : (BitVec.ofNat 8 v).toNat = v % 256 := BitVec.toNat_ofNat ..
    rw [this, h8, Nat.pow_succ', Nat.mod_mul]
theorem configImage_crc : leAt configImage 504 8 = (crc64 (configImage.take 504)).toNat := by
  have h1 : configImage.drop 504 = leBytes 8 (crc64 configBody).toNat := by
    rw [configImage, ← configBody_length, List.drop_left]
  have h2 : configImage.take 504 = configBody := by rw [configImage, ← configBody_length, List.take_left]
  rw [h2, leAt, h1, List.take_of_length_le (by simp [leBytes_len]), leNat_leBytes]
  exact Nat.mod_eq_of_lt (crc64 configBody).isLt
theorem configImage_sound : configBad (on 2) configImage = false := by
  simp only [configBad, configImage_crc, ne_eq, not_true_eq_false, decide_false, Bool.or_false]
  decide +kernel
theorem test_meets_ConfigWrite : (let p : Packet := { p0 with data := configImage }
     let s : State := { on 2 with cp.bme := true }
     ready (.configWrite p) s = true ∧ firstFail ([(p.rsv 8 0 true || badBuf p.addr 1 512, St.invalid_param), (!p.readOk, St.host_read_failed), (configBad s (p.data.take 512), St.invalid_param)]) = none) := by
  have h : configImage.take 512 = configImage := List.take_of_length_le (by simp [configImage, leBytes_len, configBody_length])
  refine ⟨by decide +kernel, ?_⟩
  simp only [h, show configBad { on 2 with cp.bme := true } configImage = false from configImage_sound]
  decide +kernel

/-- Port 3 open to an agent (or a hub) with the ID 4. -/
def linked (hub : BitVec 2) : State := (on 2).updPort 3 (fun q => { q with
  link := 3, cfg := ⟨true, 2, 4, 1, hub⟩, rxCr := [(0, 8), (1, 8), (2, 8), (3, 80)] })
/-- A slice with one transaction on line 0. -/
def Sys2Proof.Machine.State.txn0 (s : State) (f : Txn → Txn) : State := s.updSlice 0 (fun h => { h with tt := [f (newTxn 1 0 .req 5 0 1024)] })
/-- A running event of the sequencer of a slice. -/
def event (kind : BitVec 3) : SeqEv := ⟨1, kind, 3, 0, false, 0, 1, 0, 0, 0, 0x3FFF, 0, none, false⟩
def running (sl : Nat) (e : SeqEv) : State := (on 3).updSeq sl (fun q => { q with run := some e })
/-- The same, with an instruction's word fetched for the program counter. -/
def about (sl : Nat) (e : SeqEv) (i : Instr) : State :=
  (running sl e).updSeq sl (fun q => { q with fbuf := some (0, [(seqEncode i).getD 0]) })
/-- A far request on port 0. -/
def farReq (write : Bool) : FarReq := ⟨7, 0, 0, 0, write, 0, 0, false, .headTable, false, 0⟩

/-! ### Sequencers -/

/-- An instruction of every shape, in slice 7. -/
def samples : List Instr :=
  [.nop 7 0, .add 7 0 1 2 3, .addi 7 0 1 2 0xFFFFFFFFFF, .sub 7 0 1 2 3, .and 7 0 1 2 3, .andi 7 0 1 2 3, .or 7 0 1 2 3, .ori 7 0 1 2 3, .xor 7 0 1 2 3,
    .xori 7 0 1 2 3, .andn 7 0 1 2 3, .shl 7 0 1 2 63, .shr 7 0 1 2 63, .shlv 7 0 1 2 3, .shrv 7 0 1 2 3, .movi 7 0 1 5, .sel 7 0 1 2 3 3, .fnz 7 0 1 2 3,
    .lsb 7 0 1 2, .ffs 7 0 1 2, .popc 7 0 1 2, .mul 7 0 1 2 3, .cmpeq 7 0 1 2 3, .cmpltu 7 0 1 2 3, .cmpeqi 7 0 1 2 3, .cmpltui 7 0 1 2 3, .tstz 7 0 1 2 3,
    .ld 7 0 1 2 8191 false, .st 7 0 1 2 8191, .sti 7 0 1 2 3 2047, .iflush 7 0, .br 7 0 2047, .jr 7 0 1, .jal 7 0 1 2047, .done 7 0 1 2 1, .emit 7 0 1]
theorem test_meets_Issues :
    (about 7 (event 1) (.nop 7 0)).off = false ∧ ((running 7 (event 1)).seq 7).run = some (event 1) ∧
    ((running 7 (event 1)).seq 7).issued < evLimit (event 1) ∧ ((running 7 (event 1)).seq 7).land.guard 0 = true ∧
    ((running 7 (event 1)).seq 7).slot = false ∧
    ∀ i ∈ samples, seqDecode 7 ((about 7 (event 1) i).seq 7).word = some i := by decide +kernel

theorem test_meets_SequencerInstructionGates :
    let i : Instr := .br 7 0 5
    let s := about 7 (event 1) i
    let full := s.updSeq 7 (fun q => { q with issued := 64 })
    let slot := s.updSeq 7 (fun q => { q with slot := true })
    let bad := s.updSeq 7 (fun q => { q with fbuf := some (0, [0xFF00000000000000]) })
    seqRow i = some (7, 0, ⟨0x30, true, true, 1⟩) ∧ ((on 3).seq 7).run = none ∧ evLimit (event 1) ≤ (full.seq 7).issued ∧
    slot.sliceOff = false ∧ (slot.seq 7).issued < evLimit (event 1) ∧ (slot.seq 7).land.guard 0 = true ∧ (slot.seq 7).slot = true ∧
    standsIn s 7 ⟨0x30, true, true, 1⟩ = false ∧ seqDecode 7 (bad.seq 7).word = none ∧
    seqDecode 7 ((about 7 (event 1) (.nop 7 0)).seq 7).word = some (.nop 7 0) ∧ (.nop 7 0 : Instr) ≠ asWord i ∧
    seqDecode 7 (s.seq 7).word = some (asWord i) ∧ (s.seq 7).land.guard 8 = false ∧
    standsIn { s with pol.loaded := true } 7 ⟨0x38, true, false, 1⟩ = true := by decide +kernel

theorem test_meets_DoneAndEmit :
    let s := running 0 (event 1)
    (s.seq 0).slot = false ∧ (event 1).kind ≠ 0 ∧ (event 1).kind ≠ 4 ∧ polCmd s = none ∧ ¬(defaultOn s = true ∧ (s.seq 0).issued = 0) ∧
    ((s.updSeq 0 (fun q => { q with emits := 3 })).seq 0).emits < 4 ∧ 4 ≤ ((s.updSeq 0 (fun q => { q with emits := 4 })).seq 0).emits := by decide +kernel
/-- The sequencer is free after the DONE of a victim, an INIT and an event that a load waits for, and after a load's parity error. -/
theorem test_meets_DoneOfVictimAndInit :
    let v := fun (k : BitVec 3) => putRepl 0 0 0 ((running 0 (event k)).updSeq 0 Seq.ended)
    (polWait (victimResult 0 (event 0) 0 25 (v 0)) |>.seq 0).run = none ∧ (initEnd 0 true (v 4) |>.seq 0).run = none ∧
    (polWait (v 1) |>.seq 0).run = none ∧ (seqFault 0 0x20 (seqParity 0 0 true (running 0 (event 0))) |>.seq 0).run = none := by decide +kernel
theorem test_meets_VictimResult :
    let s := (running 0 (event 0)).updSlice 0 (fun h => { h with tbc := [(0, ⟨true, 0, false, 0⟩)] })
    (event 0).late = false ∧ (event 0).d + 24 < 25 ∧ 24 ≤ (event 0).d + 24 ∧ bit (16 : SWord) 4 = true ∧ bit (13 : SWord) 4 = false ∧ nbits (13 : SWord) 3 0 ≤ 13 ∧
    13 < nbits (14 : SWord) 3 0 ∧ (eligBy s 0x3FFF 0 false).testBit 13 = true ∧ (eligBy s 0x1FFF 0 false).testBit 13 = false := by
  decide +kernel

/-- The example that follows R115: an untouched tree gives way 0, a touch of way 0 way 8; within ways 0 to 5 that tree gives way 4. -/
theorem test_default_tree :
    defaultVictim 0 0 0x3FFF = 0 ∧ treePoint false 0 0 = 0x17 ∧ defaultVictim 0x17 0 0x3FFF = 8 ∧ defaultVictim 0x17 0 0x3F = 4 ∧
    defaultVictim 0 0x3000 0x3FFF = 12 := by decide +kernel
theorem test_meets_DefaultPolicy :
    let s : State := { running 0 (event 1) with pol.loaded := true }
    (s.seq 0).slot = false ∧ defaultOn s = true ∧ (s.seq 0).issued = 0 ∧ ((event 1).kind = 1 ∧ (event 2).kind = 2) ∧ polCmd s = none ∧
    s.sliceOff = false ∧ (s.seq 0).land.guard 0 = true := by decide +kernel

theorem test_meets_SequencerEvents :
    let s := (on 3).updSeq 2 (fun q => { q with vq := [event 0] })
    let full := (running 2 (event 4)).updSeq 2 (fun q => { q with issued := 65536 })
    s.sliceOff = false ∧ (s.seq 2).run = none ∧ nextEvent s 2 = (some (event 0), [], [], 0) ∧ (event 0).kind ≠ 4 ∧ (s.seq 2).vq = event 0 :: [] ∧
    (full.seq 2).run = some (event 4) ∧ evLimit (event 4) ≤ (full.seq 2).issued ∧
    ((running 2 (event 0)).seq 2).run = some (event 0) ∧ (event 0).kind = 0 ∧ (event 0).late = false := by decide +kernel

theorem test_meets_SequencerWordsDecodeBack :
    (seqRow (.sti 3 8 15 14 13 0xFFFFFFFFFF)).isSome = true ∧ (seqEncode (.movi 3 8 15 0xFFFFFFFFFF)).isSome = true ∧
    (seqEncode (.ld 0 0 1 2 3 false)).isSome = true := by decide +kernel

theorem test_meets_SequencerFrame :
    let s := running 7 (event 1)
    ownSequencer (.st 7 0 1 2 8191) s = true ∧ ownSequencer (.sti 7 8 1 2 3 2047) s = true ∧ ownSequencer (.jal 7 0 1 5) s = true ∧
    NMap.wf 0 (s.seq 7).dmem = true ∧ NMap.wf 0 (s.seq 7).imem = true := by decide +kernel

/-! ### Messages and links -/

theorem test_meets_RequestsJoin : let s := linked 0
    s.off = false ∧ s.mode ≠ 4 ∧ (3 : BitVec 4).toNat < s.nPorts ∧ (s.port 3).open_ = true ∧ 0 < NMap.get 0 (s.port 3).rxCr 0 := by decide +kernel

theorem test_meets_SoundAnswers :
    let h := Hd.mk 0 4 0 9 0 0 0
    let m := fun (op : Nat) => putBits h 0 8 op
    let snoop := fun (op : Byte) => (linked 0).txn0 (fun t => { t with ph := .snoops, snoops := [(3, op)] })
    let offer := (linked 0).txn0 (fun t => { t with ph := .stash, stashTo := some 3, offer := true })
    let pull := (linked 0).txn0 (fun t => { t with pull := true, port := 3, h := h })
    let held := setDir 0 (some 0) ⟨0, 3, 3, 8, 0⟩ (linked 0)
    (answerSound 3 (m 0x61) ((linked 0).txn0 (fun t => { t with grant := some 3 })) = true) ∧
    (∀ op ∈ [0x62, 0x63, 0x64, 0x88], answerSound 3 (m op) (snoop 0x40) = true) ∧
    ((snoopOn (snoop 0x40) 3 0).any (fun x => x.2.2 = 0x40 && x.2.2 ≠ 0x43 && !x.2.1.noFill && !x.2.1.fwd) = true) ∧
    ((snoopOn (snoop 0x42) 3 0).any (fun x => x.2.2 = 0x42) = true) ∧ ((snoopOn (snoop 0x43) 3 0).any (fun x => x.2.2 = 0x43) = true) ∧
    (∀ op ∈ [0x66, 0x6A], answerSound 3 (m op) offer = true) ∧ ((offerOn offer 3 0).isSome = true) ∧
    (∀ op ∈ [0x65, 0x89, 0x8A], answerSound 3 (m op) held = true) ∧ (held.dirOf 0).holders.testBit 3 = true ∧
    ((dirFix 0 (dirMeet 3 0 (answerIn 3 (m 0x65) 0 0 held))).dirOf 0).holders.testBit 3 = true ∧
    (∀ op ∈ [0x8B, 0x8C], answerSound 3 (m op) pull = true) ∧ ((pullOn pull 3 9).isSome = true) := by decide +kernel

theorem test_meets_SoundAnswers_other :
    let m := fun (op : Nat) => putBits (Hd.mk 0 4 0 9 0 0 0) 0 8 op
    let snoop := fun (op : Byte) (fwd noFill : Bool) =>
      (linked 0).txn0 (fun t => { t with ph := .snoops, snoops := [(3, op)], fwd := fwd, noFill := noFill, h := Hd.mk 0x10 4 0 0 0 0 0 })
    let g := fun (a : BitVec 18) => Hd.mk 0x88 4 4 9 0 0 a
    (∀ op ∈ [0x62, 0x63, 0x64, 0x88], answerSound 3 (m op) (snoop 0x42 true false) = true) ∧
    ((snoopOn (snoop 0x42 true false) 3 0).any (fun x => x.2.1.fwd && !x.2.1.noFill) = true) ∧
    answerSound 3 (g 4) (snoop 0x42 false false) = true ∧ answerSound 3 (g 6) (snoop 0x42 false false) = true ∧ forAgent (snoop 0x42 false false) 3 (g 4) = false ∧
    ((snoopOn (snoop 0x42 false false) 3 0).any (fun x => x.2.1.noFill || !grantFits x.2.2 (Hd.grant (g 4)) || decide (Hd.dst (g 4) ≠ Hd.src x.2.1.h)) = false) ∧
    ((snoopOn (snoop 0x42 false false) 3 0).any (fun x => !grantFits x.2.2 (Hd.grant (g 6))) = true) ∧
    (∀ op ∈ [0x65, 0x89, 0x8A], answerSound 3 (m op) (linked 0) = true) ∧
    (let u := dirFix 0 (dirMeet 3 0 (answerIn 3 (m 0x65) 0 0 (linked 0)))
     (u.dirOf 0).holders.testBit 3 = false ∧ (unresolvedOn u 0).isNone = true ∧ u.uncovered 0 = true) := by decide +kernel

theorem test_meets_HubMessages :
    let h := Hd.mk 0 4 0 9 0 0 0
    let s := (linked 1).with0 (ent 0 0x1000 (2 ^ 255 + 4 * 2 ^ 236))
    hubSound 3 (putBits (Hd.mk 0 4 0 9 0 0 4) 0 8 0x88) s = true ∧ (∀ op ∈ [0x40, 0x41, 0x44], hubSound 3 (putBits (Hd.mk 0 4 0 0 0 0 0) 0 8 op) s = true) ∧
    ∀ op ∈ [0x42, 0x43, 0x80, 0x81, 0x82, 0x83, 0x84, 0x60, 0x68, 0x69, 0x67], hubSound 3 (putBits h 0 8 op) s = true := by
  decide +kernel

theorem test_meets_LinkMessages :
    let s := linked 0
    let st := fun (l : BitVec 3) => s.updPort 3 (fun q => { q with link := l, gotParam := true, hold := 5, inRec := true, inRetry := true, replay := [(9, 0)] })
    let par : Slot := BitVec.ofNat 128 (0xF0 + 2 ^ 8 + 4 * 2 ^ 26 + 32 * 2 ^ 74 + 32 * 2 ^ 86 + 36 * 2 ^ 98 + 2 ^ 110)
    let got := fun (l : Slot) => (st 2).updPort 3 (fun q => { q with peerId := bits l 43 26, peerSize := bits l 127 110 })
    let few := par - 2 ^ 98
    let other := par + 2 ^ 26
    s.off = false ∧ ((st 2).port 3).link = 2 ∧ bit par 8 = true ∧ bit (0xF0 : Slot) 8 = false ∧ (identOk (got par) 3 par = true ∧ minsOk (got par) 3 par = true) ∧
    identOk (got other) 3 other = false ∧ (identOk (got few) 3 few = true ∧ minsOk (got few) 3 few = false) ∧ bit few 8 = true ∧ bit other 8 = true ∧
    (s.port 3).gotParam = false ∧ ((st 2).port 3).gotParam = true ∧ ((st 3).port 3).link ≠ 2 ∧
    bits (putBits (0x100 : Slot) 0 8 0xF1) 15 8 = (1 : Byte) ∧ bits (putBits (0x200 : Slot) 0 8 0xF1) 15 8 ≠ (1 : Byte) ∧
    (let r := (s.updPort 3 (fun q => { q with replay := [(9, 0)], inRetry := true })).port 3
     let e := fun (x : Slot) => bits (putBits x 0 8 0xF2) 23 8
     let any := fun (x : Slot) => r.replay.any (fun y => y.1 = e x)
     r.open_ = true ∧ r.inRec = false ∧ r.inRetry = true ∧ any 0x900 = true ∧ r.replayFrom = none ∧ any 0 = false ∧ e 0 = r.txSeq ∧
     any 0x700 = false ∧ e 0x700 ≠ r.txSeq ∧ ({ r with replayFrom := some 9 } : Port).replayFrom = some (e 0x900)) ∧
    ((st 3).port 3).inRec = true ∧ ((st 1).port 3).link = 1 ∧
    (∃ r : BitVec 2, r.toNat ≤ ((st 1).port 3).cfg.maxRate.toNat ∧ r.toNat ≤ ((st 1).port 3).rateCap.toNat) ∧
    (let n := fun (b : Bool) => (s.updPort 3 (fun q => { q with cfgNext := { q.cfgNext with enable := b } })).port 3
     (n true).cfgNext.enable = true ∧ (n false).cfgNext.enable = false) ∧
    ((st 4).port 3).link = 4 ∧ ((st 4).port 3).hold = 5 ∧ ((st 4).port 3).cfg.enable = true ∧
    nbits (putBits (0x20100 : Slot) 0 8 0xF1) 127 16 ≠ 0 ∧ nbits (putBits (0x1000000 : Slot) 0 8 0xF2) 127 24 ≠ 0 ∧
    nbits (putBits (0x100 : Slot) 0 8 0xF1) 127 16 = 0 ∧ nbits (putBits (0x900 : Slot) 0 8 0xF2) 127 24 = 0 := by decide +kernel

/-- A flit whose slots and credits are zero, with SEQ `n` and its CRC (R166, R167). -/
def sealed (n : Nat) : Flit :=
  BitVec.ofNat 2048 (n * 2 ^ 1952 + (~~~([BitVec.ofNat 8 n, BitVec.ofNat 8 (n / 256), 0, 0].foldl crcByte 0x7AC91CA10439DB8E)).toNat * 2 ^ 1984)
abbrev good (f : Flit) : Prop := (crc64 (leBytes 248 (nbits f 1983 0))).toNat = nbits f 2047 1984
theorem zeros61 : (List.replicate 61 (0 : Byte)).foldl crcByte (BitVec.allOnes 64) = 0x651D8FA6C934ACE1 ∧ (List.replicate 61 (0 : Byte)).foldl crcByte 0x651D8FA6C934ACE1 = 0x5A96EBEC65C7450B ∧
    (List.replicate 61 (0 : Byte)).foldl crcByte 0x5A96EBEC65C7450B = 0x063E4BCCBBB846DD ∧ (List.replicate 61 (0 : Byte)).foldl crcByte 0x063E4BCCBBB846DD = 0x7AC91CA10439DB8E := by decide +kernel
theorem zeros244 (l : List Byte) : crc64 (List.replicate 244 0 ++ l) = ~~~(l.foldl crcByte 0x7AC91CA10439DB8E) := by
  obtain ⟨h1, h2, h3, h4⟩ := zeros61
  rw [crc64, show List.replicate 244 (0 : Byte) = List.replicate 61 0 ++ List.replicate 61 0 ++ List.replicate 61 0 ++ List.replicate 61 0 from by decide +kernel]
  simp only [List.foldl_append, h1, h2, h3, h4]
theorem test_sealed_flits : good (sealed 0) ∧ good (sealed 5) ∧ good (sealed 0xFFFF) ∧ ¬ good 0 := by
  have e : ∀ n ∈ [0, 5, 0xFFFF], leBytes 248 (nbits (sealed n) 1983 0) = List.replicate 244 0 ++ [BitVec.ofNat 8 n, BitVec.ofNat 8 (n / 256), 0, 0] ∧
    (~~~([BitVec.ofNat 8 n, BitVec.ofNat 8 (n / 256), 0, 0].foldl crcByte 0x7AC91CA10439DB8E)).toNat = nbits (sealed n) 2047 1984 := by decide +kernel
  have g : ∀ n ∈ [0, 5, 0xFFFF], good (sealed n) := fun n hn => by rw [good, (e n hn).1, zeros244, (e n hn).2]
  refine ⟨g 0 (by simp), g 5 (by simp), g _ (by simp), ?_⟩
  rw [good, show leBytes 248 (nbits (0 : Flit) 1983 0) = List.replicate 244 0 ++ [0, 0, 0, 0] from by decide +kernel, zeros244]
  decide +kernel
theorem test_meets_Flits :
    let s := linked 0
    let t := fun (f : Flit) => ackIn 3 (bits f 1983 1968) (creditsIn 3 f s)
    s.off = false ∧ 3 < s.nPorts ∧ (s.port 3).open_ = true ∧ (s.port 3).inRec = false ∧
    bits (sealed 0xFFFF) 1967 1952 = (0xFFFF : BitVec 16) ∧
    bits (sealed 0) 1967 1952 ≠ (0xFFFF : BitVec 16) ∧ bits (sealed 0) 1967 1952 = ((t (sealed 0)).port 3).rxE ∧ ((t (sealed 0)).port 3).open_ = true ∧
    bits (sealed 5) 1967 1952 ≠ (0xFFFF : BitVec 16) ∧ bits (sealed 5) 1967 1952 ≠ ((t (sealed 5)).port 3).rxE := by decide +kernel

/-! ### Slices, far memory, prefetching and walks -/

/-- A READ_ONCE of a port on a line, as it waits at a slice. -/
def waiting (port : Nat) (l : LineNo) : SliceIn := ⟨port, Hd.mk 0x12 4 0 9 l 0 0, 1024, none, 0, false, 0, none, false, 0, none, 0⟩
theorem test_meets_SliceRows :
    let mc := fun (k : McK) => (⟨7, 0, k, 0, 1, 0, 0, 0⟩ : McReq)
    let s := (on 3).updSlice 0 (fun h => { h with inq := [waiting 3 0], lineQ := [waiting 3 0], setQ := [5] })
    let m := fun (k : McK) => ({ ((on 3).txn0 id) with cache.mc := [mc k] } : State)
    s.sliceOff = false ∧ walkDue s 0 = false ∧ ((on 3).slice 0).inq = [] ∧ (m .tag).mode ≠ 4 ∧ stopsAt2 (s.updSlice 0 (fun h => { h with lineQ := [] })) 0 (waiting 3 0) = false ∧
    ((List.range 12).map (fun k => ((s.slice 0).rr + 1 + k) % 12)).find? (fun p => (s.slice 0).inq.any (fun i => i.port = p)) = some 3 ∧
    (s.slice 0).inq.find? (fun i => i.port = 3) = some (waiting 3 0) ∧
    (s.slice 0).lineQ.find? (fun i => Hd.line i.h = 0) = some (waiting 3 0) ∧ (waiting 3 0).walk = none ∧ (s.slice 0).isOpen 0 = false ∧ entReady s 0 (waiting 3 0) = true ∧
    (let f := s.updSlice 0 (fun h => { h with lineQ := List.replicate 2048 (waiting 3 0), tt := [newTxn 1 0 .req 5 0 1024] })
     2048 ≤ (f.slice 0).lineQ.length ∧ stopsAt2 f 0 (waiting 3 0) = true) ∧
    (s.slice 0).setQ.find? (fun i => match s.txn 0 i with | some t => wayRoom s 0 t | none => true) = some 5 ∧
    (m .tag).cache.mc.find? (fun m => m.id = 7 && m.kind ≠ .accept) = some (mc .tag) ∧
    (m (.line 13)).cache.mc.find? (fun m => m.id = 7 && m.kind ≠ .accept) = some (mc (.line 13)) ∧
    (m (.vict 5 2)).cache.mc.find? (fun m => m.id = 7 && m.kind ≠ .accept) = some (mc (.vict 5 2)) ∧
    (let r := { ((on 3).txn0 (fun t => { t with ph := .lineRead })) with cache.mc := [] }
     ((capMcData (mc (.line 13)) [] r).txn 0 1).map (fun t => t.ph) = some .lineRead) ∧
    (m .accept).cache.mc.find? (fun m => m.id = 7 && m.kind = .accept) = some (mc .accept) := by decide +kernel

theorem test_meets_Completions :
    let s := fun (w : Bool) => ({ on 3 with links.reqs := [farReq w], links.late := [9] } : State)
    let t := (on 3).txn0 (fun t => { t with ph := .snoops, snoops := [(3, 0x40)] })
    let o := (on 3).txn0 (fun t => { t with ph := .stash, stashTo := some 3, offer := true })
    (s false).off = false ∧ (s false).mode ≠ 4 ∧
    (s false).links.reqs.find? (fun q => q.id = 7 && !q.write && !q.atIssue) = some (farReq false) ∧
    (s true).links.reqs.find? (fun q => q.id = 7 && q.write && !q.atIssue) = some (farReq true) ∧
    (s false).links.reqs.find? (fun q => q.id = 9 && !q.write && !q.atIssue) = none ∧ (s false).links.late.contains 9 = true ∧
    (s true).links.reqs.find? (fun q => q.id = 7 && !q.atIssue) = some (farReq true) ∧ awaited t 3 0 = true ∧
    ((o.slice (homeSlice 0)).tt.find? (fun t => t.line = 0 && t.offer)).isSome = true ∧
    (s false).sliceOff = false ∧ 3 < (on 3).nFar ∧ ((on 3).updFar 3 (fun f => { f with up := true }) |>.farP 3).up = true ∧ (0 : BitVec 2).toNat ≤ ((on 3).farP 3).rateCap.toNat ∧ 7 < (on 3).trained.nChan := by decide +kernel

theorem test_meets_Prefetch :
    let s := ({ (on 3).trained with cache.enabled := true, cache.formatted := true }.with0 (ent 0 0x1000 0)).updSlice 0 (fun h => { h with nl := [(0, 0, 3, 1)] })
    let s := s.updPort 3 (fun q => { q with cand := [(0, 0)] })
    let w := fun (l : LineNo) c u => dirMeet 3 l (monSys 1 1 ⟨none, some l, some c, none⟩ u)
    let u := fun l => w l 1 (capIn 3 0 (intDesc 0xC9 0 0 1) 0 [] (s.updSlice 0 (fun h => { h with nl := [] })))
    let v := fun l => w l 1 (capIn 3 (homeSlice 0) (intDesc 0xC9 0 0 0) 0 [] (s.updPort 3 (fun q => { q with cand := [] })))
    s.sliceOff = false ∧ s.mode ≠ 4 ∧ walkDue s 0 = false ∧ nextReq s 0 = none ∧ nextReq (s.updSlice 0 (fun h => { h with inq := [waiting 3 0] })) 0 ≠ none ∧ s.quiescing = false ∧ (s.slice 0).nl = [(0, 0, 3, 1)] ∧ (s.port 3).cand = [(0, 0)] ∧
    candDropped (u 0) .nextLine 0 0 3 1 = false ∧ candDropped (u 0x1000) .nextLine 0x1000 0 3 1 = true ∧
    candDropped (v 0) .stream 0 0 3 1 = false ∧ candDropped (v 0x1000) .stream 0x1000 0 3 1 = true := by decide +kernel

/-- A CACHED hub whose set 0 is in the tag-block cache with line 0 dirty in way 0, and a walk of it. -/
def cached0 : State :=
  { (on 3).trained with cache.enabled := true, cache.formatted := true, err.scrub := 24 }.updSlice 0 (fun h => { h with
    tbc := [(0, ⟨true, putBits (fmtBlock 0) 0 32 0x3000, false, 0⟩)] })
def walking (byset recl : Bool) : Walk := ⟨1, 0x26, 0, 1, 0x3FFF, byset, recl, [], 0, 0, [], [], false, [], [], false, []⟩
def walked (byset recl : Bool) : State := { cached0 with cache.walks := [walking byset recl] }
/-- Line 0 of that walk as it stands in its line's queue. -/
def walkLine0 (s : State) : SliceIn := ⟨12, Hd.mk 0 0 0 0 0 0 0, s.regionIx 0, none, 0, false, BitVec.ofNat 64 s.cycle, none, false, 0, some (1, 0), 0⟩
def queued (s : State) : State := s.updSlice 0 (fun h => { h with lineQ := h.lineQ ++ [walkLine0 s] })
theorem test_meets_WalkVisits :
    (∀ b ∈ [true, false], (walked b false).sliceOff = false ∧ (walked b false).quiescing = false ∧ (walked b false).walk = some (walking b false) ∧
      nextAgain (walked b false) 0 = none ∧ (nextAgain (updWalk 1 (fun k => { k with again := [(8, 2)] }) (walked b false)) 0).isSome = true ∧ walkReady (walked b false) 0 1 = none ∧
      walkNext (walked b false) (walking b false) 0 = some 0 ∧ ((walked b false).slice 0).lineQ.length + ((walked b false).slice 0).inq.length < 2048 ∧
      (((walked b false).slice 0).resv (walked b false) 0).testBit 0 = false) ∧ (walked true false).wayLine 0 0 = 0 ∧
    (let u := updWalk 1 (fun k => { k with pos := NMap.set 0 k.pos 0 1 }) (queued (walked false false))
     walkReady u 0 1 = some (walkLine0 u) ∧ walkReady (u.txn0 id) 0 1 = none) := by decide +kernel
theorem test_meets_WalkTurns :
    (∀ b ∈ [true, false], walkReady (queued (walked b false)) 0 1 = some (walkLine0 (walked b false)) ∧
      (dirFix 0 (queued (walked b false))).combOf 0 0 = none ∧ walkPlace (walked b false) (walking b false) (walkLine0 (walked b false)) = some (0, 0)) ∧
    ((dirFix 0 (queued (walked true false))).tbcOf 0).valid = true ∧ ((dirFix 0 (queued (walked true false))).slice 0).lostSets.contains 0 = false ∧
    (let s := queued { walked false false with cache.enabled := false }
     walkReady s 0 1 = some (walkLine0 s) ∧ (dirFix 0 s).cache.enabled = false ∧ walkPlace s (walking false false) (walkLine0 s) = none) ∧
    (let s := queued (setDir 0 (some 0) ⟨0, 3, 3, 8, 0⟩ (walked false true))
     walkReady s 0 1 = some (walkLine0 s) ∧ reclSnoops (dirFix 0 s) 0x26 0 ≠ []) := by decide +kernel

/-- R75: a walk's line that is due goes before a request, and the request before the next one. -/
theorem test_walk_line_before_request :
    let s := (walked false false).updSlice 0 (fun h => { h with inq := [waiting 3 0x1000] })
    walkDue s 0 = true ∧ walkDue (s.updSlice 0 (fun h => { h with walkClk := 7 })) 0 = false ∧
    seen (fun t => ((t.slice 0).walkClk, (t.slice 0).inq.length)) (exec (.sliceLookup 0 ⟨⟨[], false⟩, 0⟩) s) = some (0, 1) := by decide +kernel

theorem test_meets_PatrolAndRecovery :
    let s := cached0
    let b := (on 3).updSlice 0 (fun h => { h with dirWalk := some 0, dirBad := [⟨0, 0, [0], 1, 0⟩], lostSets := [8] })
    s.mode = 3 ∧ s.quiescing = false ∧ s.err.scrub ≠ 0 ∧ (0x7FFFFF : BitVec 26).toNat < s.nSets ∧ s.retired 0x7FFFFF = false ∧
    (s.slice (0x7FFFFF % 8)).lostSets.contains 0x7FFFFF = false ∧
    tbDecode ((capWalk 0x78 7 0 0 0 0 s).rowTb 0) [] = some (fmtBlock 0, 0) ∧ fmtOk (fmtBlock 0) = true ∧
    tbDecode (fmtBlock 0) ((List.range 9).map (fun k => (k, 1))) = none ∧
    (b.slice 0).dirWalk = some 0 ∧ (b.slice 0).dirBad.find? (fun b => !b.left.isEmpty) = some ⟨0, 0, [0], 1, 0⟩ ∧ lineBusy b 0 0 = false ∧
    (b.slice 0).lostSets.contains 8 = true := by decide +kernel

/-! ### Streams, seals and regulation -/

theorem test_meets_StreamAndSeal :
    let it : LogItem := ⟨5, 0, 0, true, false, false, false, [], true, 7⟩
    let off : OffSt := { OffSt.init with done := true }
    let s := { (on 2).with0 (ent 0 131112 (2 ^ 129 + 2 ^ 131)) with str.log := some 0, str.items := [it, { it with idx := 6, placed := true }] }.updCtx 0
      (fun c => { c with state := 1, st := [(0, off)], hole := some 3, pendF := 8, ringLen := 1 })
    s.off = false ∧ s.sliceOff = false ∧ s.drain.step < 5 ∧ canHash (s.ctx 0) = true ∧ (s.ctx 0).hole = some 3 ∧ s.mode ≠ 5 ∧ (s.ctx 0).pendF ≠ 0 ∧ (s.ctx 0).inFlight = false ∧
    (s.ctx 0).state ≠ 0 ∧ logRoom s (s.ctx 0) = true ∧ s.str.items.find? (fun it => it.wantSig && !it.placed) = some it ∧
    (s.str.items.find? (fun it => it.placed && it.idx = 6 && !it.waitDead)).isSome = true ∧
    (hashRead 0 ⟨.error, .data 0 false⟩ [] s).2.2 = false ∧ (hashRead 0 ⟨.error, .data 0 true⟩ [] s).2.2 = true := by decide +kernel

theorem test_meets_Regulation :
    let s := (linked 0).updPort 3 (fun q => { q with freed := [(0, 2)] })
    s.off = false ∧ 2 ≤ NMap.get 0 (s.port 3).freed 0 ∧ (s.port 3).open_ = true ∧ mayReturn s 3 2 = true ∧ s.mode = 2 := by decide +kernel

/-! ### Drains, temperature and ageing -/

theorem test_meets_DrainRows :
    let d := fun (n : Nat) => ({ on 5 with drain.step := n, drain.extra := 3, drain.streams := [0] } : State).opened
    let dirty := { cached0 with drain.step := 6, drain.extra := 1 }
    bit (on 2).pfwCfg 8 = true ∧ (on 5).mode = 5 ∧ (on 5).ao.drainDone = false ∧ (on 2).mode ≠ 5 ∧ (d 2).drain.step = 2 ∧
    (∀ k ∈ (d 5).drain.streams, ((d 5).ctx k).inFlight = false ∧ ((d 5).ctx k).state ≠ 0) ∧ (d 5).drain.man = false ∧
    ({ d 5 with drain.streams := [] } : State).drain.streams = [] ∧ dirty.drain.extra ≠ 0 ∧
    (plainDirty dirty).find? (fun x => !lineBusy dirty (x.1 % 8) (dirty.wayLine x.1 x.2)) = some (0, 0) ∧ (d 9).drain.step = 9 := by decide +kernel

theorem test_meets_Gpf :
    let d := fun (n : Nat) => ({ on 5 with drain.step := n, drain.gpfWait := 8 } : State)
    (on 5).off = false ∧ ({ on 5 with drain.step := 7 } : State).drain.gpfWait = 0 ∧ (d 7).drain.step = 7 ∧ (d 8).drain.step = 8 ∧
    bit (d 7).drain.gpfWait (3 : BitVec 2).toNat = true ∧ (d 7).drain.gpfWait ≠ 0 := by decide +kernel

/-- Sixteen sensors at one reading (R511): the byte is the temperature plus 64. -/
def sensors (c : Nat) : List Byte := List.replicate 16 (BitVec.ofNat 8 (c + 64))
theorem test_meets_Thermal :
    let tj := fun (c : Nat) => ((List.range 16).map (fun i => (sensors c).getD i 0)).foldl (fun a x => if a < x then x else a) (0 : Byte)
    let warm := { on 3 with ao.level := 3, ao.tj := 64 }
    (on 3).off = false ∧ (on 3).ao.up = true ∧ (tj 144).toNat < 150 + 64 ∧ (tj 144).toNat < thermC (on 3) 32 + 64 ∧ 150 + 64 ≤ (tj 150).toNat ∧
    (tj 149).toNat < 150 + 64 ∧ thermC (on 3) 32 + 64 ≤ (tj 149).toNat ∧ (on 3).ao.tj.toNat < thermC (on 3) 32 + 64 ∧
    warm.ao.level ≠ 0 ∧ warm.ao.tj.toNat + 5 ≤ levelC warm warm.ao.level.toNat + 64 := by decide +kernel

theorem test_meets_Ageing :
    let s := { (on 3).trained with age.measuring := true, age.binPlan := 1 }
    s.off = false ∧ s.age.measuring = true ∧ s.age.bin < s.age.binPlan ∧ s.boot.fwRun = true ∧ ¬ (on 3).age.bin < (on 3).age.binPlan ∧
    (let u := { on 3 with age.vidPlan := 11 }; u.age.vid < u.age.vidPlan) ∧ (let u := { on 3 with age.vidPlan := 9 }; u.age.vidPlan < u.age.vid) ∧
    s.cache.trained = true ∧ (7 : BitVec 5).toNat < s.channels + s.cache.quar.length := by decide +kernel

/-! ### Upsets, resets and boot -/

theorem test_meets_VotesAndWatchdog :
    let t := (on 2).trip
    (on 2).off = false ∧ t.mode.vote 0 ≠ (0 : BitVec 64).setWidth 3 ∧ t.lock.vote 0 ≠ (1 : BitVec 64).setWidth 1 ∧ t.freeze.vote 0 ≠ (0 : BitVec 64).setWidth 5 ∧
    t.budget.vote 0 ≠ (0 : BitVec 64).setWidth 13 ∧ t.pfw.vote 0 ≠ (0 : BitVec 64).setWidth 64 ∧ t.key.vote 0 ≠ (1 : BitVec 64).setWidth 3 ∧
    t.lock.vote 0 = (2 : BitVec 64).setWidth 1 ∧ (on 2).boot.fwRun = true ∧ (txnAny ((on 2).txn0 id) 1).isSome = true ∧ txnAny (on 2) 1 = none := by decide +kernel

theorem test_meets_ResetRows :
    (on 2).ao.inReset = false ∧ (on 2).ao.up = true ∧ ({ on 2 with ao.inReset := true } : State).ao.inReset = true ∧
    ({ on 2 with ao.up := false } : State).ao.up = false := by decide +kernel

theorem test_meets_BootRows :
    let s := { on 1 with boot.fwRun := false, boot.slotsOk := 1, boot.cold := false, ao.firstBoot := false }
    let far := s.updFar 3 (fun q => { q with enable := true })
    let g : Prog := ⟨4, { p0 with target := 3 }, 0x79, 1, 0, 0, []⟩
    let rec_ := { on 2 with cp.prog := [g] }
    let ready := { (on 1).trained with pol.loaded := true, pol.stopped := false }
    let job := fun (n : Nat) => ({ s with boot.flash := [⟨none, n, false, none⟩], boot.drainInBoot := false } : State)
    s.off = false ∧ s.boot.fwRun = false ∧ s.boot.halted = false ∧ s.boot.recovery = false ∧ s.ao.firstBoot = false ∧ pickSlot s = some 0 ∧
    ({ s with boot.start := 0 } : State).boot.start = 0 ∧ s.mode = 1 ∧ s.boot.cold = false ∧ s.cache.trained = false ∧ recovering far 3 = none ∧ 3 < far.nFar ∧
    (far.farP 3).enable = true ∧ (far.farP 3).active = false ∧ (far.farP 3).dead = false ∧ recovering rec_ 3 = some g ∧ portQuiet rec_ 3 = true ∧
    exitReady ready = true ∧ holdInBoot ready = false ∧ ({ on 2 with drain.warm := 4 } : State).drain.warm = 4 ∧
    (job 2).boot.flash = ⟨none, 2, false, none⟩ :: [] ∧ (job 1).boot.flash = ⟨none, 1, false, none⟩ :: [] ∧ (job 2).boot.drainInBoot = false ∧
    (jobEnd ⟨none, 0, false, none⟩ { job 1 with boot.flash := [] }).boot.drainInBoot = false := by decide +kernel

/-! ### The control port, the register space and the recorder -/

theorem test_meets_ControlPath :
    let d := { on 2 with cp.d3 := true }
    let s := { on 2 with regs.qp0Sq := 0x1000, regs.qp0Cq := 0x2000, regs.qp0Size := 0x00010001 }
    let bad := fun (s : State) => badQueue s.regs.qp0Sq.toNat (nbits s.regs.qp0Size 15 0) 64 || badQueue s.regs.qp0Cq.toNat (nbits s.regs.qp0Size 31 16) 16
    d.off = false ∧ d.cp.d3 = true ∧ s.off = false ∧ s.cp.d3 = false ∧ (on 0).off = true ∧
    (s.updQp 0 (fun q => { q with on := true, deleting := true }) |>.qp 0).on = true ∧ s.regs.qp0En = false ∧ (s.qp 0).on = false ∧ bad s = false ∧
    bad (on 2) = true ∧ (on 2).regs.qp0En = false ∧ ({ s with regs.qp0En := true } : State).regs.qp0En = true := by decide +kernel

theorem test_meets_Queues :
    let s := { on 2 with cp.bme := true, cp.eqOn := true, cp.eqN := 128, cp.staged := [⟨1, 0, 0, 0⟩] }.updQp 1 (fun _ => { newPair 0x1000 0x2000 4 4 with sqTail := 1 })
    let full := s.updQp 1 (fun q => { q with waiting := [(0, 7, 0)] })
    let q := s.qp 1
    s.off = false ∧ s.cp.d3 = false ∧ q.on = true ∧ inRing q.sqN q.sqTail ((q.sqHead + q.sqN - 1) % q.sqN) 3 = true ∧ q.deleting = false ∧
    inRing q.cqN q.cqHead q.cqTail 0 = true ∧ s.cp.eqOn = true ∧ inRing s.cp.eqN s.cp.eqHead s.cp.eqTail 0 = true ∧ (s.qp 15).on = false ∧
    mayTake s 1 = true ∧ turnOf s 1 = true ∧ definedOps.contains (nbits (0x94 : BitVec 512) 7 0) = true ∧ definedOps.contains (nbits (0xFF : BitVec 512) 7 0) = false ∧
    (bit (0x80FF : BitVec 512) 15 && ({ s with cp.taken := [(1, 0)] } : State).cp.taken.any (fun t => t.1 = (1 : BitVec 4).setWidth 5)) = true ∧
    (full.qp 1).waiting = (0, 7, 0) :: [] ∧ full.dmaOff = false ∧ (full.qp 1).cqRoom = true ∧ s.cp.staged = ⟨1, 0, 0, 0⟩ :: [] ∧
    (s.cp.eqTail + 1) % s.cp.eqN ≠ s.cp.eqHead := by decide +kernel

theorem test_meets_RegisterWrites :
    let s := { on 2 with regs.guardP := some (0x8008, 100, 0) }
    let a := { on 2 with trip.key := Trip.all 6 }
    s.off = false ∧ s.cp.d3 = false ∧ lockedReg s 0x20 = false ∧ rwMask s 0x20 ≠ 0 ∧ lockedReg a 0x20 = true ∧ rwMask s 0x30 = 0 ∧ lockedReg s 0x30 = false ∧
    guardedReg (0x8000 + (0x8010 : BitVec 20).toNat % 0x800) = true ∧ (on 2).regs.guardP = none ∧ s.regs.guardP ≠ none ∧
    s.regs.guardP = some (BitVec.ofNat 20 (0x8000 + (0x8808 : BitVec 20).toNat % 0x800), 100, 0) ∧ (s.ao.time - 0).toNat ≤ 252 ∧
    ctrAt s 0x2C0 = some (.port 55) ∧ ctrAt s 0x340 = some (.sys 8) ∧ ctrAt s 0x500 = some (.dev 0) := by decide +kernel
/-- The guarded pair's clauses at their limits: the partner of another register, one that comes after 253 AO clocks, and a reserved offset. -/
theorem test_meets_GuardedPair :
    let s := { on 2 with regs.guardP := some (0x8010, 100, 0), ao.time := 253 }
    (0x8010 : BitVec 20).toNat ≠ 0x8000 + (0x8808 : BitVec 20).toNat % 0x800 ∧ (0x8010 : BitVec 20).toNat = 0x8000 + (0x8810 : BitVec 20).toNat % 0x800 ∧
    252 < (s.ao.time - 0).toNat ∧ (~~~(100 : BitVec 64)) ≠ 100 ∧ guardedReg (0x8000 + (0x8018 : BitVec 20).toNat % 0x800) = false ∧
    lockedReg (on 2) 0x8008 = false ∧ lockedReg { on 2 with trip.key := Trip.all 6 } 0x8010 = true ∧ s.regs.guardP ≠ none ∧
    bit (0x8000 : BitVec 64) 15 = true := by decide +kernel

theorem test_meets_Reads :
    let s := { on 2 with regs.latchOff := some 0 }
    (on 2).off = false ∧ (on 2).cp.d3 = false ∧ (on 2).regs.guardP = none ∧ (4 : BitVec 4) ≠ 8 ∧ (on 2).ao.up = true ∧
    (ctrAt (on 2) 0).isSome = true ∧ s.regs.latchOff = some (BitVec.ofNat 20 0) ∧ (on 2).regs.latchOff ≠ some (BitVec.ofNat 20 0) := by decide +kernel

theorem test_meets_Fifos :
    let f := fun (n : Nat) => ({ on 2 with regs.hmf.words := List.replicate n 0, regs.evf.words := [5] } : State)
    (f 255).off = false ∧ (f 255).cp.d3 = false ∧ (f 255).regs.hmf.words.length < 256 ∧ 256 ≤ (f 256).regs.hmf.words.length ∧ (f 1).regs.hmf.words = [0] ∧ (f 1).boot.fwRun = true ∧
    (on 2).regs.evf.words = [] ∧ (f 1).regs.evf.words = [5] ∧ (on 2).keys.tapOpen = false ∧ ({ on 2 with keys.tapOpen := true } : State).keys.tapOpen = true := by
  decide +kernel

theorem test_meets_Recorder :
    let q := { on 3 with rec_.st := 1 }
    let r := { (on 3).with0 (ent 0 0x1000 (2 ^ 129)) with rec_.st := 2, rec_.staging := List.replicate 128 0, rec_.cfg := 4, rec_.limit := 0x1000 }
    let p := { on 4 with rec_.rLeft := 1 }
    let z := { on 4 with rec_.rLeft := 0 }
    q.quiescing = true ∧ slicesIdle q = true ∧ r.off = false ∧ r.mode ≠ 4 ∧ r.recording = true ∧ 128 ≤ r.rec_.staging.length ∧ bit r.rec_.cfg 2 = true ∧
    traceOk (r.region r.rec_.region) = true ∧ deadAt r (spillLine r) = false ∧ p.mode = 4 ∧
    ((recCycles 4096 ((recParse 4096 []).take p.rec_.rLeft)).foldl replayGroup p).rec_.rLeft ≠ 0 ∧
    z.mode = 4 ∧ z.rec_.rLeft = 0 ∧ z.rec_.rOut = [] := by decide +kernel
/-- A spill that LIMIT ends, one beyond LIMIT, one to a region that is no trace's, what is left of a stopped recording, and an output that the trace does
not hold. -/
theorem test_meets_SpillAndDivergence :
    let r := fun (cfg : BitVec 4) (limit lines : Nat) (st : Byte) => ({ (on 3).with0 (ent 0 0x1000 (2 ^ 129)) with
      rec_.st := st, rec_.staging := List.replicate 128 0, rec_.cfg := cfg, rec_.limit := limit, rec_.lines := lines } : State)
    let d := { on 4 with rec_.rLeft := 0, rec_.rOut := [(3, 1, 2)] }
    bit (r 0 2 1 2).rec_.cfg 2 = false ∧ deadAt (r 0 2 1 2) (spillLine (r 0 2 1 2)) = false ∧ traceOk ((r 0 2 1 2).region 0) = true ∧
    (r 0 2 1 2).rec_.lines + 1 = (r 0 2 1 2).rec_.limit ∧ (r 0 2 2 2).rec_.limit ≤ (r 0 2 2 2).rec_.lines ∧ (r 0 3 1 2).rec_.lines + 1 < (r 0 3 1 2).rec_.limit ∧
    traceOk ((on 3).region 0) = false ∧ (r 0 2 1 3).recording = false ∧ (r 0 2 1 3).rec_.st = 3 ∧ (r 0 2 1 3).rec_.staging ≠ [] ∧ (on 3).recording = false ∧ (on 3).rec_.st ≠ 3 ∧
    ((recCycles 4096 ((recParse 4096 []).take d.rec_.rLeft)).foldl replayGroup d).rec_.rOut = (3, 1, 2) :: [] ∧ d.mode = 4 := by decide +kernel

/-! ### Rules of the whole machine -/

theorem test_meets_Gates :
    commandRow (.drain p0) = some (0x06, [mY, mC, mR], 1, false, p0) ∧ (on 0).deaf = true ∧ (on 2).deaf = false ∧ (on 2).canTake 0x39 p0 = true ∧
    State.reset.canTake 0x39 p0 = false ∧ (on 1).canTake 0x06 p0 = true ∧ blocked 0x39 true p0 ((on 2).updSeq 0 (fun q => { q with run := some (event 0) })) = false ∧
    (let t := { on 2 with cp.bme := false, cp.taken := [(1, p0.entry 0x39)] }; t.deaf = false ∧ t.canTake 0x39 p0 = true ∧ blocked 0x39 true p0 t = true) ∧ blocked 0x06 false p0 (on 1) = false ∧ modeBad 0x06 [mY, mC, mR] (on 1) = true ∧
    (let a := { on 2 with trip.key := Trip.all 6 }
     a.deaf = false ∧ a.canTake 0x06 p0 = true ∧ blocked 0x06 false p0 a = false ∧ modeBad 0x06 [mY, mC, mR] a = false ∧ authBad 1 a = true) := by decide +kernel

/-- R42: a region command waits behind one taken earlier, another command does not. -/
theorem test_region_commands_in_take_order :
    let s := { on 2 with cp.taken := [(1, p0.entry 0x12), (2, p0.entry 0x11)] }
    blocked 0x11 false { p0 with qp := 2 } s = true ∧ blocked 0x12 false p0 s = false ∧ blocked 0x33 false p0 s = false := by decide +kernel

theorem test_meets_LockedTable :
    let s := { on 2 with trip.lock := Trip.all 1 }.with0 (ent 0 0x1000 0)
    s.locked = true ∧ s.trip.lock = Trip.all 1 ∧ (on 2).locked = false ∧ ready (.regionLock p0) (on 2) = true ∧ p0.rsv 0 0 true = false ∧
    ready (.regionSet p0) s = true ∧ ready (.regionClear p0) s = true ∧ ready (.regionPerm p0) s = true ∧ ready (.regionLock p0) s = true ∧
    ready (.regionQuery p0) s = true ∧ (p0.rsv 8 0 false || decide (1023 < p0.target.toNat) || badBuf p0.addr 64 64) = false ∧
    ready (.regionLookup p0) s = true ∧ p0.rsv 5 0 true = false ∧ (s.cover (BitVec.ofNat 40 (p0.par 0 5))).isSome = true ∧
    isReset (.drain p0) = false ∧ changesKept (.seal p0) = false ∧ isQuery (.identify p0) = true := by decide +kernel

theorem test_meets_SetAndTag : (State.reset.trained.popK = some 23) ∧ setNo 23 0xFFFFFFFFFF < 2 ^ 23 := by decide +kernel

theorem test_meets_CustomerKey :
    let p := { p0 with data := List.replicate 48 1 }
    let s := { on 2 with cp.bme := true, keys.custOn := false }
    ready (.customerKeySet p) s = true ∧ (p.rsv 8 0 true || badBuf p.addr 1 48) = false ∧ p.readOk = true ∧ leNat (p.data.take 48) ≠ 0 ∧
    s.keys.custOn = false ∧ ready (.customerKeySet p) { s with keys.custOn := true } = true ∧
    leNat (({ p0 with data := List.replicate 48 0 } : Packet).data.take 48) = 0 := by decide +kernel

theorem test_meets_Settings : State.reset.kept.base.inRange ∧ ∃ t, step State.reset = .next t := ⟨by decide, _, rfl⟩

end Slice0
end

section
/-! The home slice is linear over XOR (R22); an aligned block adds a constant to the slices of its lines. -/
namespace Sys2Proof.Machine

/-- XOR over a list is linear: the XOR of sums is the sum of the XORs, each fold from its own start. -/
theorem foldl_xor_map_xor {α : Type} (f g : α → Bool) (ks : List α) (a b : Bool) :
    (ks.map (fun k => f k ^^ g k)).foldl xor (a ^^ b) = ((ks.map f).foldl xor a ^^ (ks.map g).foldl xor b) := by
  induction ks generalizing a b with
  | nil => rfl
  | cons k ks ih =>
    have step : ((a ^^ b) ^^ (f k ^^ g k)) = ((a ^^ f k) ^^ (b ^^ g k)) := by
      simp only [Bool.xor_assoc, Bool.xor_left_comm b]
    simp only [List.map_cons, List.foldl_cons, step, ih]

theorem xor3_xor (x y : LineNo) (i : Nat) : xor3 (x ^^^ y) i = (xor3 x i ^^ xor3 y i) := by
  simpa only [xor3, BitVec.getLsbD_xor, Bool.xor_false] using
    foldl_xor_map_xor (fun k => x.getLsbD (i + 3 * k)) (fun k => y.getLsbD (i + 3 * k)) (List.range 14) false false

/-- The number of three bits, as `homeSlice` packs them, takes XOR bit by bit. -/
theorem threeBits_xor : ∀ a b c a' b' c' : Bool,
    4 * b2n (a ^^ a') + 2 * b2n (b ^^ b') + b2n (c ^^ c') =
      (4 * b2n a + 2 * b2n b + b2n c) ^^^ (4 * b2n a' + 2 * b2n b' + b2n c') := by decide

theorem homeSlice_xor (x y : LineNo) : homeSlice (x ^^^ y) = homeSlice x ^^^ homeSlice y := by
  simp only [homeSlice, xor3_xor, threeBits_xor]

theorem homeSlice_lt (l : LineNo) : homeSlice l < 8 := by
  have bit_le : ∀ b, b2n b ≤ 1 := by decide
  have := bit_le (xor3 l 2); have := bit_le (xor3 l 1); have := bit_le (xor3 l 0)
  unfold homeSlice; omega

/-- An offset below the alignment of a base shares no bit with it, so adding it is XORing it. -/
theorem ofNat_aligned_add {w n i : Nat} (b : Nat) (hi : i < 2 ^ n) :
    BitVec.ofNat w (2 ^ n * b + i) = BitVec.ofNat w (2 ^ n * b) ^^^ BitVec.ofNat w i := by
  rw [← BitVec.ofNat_xor]
  congr 1
  refine Nat.eq_of_testBit_eq fun j => ?_
  rw [Nat.testBit_xor, Nat.testBit_two_pow_mul_add b hi, Nat.testBit_two_pow_mul]
  by_cases hj : j < n
  · simp [hj, Nat.not_le.mpr hj]
  · have high : i.testBit j = false := Nat.testBit_lt_two_pow (hi.trans_le (Nat.pow_le_pow_right (by omega) (by omega)))
    simp [hj, high, Nat.le_of_not_lt hj]

/-- The lines of an aligned block of 2^n lines differ in slice as the lines 0 to 2^n - 1 do: the bits above add a constant (R22). -/
theorem homeSlice_aligned_add {n i : Nat} (b : Nat) (hi : i < 2 ^ n) :
    homeSlice (BitVec.ofNat 40 (2 ^ n * b + i)) = homeSlice (BitVec.ofNat 40 (2 ^ n * b)) ^^^ homeSlice (BitVec.ofNat 40 i) := by
  rw [ofNat_aligned_add b hi, homeSlice_xor]

theorem homeSlice_ofNat_of_lt : ∀ i < 8, homeSlice (BitVec.ofNat 40 i) = i := by decide

/-- Each slice is home to four of the lines 0 to 31. -/
theorem length_filter_homeSlice_first32 : ∀ m < 8,
    ((List.range 32).filter (fun i => homeSlice (BitVec.ofNat 40 i) = m)).length = 4 := by decide

/-- Of the fourteen places `xor3` reads, 40 and 41 lie above a line number: only s0 has fourteen bits (R22). -/
theorem homeSlice_eq_parities (l : LineNo) : homeSlice l =
    4 * b2n (([2, 5, 8, 11, 14, 17, 20, 23, 26, 29, 32, 35, 38].map (fun i => l.getLsbD i)).foldl xor false) +
    2 * b2n (([1, 4, 7, 10, 13, 16, 19, 22, 25, 28, 31, 34, 37].map (fun i => l.getLsbD i)).foldl xor false) +
    b2n (([0, 3, 6, 9, 12, 15, 18, 21, 24, 27, 30, 33, 36, 39].map (fun i => l.getLsbD i)).foldl xor false) := by
  simp [homeSlice, xor3, List.range_succ]

/-- Each slice is home to four lines of an aligned granule: line i of it is at slice n where line i of the first one is at n XOR the granule's constant. -/
theorem length_filter_homeSlice_granule (b : Nat) {n : Nat} (hn : n < 8) :
    ((List.range 32).filter (fun i => homeSlice (BitVec.ofNat 40 (32 * b + i)) = n)).length = 4 := by
  have moved : ∀ i ∈ List.range 32, decide (homeSlice (BitVec.ofNat 40 (32 * b + i)) = n) =
      decide (homeSlice (BitVec.ofNat 40 i) = homeSlice (BitVec.ofNat 40 (32 * b)) ^^^ n) := by
    intro i hi
    have line : homeSlice (BitVec.ofNat 40 (32 * b + i)) = homeSlice (BitVec.ofNat 40 (32 * b)) ^^^ homeSlice (BitVec.ofNat 40 i) :=
      homeSlice_aligned_add (n := 5) b (List.mem_range.mp hi)
    rw [line]
    refine decide_eq_decide.mpr ⟨fun h => ?_, fun h => ?_⟩
    · rw [← h, Nat.xor_xor_cancel_left]
    · rw [h, Nat.xor_xor_cancel_left]
  rw [List.filter_congr moved]
  exact length_filter_homeSlice_first32 _ (Nat.xor_lt_two_pow (n := 3) (homeSlice_lt _) hn)

/-- Settles O55: the slice is linear over XOR, so the bits above an aligned block XOR one constant into the slices of its lines. -/
theorem homeSliceIsTheParityOfEveryThirdBit : Obligations.HomeSliceIsTheParityOfEveryThirdBit := by
  refine ⟨homeSlice_eq_parities, fun b _ i hi => ?_, fun b _ n hn => length_filter_homeSlice_granule b hn, by decide⟩
  calc homeSlice (BitVec.ofNat 40 (8 * b + i))
      _ = homeSlice (BitVec.ofNat 40 (8 * b)) ^^^ homeSlice (BitVec.ofNat 40 i) := homeSlice_aligned_add (n := 3) b hi
      _ = homeSlice (BitVec.ofNat 40 (8 * b)) ^^^ i := by rw [homeSlice_ofNat_of_lt i hi]

end Sys2Proof.Machine
end

section
/-! A set is the home slice of its lines below and their middle bits, XORed with their upper bits, above (R57): set and upper bits give the line back. -/
namespace Sys2Proof.Machine

/-- The population widths of R54. -/
theorem State.popK_bounds {s : State} {k : Nat} (h : s.popK = some k) : 23 ≤ k ∧ k ≤ 26 := by
  have dense : b2n s.cache.dense ≤ 1 := by cases s.cache.dense <;> decide
  have chans := s.cache.chans.isLt
  unfold State.popK at h
  split at h
  case isTrue => cases h
  case isFalse permitted =>
    have : s.cache.chans.toNat ≠ 3 := fun h3 => permitted (by simp [BitVec.eq_of_toNat_eq (y := (3 : BitVec 2)) h3])
    have : 23 + s.cache.chans.toNat + b2n s.cache.dense = k := Option.some.inj h
    omega

theorem State.nSets_of_popK {s : State} {k : Nat} (h : s.popK = some k) : s.nSets = 2 ^ k := by simp [State.nSets, h]

theorem State.setOf_of_popK {s : State} {k : Nat} (h : s.popK = some k) (l : LineNo) : s.setOf l = setNo k l := by simp [State.setOf, h]

theorem toNat_tagOf (l : LineNo) : (tagOf l).toNat = l.toNat / 2 ^ 22 := by
  have := l.isLt
  simp only [tagOf, bits, BitVec.extractLsb'_toNat, Nat.shiftRight_eq_div_pow]
  omega

theorem setNo_mod_eight (k : Nat) (l : LineNo) : setNo k l % 8 = homeSlice l := by
  have := homeSlice_lt l
  unfold setNo; omega

theorem two_pow_eq_eight_mul {k : Nat} (hk : 22 ≤ k) : 2 ^ k = 8 * 2 ^ (k - 3) := by
  rw [show k = 3 + (k - 3) by omega, Nat.pow_add, Nat.add_sub_cancel_left]

/-- L[39:k] and L[k-1:3] are the two parts of L[39:3]. -/
theorem div_two_pow_eq {k : Nat} (hk : 22 ≤ k) (n : Nat) : n / 2 ^ k = n / 8 / 2 ^ (k - 3) := by
  rw [two_pow_eq_eight_mul hk, Nat.div_div_eq_div_mul]

theorem mod_two_pow_div_eight_eq {k : Nat} (hk : 22 ≤ k) (n : Nat) : n % 2 ^ k / 8 = n / 8 % 2 ^ (k - 3) := by
  rw [two_pow_eq_eight_mul hk, Nat.mod_mul_right_div_self]

theorem setNo_div_eight {k : Nat} (hk : 22 ≤ k) (l : LineNo) : setNo k l / 8 = l.toNat % 2 ^ k / 8 ^^^ l.toNat / 2 ^ k := by
  rw [mod_two_pow_div_eight_eq hk, setNo, Nat.add_mul_div_left _ _ (by decide), Nat.div_eq_of_lt (homeSlice_lt l), Nat.zero_add]

theorem div_eight_lt {k n : Nat} (hk : 22 ≤ k) (hn : n < 2 ^ k) : n / 8 < 2 ^ (k - 3) :=
  Nat.div_lt_of_lt_mul (hn.trans_eq (two_pow_eq_eight_mul hk))

/-- L[39:k] fits in the k - 3 bits it is XORed with, from k = 22 on (R57). -/
theorem div_two_pow_lt {k : Nat} (hk : 22 ≤ k) (l : LineNo) : l.toNat / 2 ^ k < 2 ^ (k - 3) := by
  rw [Nat.div_lt_iff_lt_mul (by positivity), ← Nat.pow_add]
  exact l.isLt.trans_le (Nat.pow_le_pow_right (by decide) (by omega))

theorem setNo_lt {k : Nat} (hk : 22 ≤ k) (l : LineNo) : setNo k l < 2 ^ k := by
  have above : setNo k l / 8 < 2 ^ (k - 3) := by
    rw [setNo_div_eight hk]
    exact Nat.xor_lt_two_pow (div_eight_lt hk (Nat.mod_lt _ (by positivity))) (div_two_pow_lt hk l)
  have := two_pow_eq_eight_mul hk
  omega

/-- A line of an aligned block of eight has the slice of the block's first line, XORed with its place in the block (R22). -/
theorem homeSlice_block_add (b : Nat) {i : Nat} (hi : i < 8) :
    homeSlice (BitVec.ofNat 40 (8 * b + i)) = homeSlice (BitVec.ofNat 40 (8 * b)) ^^^ i := by
  calc homeSlice (BitVec.ofNat 40 (8 * b + i))
      _ = homeSlice (BitVec.ofNat 40 (8 * b)) ^^^ homeSlice (BitVec.ofNat 40 i) := homeSlice_aligned_add (n := 3) b hi
      _ = homeSlice (BitVec.ofNat 40 (8 * b)) ^^^ i := by rw [homeSlice_ofNat_of_lt i hi]

/-- A line is known from its aligned block of eight and its slice. -/
theorem eq_of_div_eight_of_homeSlice {l l' : LineNo} (block : l'.toNat / 8 = l.toNat / 8) (home : homeSlice l' = homeSlice l) : l' = l := by
  have slice (m : LineNo) : homeSlice m = homeSlice (BitVec.ofNat 40 (8 * (m.toNat / 8))) ^^^ m.toNat % 8 := by
    rw [← homeSlice_block_add _ (Nat.mod_lt _ (by decide)), Nat.div_add_mod, BitVec.ofNat_toNat, BitVec.setWidth_eq]
  have place : l'.toNat % 8 = l.toNat % 8 := by
    rw [slice l', slice l, block] at home
    exact Nat.xor_right_injective home
  apply BitVec.eq_of_toNat_eq
  omega

/-- R57: for a fixed L[39:k] the mapping to sets is one-to-one. -/
theorem setNo_injective {k : Nat} (hk : 22 ≤ k) {l l' : LineNo} (upper : l'.toNat / 2 ^ k = l.toNat / 2 ^ k)
    (set : setNo k l' = setNo k l) : l' = l := by
  have middle : l'.toNat % 2 ^ k / 8 = l.toNat % 2 ^ k / 8 := by
    have xored : l'.toNat % 2 ^ k / 8 ^^^ l'.toNat / 2 ^ k = l.toNat % 2 ^ k / 8 ^^^ l.toNat / 2 ^ k := by
      rw [← setNo_div_eight hk, ← setNo_div_eight hk, set]
    rw [upper] at xored
    exact Nat.xor_left_injective xored
  have block : l'.toNat / 8 = l.toNat / 8 := by
    rw [div_two_pow_eq hk, div_two_pow_eq hk] at upper
    rw [mod_two_pow_div_eight_eq hk, mod_two_pow_div_eight_eq hk] at middle
    rw [← Nat.div_add_mod (l'.toNat / 8) (2 ^ (k - 3)), upper, middle, Nat.div_add_mod]
  exact eq_of_div_eight_of_homeSlice block (by rw [← setNo_mod_eight k l', ← setNo_mod_eight k l, set])

/-- The aligned block of eight lines, L[39:3], that a set and upper bits `up` stand for: the rebuilding of R57, steps 1 and 2. -/
def blockOf (k set up : Nat) : Nat := 2 ^ (k - 3) * up + (set / 8 ^^^ up)

/-- R57, step 1: the tag holds L[39:k], from k = 22 on. -/
theorem tagOf_upper {k : Nat} (hk : 22 ≤ k) (l : LineNo) : (tagOf l).toNat * 2 ^ 22 / 2 ^ k = l.toNat / 2 ^ k := by
  have width : 2 ^ k = 2 ^ 22 * 2 ^ (k - 22) := by rw [← Nat.pow_add, Nat.add_sub_cancel' hk]
  rw [toNat_tagOf, width, Nat.mul_comm, Nat.mul_div_mul_left _ _ (by decide), Nat.div_div_eq_div_mul]

theorem homeSlice_xor_mod_eight_lt (l : LineNo) (set : Nat) : homeSlice l ^^^ set % 8 < 8 :=
  Nat.xor_lt_two_pow (n := 3) (homeSlice_lt l) (Nat.mod_lt _ (by decide))

/-- The rebuilt line as its block and, by R57 step 3, the place there that puts it at the set's slice. -/
theorem lineOf_tagOf {k : Nat} (hk : 22 ≤ k) (set : Nat) (l : LineNo) :
    lineOf k set (tagOf l) = BitVec.ofNat 40 (8 * blockOf k set (l.toNat / 2 ^ k) +
      (homeSlice (BitVec.ofNat 40 (8 * blockOf k set (l.toNat / 2 ^ k))) ^^^ set % 8)) := by
  have block : l.toNat / 2 ^ k * 2 ^ k + (set / 8 ^^^ l.toNat / 2 ^ k) * 8 = 8 * blockOf k set (l.toNat / 2 ^ k) := by
    rw [blockOf, two_pow_eq_eight_mul hk]; ring
  have joined (b : Nat) {i : Nat} (hi : i < 8) : 8 * b + i = 8 * b ||| i := Nat.two_pow_add_eq_or_of_lt (i := 3) hi b
  simp only [lineOf, tagOf_upper hk, Nat.mod_eq_of_lt (div_two_pow_lt hk l), block, joined _ (homeSlice_xor_mod_eight_lt _ set), BitVec.ofNat_or]

theorem homeSlice_lineOf {k : Nat} (hk : 22 ≤ k) (set : Nat) (l : LineNo) : homeSlice (lineOf k set (tagOf l)) = set % 8 := by
  rw [lineOf_tagOf hk, homeSlice_block_add _ (homeSlice_xor_mod_eight_lt _ set), Nat.xor_xor_cancel_left]

section
variable {k set : Nat} (hk : 22 ≤ k) (hk' : k ≤ 26) (hset : set < 2 ^ k) (l : LineNo)
include hk hset

theorem setPart_xor_upper_lt : set / 8 ^^^ l.toNat / 2 ^ k < 2 ^ (k - 3) :=
  Nat.xor_lt_two_pow (div_eight_lt hk hset) (div_two_pow_lt hk l)

theorem blockOf_div : blockOf k set (l.toNat / 2 ^ k) / 2 ^ (k - 3) = l.toNat / 2 ^ k := by
  rw [blockOf, Nat.mul_add_div (by positivity), Nat.div_eq_of_lt (setPart_xor_upper_lt hk hset l), Nat.add_zero]

theorem blockOf_mod : blockOf k set (l.toNat / 2 ^ k) % 2 ^ (k - 3) = set / 8 ^^^ l.toNat / 2 ^ k := by
  rw [blockOf, Nat.mul_add_mod, Nat.mod_eq_of_lt (setPart_xor_upper_lt hk hset l)]

include hk' in
theorem blockOf_lt : blockOf k set (l.toNat / 2 ^ k) < 2 ^ 37 := by
  have upper : l.toNat / 2 ^ k < 2 ^ (40 - k) := by
    rw [Nat.div_lt_iff_lt_mul (by positivity), ← Nat.pow_add, Nat.sub_add_cancel (by omega)]
    exact l.isLt
  rw [← blockOf_div hk hset l, Nat.div_lt_iff_lt_mul (by positivity), ← Nat.pow_add] at upper
  rwa [show 40 - k + (k - 3) = 37 by omega] at upper

include hk' in
theorem lineOf_div_eight : (lineOf k set (tagOf l)).toNat / 8 = blockOf k set (l.toNat / 2 ^ k) := by
  have place := homeSlice_xor_mod_eight_lt (BitVec.ofNat 40 (8 * blockOf k set (l.toNat / 2 ^ k))) set
  have := blockOf_lt hk hk' hset l
  rw [lineOf_tagOf hk, BitVec.toNat_ofNat, Nat.mod_eq_of_lt (by omega)]
  omega

include hk' in
theorem lineOf_upper : (lineOf k set (tagOf l)).toNat / 2 ^ k = l.toNat / 2 ^ k := by
  rw [div_two_pow_eq hk, lineOf_div_eight hk hk' hset, blockOf_div hk hset]

include hk' in
/-- Every set has a line with the upper bits of `l`: the rebuilt one. -/
theorem setNo_lineOf : setNo k (lineOf k set (tagOf l)) = set := by
  have above : setNo k (lineOf k set (tagOf l)) / 8 = set / 8 := by
    rw [setNo_div_eight hk, lineOf_upper hk hk' hset, mod_two_pow_div_eight_eq hk, lineOf_div_eight hk hk' hset, blockOf_mod hk hset,
      Nat.xor_xor_cancel_right]
  have below : setNo k (lineOf k set (tagOf l)) % 8 = set % 8 := by
    rw [setNo_mod_eight, homeSlice_lineOf hk]
  omega

end

/-- R57: set and tag are enough to rebuild the line, being the one line with these upper bits in this set. -/
theorem lineOf_setNo {k : Nat} (hk : 22 ≤ k) (hk' : k ≤ 26) (l : LineNo) : lineOf k (setNo k l) (tagOf l) = l :=
  setNo_injective hk (lineOf_upper hk hk' (setNo_lt hk l) l) (setNo_lineOf hk hk' (setNo_lt hk l) l)

/-- Settles O56: for fixed upper bits the set determines the line, and the line rebuilt from set and tag lies in that set. -/
theorem setAndTagGiveTheLineBack : Obligations.SetAndTagGiveTheLineBack := by
  refine ⟨fun s k pop => ?_, fun k hk hk' l => ?_⟩
  · obtain ⟨atLeast, atMost⟩ := State.popK_bounds pop
    exact ⟨atLeast, atMost, State.nSets_of_popK pop, State.setOf_of_popK pop⟩
  · exact ⟨setNo_lt hk l, setNo_mod_eight k l, setNo_div_eight hk l, toNat_tagOf l, lineOf_setNo hk hk' l,
      fun _ upper set => setNo_injective hk upper set,
      fun _ hset => ⟨lineOf k _ (tagOf l), lineOf_upper hk hk' hset l, setNo_lineOf hk hk' hset l⟩⟩

end Sys2Proof.Machine
end

section
/-! Counter halves (R440-R442): what each access at a counter reads and what it does to the one latch. -/
namespace Sys2Proof.Machine

theorem bad64_of_size_ne {size : BitVec 4} (o : Nat) (narrow : size ≠ 8) : bad64 o size = true := by
  rw [bad64, decide_eq_true narrow, Bool.true_or]

@[simp] theorem bad64_four (o : Nat) : bad64 o 4#4 = true := bad64_of_size_ne o (by decide)

/-- A write that is not of 64 bits is a bad access at every offset of the window (R427, R442). -/
theorem counterWr_of_size_ne {size : BitVec 4} (o : Nat) (v : BitVec 64) (s : State) (narrow : size ≠ 8) :
    counterWr o v size s = badAccess { s with regs.latchOff := none } := if_pos (bad64_of_size_ne o narrow)

/-- A read of neither 32 nor 64 bits is a bad access at every offset of the window (R427). -/
theorem counterRd_of_size_ne {size : BitVec 4} (o : Nat) (s : State) (notHalf : size ≠ 4) (narrow : size ≠ 8) :
    counterRd o size s = (badAccess { s with regs.latchOff := none }).put (.read 0) := by
  simp only [counterRd, bad64_of_size_ne o narrow, notHalf, decide_false, Bool.not_true, Bool.false_and, Bool.false_eq_true, if_false]

section
variable {s : State} {o : Nat} {c : Ctr} (aligned : o % 8 = 0) (counter : ctrAt s o = some c)
include aligned counter

/-- A read at any byte of a counter samples that counter (R440). -/
theorem ctrSample_within {i : Nat} (within : i < 8) : ctrSample s (o + i) = ctrGet s c := by
  simp only [ctrSample, show o + i - (o + i) % 8 = o by omega, counter]

/-- R440: a read of the whole counter. -/
theorem counterRd_full : counterRd o 8 s = { s with regs.latchOff := none }.put (.read (ctrGet s c)) := by
  have sample : ctrSample s o = ctrGet s c := ctrSample_within aligned counter (i := 0) (by decide)
  simp [counterRd, bad64, aligned, sample]

/-- R442: the low half, from the sample that loads the latch. -/
theorem counterRd_low :
    counterRd o 4 s = { s with regs.latch := bits (ctrGet s c) 63 32, regs.latchOff := some (BitVec.ofNat 20 o) }.put
      (.read (BitVec.ofNat 64 (nbits (ctrGet s c) 31 0))) := by
  have sample : ctrSample s o = ctrGet s c := ctrSample_within aligned counter (i := 0) (by decide)
  simp [counterRd, aligned, counter, sample]

/-- R442: the high half, from the latch right after the low-half read of this counter, else live. -/
theorem counterRd_high :
    counterRd (o + 4) 4 s = { s with regs.latchOff := none }.put (.read (BitVec.ofNat 64
      (if s.regs.latchOff = some (BitVec.ofNat 20 o) then s.regs.latch.toNat else nbits (ctrGet s c) 63 32))) := by
  have sample : ctrSample s (o + 4) = ctrGet s c := ctrSample_within aligned counter (by decide)
  have half : (o + 4) % 8 = 4 := by omega
  simp [counterRd, half, sample]

end

section
variable {s : State} (on : s.off = false) (awake : s.cp.d3 = false)
include on awake

/-- A read at `0x50000 + o` of BAR0 is one of the counter window (R426). -/
theorem exec_counterLowRead_window {o : Nat} (inWindow : o < 0x10000) (size : BitVec 4) :
    exec (.counterLowRead ⟨.bar0 (BitVec.ofNat 20 (0x50000 + o)), size⟩) s = .next (counterRd o size s) := by
  have place : (BitVec.ofNat 20 (0x50000 + o)).toNat = 0x50000 + o := by
    rw [BitVec.toNat_ofNat, Nat.mod_eq_of_lt (by omega)]
  have window : barRead (0x50000 + o) size s = counterRd o size s := by
    simp only [barRead, show ¬ 0x70000 ≤ 0x50000 + o by omega, show ¬ 0x60000 ≤ 0x50000 + o by omega, Nat.le_add_right,
      Nat.add_sub_cancel_left, if_false, if_true]
  change Host.Outcome.next (ctl s (barRead (BitVec.ofNat 20 (0x50000 + o)).toNat size s)) = _
  rw [ctl_on on awake, place, window]

theorem exec_counterHighRead (off : BitVec 20) :
    exec (.counterHighRead off) s = .next (counterRd (off.toNat % 0x10000 - off.toNat % 8 + 4) 4 s) :=
  congrArg Host.Outcome.next (ctl_on on awake)

theorem exec_counterWrite (off : BitVec 20) (v : BitVec 64) (size : BitVec 4) :
    exec (.counterWrite off v size) s = .next (counterWr (off.toNat % 0x10000) v size s) :=
  congrArg Host.Outcome.next (ctl_on on awake)

end

/-- Settles O58: each access is one of the counter window, which reads, latches or refuses by its length and its place in the counter. -/
theorem counterHalvesComeFromOneSample : Obligations.CounterHalvesComeFromOneSample := by
  intro off c s on awake o read counter
  have aligned : o % 8 = 0 := by omega
  have inWindow : o < 0x10000 := by omega
  have readWindow (size : BitVec 4) : read size = .next (counterRd o size s) := exec_counterLowRead_window on awake inWindow size
  have readHigh : exec (.counterHighRead off) s = .next (counterRd (o + 4) 4 s) := exec_counterHighRead on awake off
  refine ⟨?low, ?full, fun size notHalf narrow => ?other, fun latched => ?latch, fun unlatched => ?live, fun v => ?write⟩
  case low => rw [readWindow, counterRd_low aligned counter]
  case full => rw [readWindow, counterRd_full aligned counter]
  case other => rw [readWindow, counterRd_of_size_ne o s notHalf narrow]
  case latch => rw [readHigh, counterRd_high aligned counter, if_pos latched, BitVec.ofNat_toNat]
  case live => rw [readHigh, counterRd_high aligned counter, if_neg unlatched]
  case write => rw [exec_counterWrite on awake, counterWr_of_size_ne _ v s (by decide)]

end Sys2Proof.Machine
end

section
/-! CUSTOMER_KEY_SET (R468) as a run to its effect, and what stays as it is when a command completes. -/
namespace Sys2Proof.Machine

/-- Entries of undefined opcodes end in the control path alone (R411, R416). -/
theorem undefEnds_eq_with_cp (n : BitVec 5) (s : State) : undefEnds n s = { s with cp := (undefEnds n s).cp } := by
  unfold undefEnds
  dsimp only
  split <;> rfl

/-- A completion joins its queue pair and changes nothing outside the control path (R404, R412). -/
theorem complete_eq_with_cp (p : Packet) (st : BitVec 16) (res : Nat) (s : State) :
    complete p st res s = { s with cp := (complete p st res s).cp } := by
  unfold complete
  split
  case isTrue => exact undefEnds_eq_with_cp _ _
  case isFalse => rfl

@[simp] theorem complete_keys (p : Packet) (st : BitVec 16) (res : Nat) (s : State) : (complete p st res s).keys = s.keys := by
  rw [complete_eq_with_cp]
@[simp] theorem complete_regs (p : Packet) (st : BitVec 16) (res : Nat) (s : State) : (complete p st res s).regs = s.regs := by
  rw [complete_eq_with_cp]
@[simp] theorem startTaken_keys (op : Byte) (p : Packet) (s : State) : (startTaken op p s).keys = s.keys := rfl
@[simp] theorem startTaken_regs (op : Byte) (p : Packet) (s : State) : (startTaken op p s).regs = s.regs := rfl

/-- A command that changes no configuration of the slices starts without a CTRL record (R484). -/
theorem began_of_not_ctrl {op : Byte} (p : Packet) (s : State) (noRecord : ctrlOps.contains op = false) : began op p s = startTaken op p s := by
  rw [began, noRecord, if_neg Bool.false_ne_true]

theorem lockViolation_keys (s : State) : (lockViolation s).keys = s.keys := rfl

/-- The operand checks of CUSTOMER_KEY_SET, in order (R465, R468). -/
def customerKeyChecks (p : Packet) : List (Bool × BitVec 16) :=
  [(p.rsv 8 0 true || badBuf p.addr 1 48, St.invalid_param), (!p.readOk, St.host_read_failed), (leNat (p.data.take 48) = 0, St.invalid_param)]

/-- What CUSTOMER_KEY_SET does past its checks: the hash goes into an empty slot, a full one is left alone (R468). -/
def customerKeyEffect (p : Packet) (s : State) : State :=
  complete p St.ok 0 (if s.keys.custOn then lockViolation s
    else { s with keys.custOn := true, keys.cust := BitVec.ofNat 384 (leNat (p.data.take 48)) })

theorem customerKeySet_runsTo (p : Packet) (s : State) :
    RunsTo false (.customerKeySet p) 0x94 p s (customerKeyChecks p) (customerKeyEffect p) := runsTo_plain rfl rfl rfl

section
variable {p : Packet} (operands : (p.rsv 8 0 true || badBuf p.addr 1 48) = false) (read : p.readOk = true)
include operands read

/-- With good operands and a successful host read, the hash alone decides. -/
theorem firstFail_customerKeyChecks :
    firstFail (customerKeyChecks p) = if leNat (p.data.take 48) = 0 then some St.invalid_param else none := by
  simp only [customerKeyChecks, firstFail, operands, read, Bool.not_true, Bool.false_eq_true, if_false, decide_eq_true_eq]

variable {s : State} (gates : ready (.customerKeySet p) s = true)
include gates

theorem exec_customerKeySet_zero (zero : leNat (p.data.take 48) = 0) :
    exec (.customerKeySet p) s = .next (complete p St.invalid_param 0 (startTaken 0x94 p s)) :=
  (customerKeySet_runsTo p s gates).2 _ (by rw [firstFail_customerKeyChecks operands read, if_pos zero])

theorem exec_customerKeySet_nonzero (nonzero : leNat (p.data.take 48) ≠ 0) :
    exec (.customerKeySet p) s = .next (customerKeyEffect p (began 0x94 p s)) :=
  (customerKeySet_runsTo p s gates).1 (by rw [firstFail_customerKeyChecks operands read, if_neg nonzero])

end

theorem customerKeyEffect_empty (p : Packet) {s : State} (empty : s.keys.custOn = false) : customerKeyEffect p s =
    complete p St.ok 0 { s with keys.custOn := true, keys.cust := BitVec.ofNat 384 (leNat (p.data.take 48)) } := by
  rw [customerKeyEffect, empty, if_neg Bool.false_ne_true]

theorem customerKeyEffect_full (p : Packet) {s : State} (full : s.keys.custOn = true) :
    customerKeyEffect p s = complete p St.ok 0 (lockViolation s) := by
  rw [customerKeyEffect, full, if_pos rfl]

/-- Settles O57: past its checks the command's effect turns on whether the slot is empty, and neither its start nor its completion
touches the keys or the lock's registers. -/
theorem customerKeySlotIsWrittenOnce : Obligations.CustomerKeySlotIsWrittenOnce := by
  intro p s gates operands read h
  have start : began 0x94 p s = startTaken 0x94 p s := began_of_not_ctrl p s (by decide)
  have slot : (began 0x94 p s).keys = s.keys := by rw [start, startTaken_keys]
  have lockRegs : (began 0x94 p s).regs = s.regs := by rw [start, startTaken_regs]
  refine ⟨fun zero => ?zero, fun nonzero empty => ?first, fun nonzero full => ⟨?second, ?keys, ?viol, ?count⟩⟩
  case zero => exact exec_customerKeySet_zero operands read gates zero
  case first => rw [exec_customerKeySet_nonzero operands read gates nonzero, customerKeyEffect_empty p (slot ▸ empty)]
  case second => rw [exec_customerKeySet_nonzero operands read gates nonzero, customerKeyEffect_full p (slot ▸ full)]
  case keys => rw [complete_keys, lockViolation_keys, slot]
  case viol => rw [complete_regs, lockViolation]
  case count => rw [complete_regs, lockViolation, lockRegs]

end Sys2Proof.Machine
end

section
/-! What a command other than those made for it leaves alone: the protected part of the state, command by command in the families of the table. -/
namespace Sys2Proof.Machine
set_option linter.unusedSimpArgs false

theorem foldl_updSeq_kept {α : Type} (l : List α) (on : α → Bool) (n : α → Nat) (f : α → Seq → Seq) (s : State) :
    (l.foldl (fun s a => if on a then s.updSeq (n a) (f a) else s) s).kept = s.kept :=
  foldl_kept l _ s fun s a => by rw [kept_ite, State.updSeq_kept, ite_self]

/-- SEAL begins with its seal point and changes no protected state (R297). -/
theorem exec_seal_kept (p : Packet) (s : State) : ∃ t, exec (.seal p) s = .next t ∧ t.kept = s.kept := by
  refine ⟨_, rfl, act_kept _ _ (cmd_kept _ _ _ _ _ _ _ _ fun s => ?_)⟩
  rw [beginCmd_kept, sealPoint_kept]

/-- A command packet that is not made to change protected state completes, or begins, without changing any (R411, R416). -/
theorem exec_packet_kept {c : Instr} (packet : (commandRow c).isSome = true) (other : changesKept c = false) (s : State) :
    ∃ t, exec c s = .next t ∧ t.kept = s.kept := by
  cases c
  case identify | queueCreate | queueDelete | eventQueueSet | drainQuery | resetRecordQuery | regionQuery | regionLookup | cacheQuery |
      cacheReadSet | partQuery | prefetchQuery | policyLoad | policyQuery | policyDefault | policyDataRead | streamQuery | streamNotifyQuery |
      streamGlobalQuery | sealLogQuery | keyQuery | regQuery | regCapacityQuery | errLogRead | errLogAck | errMirrorSet | errQuery | retireClear |
      retireQuery | farRecover | freezeQuery | errInject | monPortSet | monSysSet | monQuery | recConfig | recStop | recQuery | replayQuery |
      ageingQuery | thermalQuery | fwDownload | fwCommit | fwQuery | configWrite | configQuery | portConfig | portQuery =>
    refine ⟨_, rfl, cmd_kept _ _ _ _ _ _ _ _ fun s => ?_⟩
    try dsimp only
    repeat' split
    all_goals simp only [completeBlock_kept, State.updQp_kept, complete_kept, endDelete_kept, startDelete_kept, setLost_kept, polBegin_kept,
      healthJob_kept, retireDrop_kept, recStop_kept, beginFlash_kept, areaErased_kept, State.updPort_kept, beginCmd_kept, kept_upd, kept_ite,
      ite_self]
  case policyDataWrite =>
    refine ⟨_, rfl, cmd_kept _ _ _ _ _ _ _ _ fun s => ?_⟩
    rw [complete_kept, foldl_updSeq_kept, kept_ite, recStop_kept, ite_self]
  case modeSet | resume | warmReset | regionSet | regionClear | regionPerm | invalidateAll | cacheEnable | cacheDisable | prefetchSet | streamOpen |
      streamClose | streamWriters | streamAckGap | streamNotify | sealLogSet | sealLogAck | regGuarSet | regFarPlan | retireSet |
      retireBank | recStart | ageingMeasure | fwActivate | portReset | clean | invalidate | cleanInvalidate =>
    refine ⟨_, rfl, act_kept _ _ (cmd_kept _ _ _ _ _ _ _ _ fun s => ?_)⟩
    try dsimp only
    repeat' split
    all_goals simp only [changeMode_kept, complete_kept, recompute_kept, walkStart_kept, resumeTo_kept, warmBegin_kept, lockedOut_kept,
      regionWrite_kept, recStop_kept, setPerm_kept, walkCmd_kept, setPrefetch_kept, State.updCtx_kept, sealPoint_kept, addItem_kept,
      recomputeRsv_kept, rescale_kept, State.updFar_kept, recBegin_kept, freeSides_kept, cycleDue_kept, beginFlash_kept, polBegin_kept,
      loseAgent_kept, resetStep2_kept, beginCmd_kept, kept_upd, kept_ite, ite_self]
  case drain | regionLock | wayEnable | partMapSet | partMaskSet | streamGlobalSet | timeAnchor | keyGenIdentity | keyGenSeal | keyZeroise |
      authChallenge | authResponse | authUserSet | approvedMode | selfTest | regCapSet | regParamSet | scrubSet | replayStart | replayStop |
      customerKeySet => cases other
  -- SEAL remains: its tag is a keyword and cannot name a case.
  all_goals cases packet
  exact exec_seal_kept _ s

/-- A sequencer instruction changes no protected state, whatever it does (R149). -/
theorem exec_seq_kept {c : Instr} (instruction : (seqRow c).isSome = true) (s : State) : ∃ t, exec c s = .next t ∧ t.kept = s.kept := by
  cases c
  case add | addi | sub | and | andi | or | ori | xor | xori | andn | shl | shr | shlv | shrv | movi | sel | fnz | lsb | ffs | popc | mul =>
    exact alu_kept _ _ _ _ _ _ _ _
  case cmpeq | cmpltu | cmpeqi | cmpltui | tstz => exact cmpr_kept _ _ _ _ _ _ _
  case nop | ld | st | sti | iflush | br | jr | jal | done | emit =>
    refine ⟨_, rfl, issue_kept _ _ _ _ _ _ fun s => ?_⟩
    try dsimp only
    repeat' split
    all_goals simp only [State.updSeq_kept, seqFault_kept, seqParity_kept, wrG_kept, branchTo_kept, afterEvent_kept, putRepl_kept,
      victimResult_kept, defaultHandler_kept, State.updSlice_kept, cntPol_kept, ite_self]
  all_goals cases instruction

/-- A row of the hardware that is not made to change protected state changes none. -/
theorem exec_row_kept {c : Instr} (row : ((commandRow c).isSome || (seqRow c).isSome) = false) (other : changesKept c = false) (s : State) :
    ∃ t, exec c s = .next t ∧ t.kept = s.kept := by
  cases c
  case readShared | readOwn | readOnce | upgrade | writeInvFull | writeInvPartial | writeStash | readDev | writeDev | fence | compAck | rspI |
      rspS | rspFwd | stashDecline | stashAccept | snpData | wrData | wrDataPtl | stashOffer | dataS | dataF | dataE | dataM | dataNc | comp |
      fenceDone | wrPull | frozenAbort => exact ⟨_, rfl, deliver_kept _ _ _ _ _ _⟩
  case evictNote | wbData | evictOffer | snpShared | snpInv | snpFwdShared | snpFwdOwn =>
    exact ⟨_, rfl, (deliver_kept _ _ _ _ _ _).trans (dirUpset_kept _ _ _)⟩
  case lInitParam | lInitAck | lRetryReq | flitReceived | lretryReqRepeat | ackTimeout | phyRecoveryEnd | portL0Reached | lInitParamResend |
      initTimeout | initRetry | farReadCompletion | farWriteCompletion | snpTimeoutExpiry | farTimeoutExpiry | holeTimeout | sealRecordForm |
      sealSignatureDone | sealSlotWriteDone | creditReturn | guarSample | guarWindowEnd | drainQuiesceEnd | drainManifest | drainExtraClean |
      gpfPhase1Request | gpfPhase1Response | gpfPhase2Request | gpfPhase2Response | gpfPhase2Timeout | drainDone | measurementCycleEnd |
      coreBinSwitch | vidStep | managementWatchdog | channelTrainingEnd | memoryActive | memoryActiveTimeout | bootExit | recT0Reached |
      recQuiesceTimeout | recSpillWrite | farLinkStateChange | widthFailed | refreshRateChange =>
    refine ⟨_, rfl, act_kept _ _ ?_⟩
    try dsimp only
    repeat' split
    all_goals simp only [linkIn_kept, flitIn_kept, txLink_kept, State.updPort_kept, replayFrom_kept, flushTx_kept, flowCredits_kept, recompute_kept,
      linkDown_kept, resetDone_kept, startInit_kept, trainPort_kept, holdPort_kept, farEnd_kept, farLate_kept, loseAgent_kept, farDead_kept,
      offBad_kept, closeWaited_kept, formRecord_kept, signItem_kept, slotWritten_kept, creditReturn_kept, windowEnd_kept, quiesceEnd_kept,
      addItem_kept, cleanWay_kept, gpfSend_kept, gpfAnswer_kept, drainEnd_kept, cycleEnd_kept, planEnd_kept, mcRestart_kept, applyRetire_kept,
      State.updFar_kept, recovered_kept, enumerated_kept, finish_kept, changeMode_kept, recBegin_kept, recStartEnd_kept, quiesceFail_kept,
      spill_kept, logErr_kept, kept_upd, kept_ite, ite_self]
  case seqWatchdog | victimDeadline | sliceLookup | lineQueueResume | setQueueResume | mcDataReturn | mcWriteAccept | stashOfferExpiry |
      combineWindowExpiry | nextLineCandidate | streamCandidateIssue | maintenanceWalkLine | directoryWalkSet | patrolVisit | dirRecallCandidate |
      setLostScanEnd | hashLine =>
    refine ⟨_, rfl, clocked_kept _ _ ?_⟩
    try dsimp only
    repeat' split
    all_goals simp only [State.updSeq_kept, cntPol_kept, seqAbort_kept, victimFallback_kept, State.updSlice_kept, arbitrate_kept, capTouch_kept,
      walkVisit_kept, arbTick_kept, capLookup_kept, stepTwo_kept, admitIn_kept, lookFaults_kept, updTxn_kept, run_kept, kick_kept, tagReturn_kept,
      lineReturn_kept, victReturn_kept, capMcData_kept, capMcAccept_kept, stashOver_kept, closeCombines_kept, capIn_kept, candidate_kept,
      State.updPort_kept, dirVisit_kept, resetStep2_kept, patrol_kept, recallNext_kept, scanEnd_kept, hashLine_kept, kept_upd, kept_ite, ite_self]
  case channelRetrain | busMasterEnable | d3hotEntry | guardTimeout =>
    refine ⟨_, rfl, live_kept _ _ ?_⟩
    try dsimp only
    repeat' split
    all_goals simp only [flushHeld_kept, dropPending_kept, kept_upd, kept_ite, ite_self]
  case msixUnmask | sqTailDoorbell | cqHeadDoorbell | eventQueueHeadDoorbell | qp0Create | qp0Delete | guardedPrimaryWrite | devStatusRead |
      guarMissRead | hmfStatusRead | evfStatusRead | thermStatusRead | counterWrite | counterHighRead | hmfWrite | evfRead =>
    refine ⟨_, rfl, ctl_kept _ _ ?_⟩
    try dsimp only
    repeat' split
    all_goals simp only [sendMsix_kept, sqDoorbell_kept, cqDoorbell_kept, eqDoorbell_kept, qp0On_kept, qp0Off_kept, guardPrimary_kept,
      State.put_kept, fifoClear_kept, counterWr_kept, counterRd_kept, hmfPush_kept, evfRead_kept, kept_upd, kept_ite, ite_self]
  case sideBufferAgeTick => exact ⟨_, rfl, clocked_kept _ _ (foldl_kept _ _ _ fun _ _ => ageSlice_kept _ _)⟩
  case gpfPhase1Timeout => exact ⟨_, rfl, act_kept _ _ (foldl_kept _ _ _ fun _ _ => gpfAnswer_kept _ _ _ _)⟩
  case drainRecordsForm =>
    refine ⟨_, rfl, act_kept _ _ ?_⟩
    dsimp only
    split
    · rfl
    · refine (foldl_kept _ _ _ fun s k => ?_).trans ?_
      · rw [kept_ite, drainRecord_kept, ite_self]
      · split <;> rfl
  case seqEventStart =>
    refine ⟨_, rfl, clocked_kept _ _ ?_⟩
    dsimp only
    repeat' split
    all_goals simp only [cntPol_kept, fetchParity_kept, State.updSeq_kept]
  case pfwNRise | thermalLevelFall | criticalLimit | operatingHoursMark | hoursWrite | resetMirror | sqEntryFetch | completionWrite |
      eventQueueWrite | counterLowRead | hmfWordTake | bmcBlockRead =>
    refine ⟨_, rfl, ?_⟩
    try dsimp only
    repeat' split
    all_goals simp only [setLevel_kept, shutDown_kept, hoursTo_kept, writeHours_kept, mirror_kept, State.updQp_kept, postEvent_kept, takeHead_kept,
      State.put_kept, sendMsix_kept, endDeletes_kept, bar2Read_kept, barRead_kept, judgeFifo_kept, evfPush_kept, logErr_kept, live_kept, ctl_kept,
      kept_upd, kept_ite, ite_self]
  case pfwNFall | thermalSample | aoVote | resetNAssert | resetNDeassert | vddAoPowerUp | vddAoLoss | firmwareStart | warmResetReboot |
      flashOperationDone | perstN | flr | d3hotExit | guardedPartnerWrite | zeroiseArmExpiry | aliasSetWrite | aliasClearWrite | aliasToggleWrite |
      registerWrite | tapInstruction | replayCycle | continuousHealthTestFail => cases other
  all_goals cases row

/-- A command that is not made to change protected state answers and changes none. -/
theorem exec_kept {c : Instr} (other : changesKept c = false) (s : State) : ∃ t, exec c s = .next t ∧ t.kept = s.kept := by
  cases packet : (commandRow c).isSome
  case true => exact exec_packet_kept packet other s
  case false =>
    cases instruction : (seqRow c).isSome
    case true => exact exec_seq_kept instruction s
    case false => exact exec_row_kept (by rw [packet, instruction, Bool.or_false]) other s

/-- The commands that set a bounded setting (R293, R349, R360, R377, R380, R381), and the events that give each its reset value (R24). -/
def setsBounded : Instr → Bool
  | .scrubSet .. | .regCapSet .. | .regParamSet .. | .streamGlobalSet .. | .resetNAssert | .vddAoPowerUp | .vddAoLoss => true
  | _ => false

/-- A command made to change other protected state leaves the bounded settings and the queue alone. -/
theorem exec_changer_base {c : Instr} (changer : changesKept c = true) (other : setsBounded c = false) (s : State) :
    ∃ t, exec c s = .next t ∧ t.kept.base = s.kept.base := by
  cases c
  case regionLock | authChallenge | authResponse | authUserSet | approvedMode | customerKeySet =>
    refine ⟨_, rfl, cmd_kept_base _ _ _ _ _ _ _ _ fun s => ?_⟩
    try dsimp only
    repeat' split
    all_goals simp only [lockViolation_kept, complete_kept, completeBlock_kept, postEvent_kept, beginCmd_kept, kept_upd, base_upd, kept_ite,
      base_ite, ite_self]
  case drain | wayEnable | partMapSet | partMaskSet | keyGenIdentity | keyGenSeal | keyZeroise | selfTest | replayStart | replayStop =>
    refine ⟨_, rfl, act_kept_base _ _ (cmd_kept_base _ _ _ _ _ _ _ _ fun s => ?_)⟩
    try dsimp only
    repeat' split
    all_goals simp only [drainCause_kept, complete_kept, kickAll_kept, walkCmd_kept, setMap_kept, setMask_kept, lockViolation_kept, beginFlash_kept,
      testFailed_kept, abandonSigs_kept, replayEnd_kept, replayBegin_kept, beginCmd_kept, kept_upd, base_upd, kept_ite, base_ite, ite_self]
  case firmwareStart | warmResetReboot | flashOperationDone | replayCycle | continuousHealthTestFail =>
    refine ⟨_, rfl, act_kept_base _ _ ?_⟩
    try dsimp only
    repeat' split
    all_goals simp only [firmwareStart_kept, warmReboot_kept, flashDone_kept, replayCycle_kept, cryptoError_kept, beginCmd_kept, kept_upd, base_upd,
      kept_ite, base_ite, ite_self]
  case perstN | flr | d3hotExit | zeroiseArmExpiry =>
    refine ⟨_, rfl, live_kept_base _ _ ?_⟩
    try dsimp only
    repeat' split
    all_goals simp only [resetControl_kept, beginCmd_kept, kept_upd, base_upd, kept_ite, base_ite, ite_self]
  case guardedPartnerWrite | aliasSetWrite | aliasClearWrite | aliasToggleWrite =>
    refine ⟨_, rfl, ctl_kept_base _ _ ?_⟩
    try dsimp only
    all_goals simp only [guardPartner_kept, aliasAccess_kept, beginCmd_kept, kept_upd, base_upd, kept_ite, base_ite, ite_self]
  case pfwNFall | thermalSample | aoVote | resetNDeassert | registerWrite | tapInstruction =>
    refine ⟨_, rfl, ?_⟩
    try dsimp only
    repeat' split
    all_goals simp only [drainCause_kept, sample_kept, voteOne_kept, voteAll_kept, postEvent_kept, changeMode_kept, bar2Write_kept, cfgWrite_kept,
      barWrite_kept, live_kept_base, ctl_kept_base, act_kept_base, rowEnd_kept, beginCmd_kept, kept_upd, base_upd, kept_ite, base_ite, ite_self]
  case timeAnchor =>
    refine ⟨_, rfl, act_kept_base _ _ (cmd_kept_base _ _ _ _ _ _ _ _ fun s => ?_)⟩
    dsimp only
    rw [complete_kept]
    split
    · rw [foldl_kept _ _ _ fun _ _ => sealPoint_kept _ _ _]; rfl
    · rw [sealPoint_kept]; rfl
  case scrubSet | regCapSet | regParamSet | streamGlobalSet | resetNAssert | vddAoPowerUp | vddAoLoss => cases other
  all_goals cases changer

theorem NMap.mem_set {β : Type} [DecidableEq β] {d v : β} {m : List (Nat × β)} {k : Nat} {x : Nat × β} (h : x ∈ NMap.set d m k v) :
    x = (k, v) ∨ x ∈ m := by
  unfold NMap.set at h
  split at h
  · exact .inr (List.mem_filter.mp h).1
  · exact (NMap.mem_ins k v _ x h).imp_right fun kept => (List.mem_filter.mp kept).1

/-- Where a command packet can end: short of its effect with nothing protected changed, or in its effect behind checks that have all passed. -/
theorem cmd_ends {P : State → Prop} {op : Byte} {modes : List (BitVec 3)} {auth : Nat} {reads : Bool} {p : Packet}
    {chk : State → List (Bool × BitVec 16)} {body : State → State} {s : State} (short : ∀ t, t.kept = s.kept → P t)
    (effect : ∀ t u, firstFail (chk t) = none → u.kept = s.kept → P (body u)) : P (cmd op modes auth reads p chk body s) := by
  unfold cmd
  split
  · exact short _ rfl
  split
  · exact short _ (waitTaken_kept _ _ _)
  dsimp only
  split
  · exact short _ ((complete_kept _ _ _ _).trans (startTaken_kept _ _ _))
  · next passed =>
    refine effect (startTaken op p s) _ ?_ ?_
    · simp only [firstFail] at passed
      split at passed
      · cases passed
      split at passed
      · cases passed
      exact passed
    · rw [kept_ite, capCtrl_kept, startTaken_kept, ite_self]

theorem firstFail_cons_none {b : Bool} {st : BitVec 16} {l : List (Bool × BitVec 16)} (h : firstFail ((b, st) :: l) = none) :
    b = false := by
  cases b
  · rfl
  · cases h

/-- The queue stays and the bounded settings stay in their ranges. -/
def Settings.Keeps (b b' : Settings) : Prop := b'.pending = b.pending ∧ (b.inRange → b'.inRange)
theorem Settings.keeps_of_eq {b b' : Settings} (same : b' = b) : b.Keeps b' := by
  subst same
  exact ⟨rfl, id⟩

/-- A packet command that refuses a value out of range keeps the settings in range (R411). -/
theorem cmd_keeps {op : Byte} {modes : List (BitVec 3)} {auth : Nat} {reads : Bool} {p : Packet} {chk : State → List (Bool × BitVec 16)}
    {body : State → State} (s : State)
    (effect : ∀ t u : State, firstFail (chk t) = none → u.kept.base.Keeps (body u).kept.base) :
    s.kept.base.Keeps (cmd op modes auth reads p chk body s).kept.base :=
  cmd_ends (P := fun t => s.kept.base.Keeps t.kept.base) (fun _ same => Settings.keeps_of_eq (congrArg Kept.base same))
    fun t u passed same => by simpa only [same] using effect t u passed
theorem act_keeps (s t : State) (h : s.kept.base.Keeps t.kept.base) : s.kept.base.Keeps (act s t).kept.base := by
  unfold act
  split
  · exact ⟨rfl, id⟩
  · rwa [rowEnd_kept]

/-- Every bounded setting has its reset value in range after a reset, and the queue stays (R24). -/
theorem resetState_keeps (s : State) : s.kept.base.Keeps (resetState s).kept.base := 
  ⟨rfl, fun _ => show State.reset.kept.base.inRange by decide⟩

/-- Packet commands that set a bounded setting refuse a value out of its range (R293, R349, R360, R377, R380, R381); a reset gives each its
reset value. -/
theorem exec_setter_keeps {c : Instr} (setter : setsBounded c = true) (s : State) :
    ∃ t, exec c s = .next t ∧ s.kept.base.Keeps t.kept.base := by
  cases c
  case scrubSet p =>
    refine ⟨_, rfl, cmd_keeps s fun t u passed => ?_⟩
    have bounds := firstFail_cons_none passed
    simp only [Bool.or_eq_false_iff, decide_eq_false_iff_not] at bounds
    obtain ⟨⟨⟨⟨-, hours⟩, -⟩, row⟩, channel⟩ := bounds
    rw [complete_kept]
    exact ⟨rfl, fun ⟨_, _, _, rest⟩ => ⟨Nat.le_of_not_lt hours, Nat.pos_of_ne_zero row, Nat.pos_of_ne_zero channel, rest⟩⟩
  case regCapSet p =>
    refine ⟨_, rfl, act_keeps _ _ (cmd_keeps s fun t u passed => ?_)⟩
    have bounds := firstFail_cons_none passed
    simp only [Bool.or_eq_false_iff, decide_eq_false_iff_not] at bounds
    rw [complete_kept]
    refine ⟨rfl, fun ⟨h1, h2, h3, h4, h5, h6, h7, h8, h9, h10, h11, caps⟩ => ⟨h1, h2, h3, h4, h5, h6, h7, h8, h9, h10, h11, fun e he => ?_⟩⟩
    obtain rfl | old := NMap.mem_set he
    · exact Nat.le_of_not_lt bounds.2
    · exact caps e old
  case regParamSet p =>
    refine ⟨_, rfl, act_keeps _ _ (cmd_keeps s fun t u passed => ?_)⟩
    have bounds := firstFail_cons_none passed
    simp only [Bool.or_eq_false_iff, decide_eq_false_iff_not] at bounds
    obtain ⟨⟨⟨⟨⟨⟨-, a⟩, b⟩, c⟩, d⟩, e⟩, f⟩ := bounds
    rw [complete_kept, recompute_kept, windowStart_kept]
    exact ⟨rfl, fun ⟨h1, h2, h3, h4, h5, _, _, _, _, _, _, caps⟩ => ⟨h1, h2, h3, h4, h5, Nat.le_of_not_lt a, Nat.le_of_not_lt b, Nat.le_of_not_lt c,
      Nat.le_of_not_lt d, Nat.pos_of_ne_zero e, Nat.le_of_not_lt f, caps⟩⟩
  case streamGlobalSet p =>
    refine ⟨_, rfl, act_keeps _ _ (cmd_keeps s fun t u passed => ?_)⟩
    have bounds := firstFail_cons_none passed
    simp only [Bool.or_eq_false_iff, decide_eq_false_iff_not] at bounds
    rw [complete_kept]
    exact ⟨rfl, fun ⟨h1, h2, h3, _, _, rest⟩ => ⟨h1, h2, h3, Nat.le_of_not_lt bounds.1.2, Nat.le_of_not_lt bounds.2, rest⟩⟩
  case resetNAssert =>
    refine ⟨_, rfl, ?_⟩
    split
    · exact ⟨rfl, id⟩
    split
    · exact ⟨rfl, id⟩
    · exact resetState_keeps s
  case vddAoPowerUp =>
    refine ⟨_, rfl, ?_⟩
    split
    · exact ⟨rfl, id⟩
    dsimp only
    rw [kept_ite, changeMode_kept, ite_self]
    exact resetState_keeps s
  case vddAoLoss =>
    refine ⟨_, rfl, ?_⟩
    split
    · exact ⟨rfl, id⟩
    · exact resetState_keeps s
  all_goals cases setter

/-- Every command answers, leaves the queue alone and keeps the bounded settings in their ranges. -/
theorem exec_keeps (c : Instr) (s : State) : ∃ t, exec c s = .next t ∧ s.kept.base.Keeps t.kept.base := by
  cases setter : setsBounded c
  case true => exact exec_setter_keeps setter s
  case false =>
    cases changer : changesKept c
    case true =>
      obtain ⟨t, runs, same⟩ := exec_changer_base changer setter s
      exact ⟨t, runs, Settings.keeps_of_eq same⟩
    case false =>
      obtain ⟨t, runs, same⟩ := exec_kept changer s
      exact ⟨t, runs, Settings.keeps_of_eq (congrArg Kept.base same)⟩

/-- Settles O3: every command answers, and only the step takes from the queue. -/
theorem commandsAnswerAndLeaveTheQueueAlone : Obligations.CommandsAnswerAndLeaveTheQueueAlone := by
  intro c s
  obtain ⟨t, runs, queue, -⟩ := exec_keeps c s
  exact ⟨t, runs, queue⟩

theorem idleClock_kept (s : State) : (idleClock s).kept = s.kept := by
  unfold idleClock
  rw [kept_ite, kept_ite, mirror_kept, coreTick_kept, aoTick_kept, ite_self, ite_self]

/-- Settles O4: an idle clock changes no setting, and a command keeps each in its range whatever waits behind it. -/
theorem stepKeepsSettingsInRange : Obligations.StepKeepsSettingsInRange := by
  intro s t range stepped
  unfold step at stepped
  split at stepped
  case h_1 =>
    cases stepped
    rwa [idleClock_kept]
  case h_2 c cs _ =>
    obtain ⟨u, runs, -, keeps⟩ := exec_keeps c { s with pending := cs }
    cases runs.symm.trans stepped
    exact keeps range

/-- Settles O53: a packet, a sequencer instruction and a row of the hardware each change protected state only where they are made to. -/
theorem onlyTheirOwnCommandsChangeProtectedState : Obligations.OnlyTheirOwnCommandsChangeProtectedState := by
  intro c s t other runs
  obtain ⟨u, answer, same⟩ := exec_kept other s
  cases answer.symm.trans runs
  exact same

end Sys2Proof.Machine
end

section
/-! Command packets run to their effect (R411, R416): each row's `cmd` is the checks and the effect that its statement names, behind the gates of
`ready`; `runsTo_act` is for the rows that settle and `runsTo_plain` for those that do not. -/
namespace Sys2Proof.Machine

/-- Settles O1: the step is the command at the front, by definition. -/
theorem stepRunsTheFrontCommand : Obligations.StepRunsTheFrontCommand := fun _ _ _ => rfl

/-- Settles O5: the state after reset is closed, so its fields and ranges are decided. -/
theorem resetLeavesTheTablesValues : Obligations.ResetLeavesTheTablesValues := by
  unfold Obligations.ResetLeavesTheTablesValues
  decide

/-- Settles O6: a command that starts leaves every pair in being as it is, so the checks of QUEUE_CREATE and QUEUE_DELETE read the state before. -/
theorem queueCommandsRunToTheirEffect : Obligations.QueueCommandsRunToTheirEffect := by
  intro p s
  refine ⟨runsTo_plain rfl rfl rfl, runsTo_plain rfl rfl ?create, runsTo_plain rfl rfl ?delete, runsTo_plain rfl rfl rfl⟩
  case create => simp only [startTaken_qp_on]
  case delete => simp only [startTaken_qp_on]

/-- Settles O7: DRAIN_QUERY and RESET_RECORD_QUERY settle nothing, the others settle. -/
theorem modeDrainAndResetCommandsRunToTheirEffect : Obligations.ModeDrainAndResetCommandsRunToTheirEffect := fun _ _ =>
  ⟨runsTo_act rfl rfl rfl, runsTo_act rfl rfl rfl, runsTo_act rfl rfl rfl, runsTo_plain rfl rfl rfl, runsTo_act rfl rfl rfl, runsTo_plain rfl rfl rfl⟩

/-- Settles O8: REGION_SET, REGION_CLEAR and REGION_PERM settle, the queries and REGION_LOCK do not. -/
theorem regionCommandsRunToTheirEffect : Obligations.RegionCommandsRunToTheirEffect := fun _ _ =>
  ⟨runsTo_act rfl rfl rfl, runsTo_act rfl rfl rfl, runsTo_act rfl rfl rfl, runsTo_plain rfl rfl rfl, runsTo_plain rfl rfl rfl, runsTo_plain rfl rfl rfl⟩

/-- Settles O9: the commands that change the cache settle, the two queries do not. -/
theorem cacheCommandsRunToTheirEffect : Obligations.CacheCommandsRunToTheirEffect := fun _ _ =>
  ⟨runsTo_act rfl rfl rfl, runsTo_act rfl rfl rfl, runsTo_act rfl rfl rfl, runsTo_act rfl rfl rfl, runsTo_act rfl rfl rfl, runsTo_act rfl rfl rfl,
    runsTo_act rfl rfl rfl, runsTo_plain rfl rfl rfl, runsTo_plain rfl rfl rfl⟩

/-- Settles O10: the three SET commands settle, the two queries do not. -/
theorem partitionAndPrefetchCommandsRunToTheirEffect : Obligations.PartitionAndPrefetchCommandsRunToTheirEffect := fun _ _ =>
  ⟨runsTo_act rfl rfl rfl, runsTo_act rfl rfl rfl, runsTo_plain rfl rfl rfl, runsTo_act rfl rfl rfl, runsTo_plain rfl rfl rfl⟩

/-- Settles O11: no policy command settles anything. -/
theorem policyCommandsRunToTheirEffect : Obligations.PolicyCommandsRunToTheirEffect := fun _ _ =>
  ⟨runsTo_plain rfl rfl rfl, runsTo_plain rfl rfl rfl, runsTo_plain rfl rfl rfl, runsTo_plain rfl rfl rfl, runsTo_plain rfl rfl rfl⟩

/-- Settles O12: the commands that change a stream settle, the three queries do not. -/
theorem streamCommandsRunToTheirEffect : Obligations.StreamCommandsRunToTheirEffect := fun _ _ =>
  ⟨runsTo_act rfl rfl rfl, runsTo_act rfl rfl rfl, runsTo_plain rfl rfl rfl, runsTo_act rfl rfl rfl, runsTo_act rfl rfl rfl, runsTo_act rfl rfl rfl,
    runsTo_plain rfl rfl rfl, runsTo_act rfl rfl rfl, runsTo_plain rfl rfl rfl⟩

/-- Settles O13: the seal commands settle, SEAL_LOG_QUERY does not. -/
theorem sealCommandsRunToTheirEffect : Obligations.SealCommandsRunToTheirEffect := fun _ _ =>
  ⟨runsTo_act rfl rfl rfl, runsTo_act rfl rfl rfl, runsTo_act rfl rfl rfl, runsTo_act rfl rfl rfl, runsTo_plain rfl rfl rfl⟩

/-- Settles O15: the commands that change regulation settle, the two queries do not. -/
theorem regulationCommandsRunToTheirEffect : Obligations.RegulationCommandsRunToTheirEffect := fun _ _ =>
  ⟨runsTo_act rfl rfl rfl, runsTo_act rfl rfl rfl, runsTo_act rfl rfl rfl, runsTo_act rfl rfl rfl, runsTo_plain rfl rfl rfl, runsTo_plain rfl rfl rfl⟩

/-- Settles O16: RETIRE_SET and RETIRE_BANK, which walk, settle; the other error commands do not. -/
theorem errorCommandsRunToTheirEffect : Obligations.ErrorCommandsRunToTheirEffect := fun _ _ =>
  ⟨runsTo_plain rfl rfl rfl, runsTo_plain rfl rfl rfl, runsTo_plain rfl rfl rfl, runsTo_plain rfl rfl rfl, runsTo_act rfl rfl rfl, runsTo_act rfl rfl rfl,
    runsTo_plain rfl rfl rfl, runsTo_plain rfl rfl rfl, runsTo_plain rfl rfl rfl, runsTo_plain rfl rfl rfl, runsTo_plain rfl rfl rfl, runsTo_plain rfl rfl rfl⟩

/-- Settles O17: REC_START, REPLAY_START, REPLAY_STOP and AGEING_MEASURE settle, the others do not. -/
theorem monitorAndReplayCommandsRunToTheirEffect : Obligations.MonitorAndReplayCommandsRunToTheirEffect := fun _ _ =>
  ⟨runsTo_plain rfl rfl rfl, runsTo_plain rfl rfl rfl, runsTo_plain rfl rfl rfl, runsTo_plain rfl rfl rfl, runsTo_act rfl rfl rfl, runsTo_plain rfl rfl rfl,
    runsTo_plain rfl rfl rfl, runsTo_act rfl rfl rfl, runsTo_act rfl rfl rfl, runsTo_plain rfl rfl rfl, runsTo_act rfl rfl rfl, runsTo_plain rfl rfl rfl,
    runsTo_plain rfl rfl rfl⟩

/-- Settles O18: FW_ACTIVATE settles, the others do not. -/
theorem firmwareCommandsRunToTheirEffect : Obligations.FirmwareCommandsRunToTheirEffect := fun _ _ =>
  ⟨runsTo_plain rfl rfl rfl, runsTo_plain rfl rfl rfl, runsTo_act rfl rfl rfl, runsTo_plain rfl rfl rfl, runsTo_plain rfl rfl rfl, runsTo_plain rfl rfl rfl,
    runsTo_plain rfl rfl rfl⟩

/-- Settles O19: PORT_RESET settles, PORT_CONFIG and PORT_QUERY do not. -/
theorem portCommandsRunToTheirEffect : Obligations.PortCommandsRunToTheirEffect := fun _ _ =>
  ⟨runsTo_plain rfl rfl rfl, runsTo_act rfl rfl rfl, runsTo_plain rfl rfl rfl⟩

end Sys2Proof.Machine
end

section
/-! The gates of a command packet, before its own checks (R319, R410, R411, R416, R456). -/
namespace Sys2Proof.Machine

/-- Every command packet is its row's `cmd`, alone or with what follows from it. -/
theorem exec_packet {c : Instr} {op : Byte} {modes : List (BitVec 3)} {auth : Nat} {reads : Bool} {p : Packet}
    (row : commandRow c = some (op, modes, auth, reads, p)) (s : State) : ∃ chk body,
      exec c s = .next (cmd op modes auth reads p chk body s) ∨ exec c s = .next (act s (cmd op modes auth reads p chk body s)) := by
  cases c
  case identify | queueCreate | queueDelete | eventQueueSet | drainQuery | resetRecordQuery | regionQuery | regionLookup | regionLock | cacheQuery |
      cacheReadSet | partQuery | prefetchQuery | policyLoad | policyQuery | policyDefault | policyDataRead | policyDataWrite | streamQuery |
      streamNotifyQuery | streamGlobalQuery | sealLogQuery | keyQuery | authChallenge | authResponse | authUserSet | approvedMode | regQuery |
      regCapacityQuery | errLogRead | errLogAck | errMirrorSet | errQuery | retireClear | retireQuery | scrubSet | farRecover | freezeQuery |
      errInject | monPortSet | monSysSet | monQuery | recConfig | recStop | recQuery | replayQuery | ageingQuery | thermalQuery | fwDownload |
      fwCommit | fwQuery | customerKeySet | configWrite | configQuery | portConfig | portQuery =>
    cases row
    exact ⟨_, _, .inl rfl⟩
  case modeSet | drain | resume | warmReset | regionSet | regionClear | regionPerm | invalidateAll | cacheEnable | cacheDisable | wayEnable |
      clean | invalidate | cleanInvalidate | partMapSet | partMaskSet | prefetchSet | streamOpen | streamClose | streamWriters | streamAckGap |
      streamNotify | streamGlobalSet | timeAnchor | sealLogSet | sealLogAck | keyGenIdentity | keyGenSeal | keyZeroise | selfTest |
      regGuarSet | regCapSet | regFarPlan | regParamSet | retireSet | retireBank | recStart | replayStart | replayStop | ageingMeasure |
      fwActivate | portReset =>
    cases row
    exact ⟨_, _, .inr rfl⟩
  -- SEAL remains: its tag is a keyword and cannot name a case.
  all_goals cases row
  exact ⟨_, _, .inr rfl⟩

/-- Settles O52: whatever the row, its `cmd` answers at the first gate that the packet does not pass. -/
theorem commandPacketsPassTheirGates : Obligations.CommandPacketsPassTheirGates := by
  intro c s op modes auth reads p row gives
  obtain ⟨chk, body, runs⟩ := exec_packet row s
  have answer {t : State} (same : cmd op modes auth reads p chk body s = t) : gives t := same ▸ runs
  have taken (hears : s.deaf = false) (next : s.canTake op p = true) : (s.deaf || !s.canTake op p) = false := by rw [hears, next]; rfl
  refine ⟨fun stays => ?stays, fun hears next waits => ?waits, fun hears next free mode => ?mode, fun hears next free mode role => ?role⟩
  case stays =>
    refine answer (cmd_waits ?_)
    rcases stays with deaf | later
    · rw [deaf, Bool.true_or]
    · rw [later, Bool.not_false, Bool.or_true]
  case waits => exact answer (cmd_blocked (taken hears next) waits)
  case mode => exact answer (cmd_mode_bad (taken hears next) free mode)
  case role => exact answer (cmd_auth_bad (taken hears next) free mode role)

end Sys2Proof.Machine
end

section
/-! What the core domain counts in an AO clock, and the AO block, which it leaves alone (R308, R476-R479). -/
namespace Sys2Proof.Machine

/-- A part of the state that every step of a fold leaves alone stays through the fold. -/
theorem foldl_part {α β : Type} (part : State → β) (l : List α) (g : State → α → State) (s : State) (h : ∀ s a, part (g s a) = part s) :
    part (l.foldl g s) = part s := by
  induction l generalizing s with
  | nil => rfl
  | cons a l ih => exact (ih (g s a)).trans (h s a)

@[simp] theorem sendMsix_ao (v : Nat) (s : State) : (sendMsix v s).ao = s.ao := by
  unfold sendMsix
  split
  · rfl
  split <;> rfl
@[simp] theorem setFifo_ao (s : State) (e : Bool) (f : Fifo) : (s.setFifo e f).ao = s.ao := by
  cases e <;> rfl
@[simp] theorem judgeFifo_ao (e : Bool) (s : State) : (judgeFifo e s).ao = s.ao := by
  simp only [judgeFifo, apply_ite State.ao, sendMsix_ao, setFifo_ao, ite_self]
@[simp] theorem overrunFifo_ao (e : Bool) (s : State) : (overrunFifo e s).ao = s.ao := by
  simp only [overrunFifo, apply_ite State.ao, sendMsix_ao, setFifo_ao, ite_self]
@[simp] theorem evfPush_ao (typ : Byte) (pay : SWord) (s : State) : (evfPush typ pay s).ao = s.ao := by
  simp only [evfPush, apply_ite State.ao, judgeFifo_ao, overrunFifo_ao, ite_self]
@[simp] theorem postEvent_ao (code : BitVec 16) (payload : List (Nat × Nat)) (s : State) : (postEvent code payload s).ao = s.ao := by
  simp only [postEvent, apply_ite State.ao, evfPush_ao, ite_self]
@[simp] theorem monOvf_ao (ie : Bool) (mon i : Nat) (s : State) : (monOvf ie mon i s).ao = s.ao := by
  simp only [monOvf, apply_ite State.ao, sendMsix_ao, postEvent_ao, ite_self]
@[simp] theorem monPortWord_ao (p k n : Nat) (s : State) : (monPortWord p k n s).ao = s.ao := by
  simp only [monPortWord, apply_ite State.ao, monOvf_ao, ite_self]
@[simp] theorem monPort_ao (p ev n : Nat) (s : State) : (monPort p ev n s).ao = s.ao := by
  unfold monPort
  split
  · rfl
  · exact foldl_part State.ao _ _ s fun s i => by rw [apply_ite State.ao, monPortWord_ao, ite_self]
@[simp] theorem monSys_ao (ev n : Nat) (a : Attr) (s : State) : (monSys ev n a s).ao = s.ao := by
  unfold monSys
  split
  · rfl
  · refine foldl_part State.ao _ _ s fun s i => ?_
    simp only [apply_ite State.ao, monOvf_ao, ite_self]
@[simp] theorem idleFlits_ao (p : Nat) (s : State) : (idleFlits p s).ao = s.ao := by
  simp only [idleFlits, apply_ite State.ao, monPort_ao, State.updPort_ao, ite_self]
@[simp] theorem portClock_ao (n p : Nat) (s : State) : (portClock n p s).ao = s.ao := by
  simp only [portClock, idleFlits_ao, monPort_ao, State.updPort_ao, apply_ite State.ao, monPortWord_ao, ite_self]
@[simp] theorem openSum_ao (n : Nat) (s : State) : (openSum n s).ao = s.ao :=
  foldl_part State.ao _ _ s fun s sl => foldl_part State.ao _ _ s fun s t => by rw [apply_ite State.ao, monSys_ao, ite_self]
@[simp] theorem coreTick_ao (s : State) : (coreTick s).ao = s.ao := by
  have ports (n : Nat) : ((List.range s.nPorts).foldl (fun s p => portClock n p s) s).ao = s.ao :=
    foldl_part State.ao _ _ s fun s p => portClock_ao n p s
  have slices (t : State) : ((List.range 8).foldl (fun s sl => s.updSlice sl (fun h => { h with walkClk := 8 })) t).ao = t.ao :=
    foldl_part State.ao _ _ t fun _ _ => rfl
  simp only [coreTick, slices, openSum_ao, apply_ite State.ao, monOvf_ao, ports, ite_self]

theorem aoTick_time (s : State) : (aoTick s).ao.time = s.ao.time + 1 := by
  unfold aoTick hoursTo cycleDue
  dsimp only
  repeat' split
  all_goals rfl

theorem mirror_time (s : State) : (mirror s).ao.time = s.ao.time := rfl

theorem idleClock_time (s : State) : (idleClock s).ao.time = if s.ao.up then s.ao.time + 1 else s.ao.time := by
  unfold idleClock
  cases s.ao.up
  case true =>
    simp only [Bool.not_true, Bool.false_eq_true, if_false, if_true]
    split
    · exact aoTick_time s
    · rw [mirror_time, coreTick_ao, aoTick_time]
  case false => simp only [Bool.not_false, if_true, Bool.false_eq_true, if_false]

/-- Settles O2: with an empty queue the step is an idle clock, whose AO tick alone counts the time. -/
theorem idleStepCountsDeviceTime : Obligations.IdleStepCountsDeviceTime := by
  intro s empty
  have idle : step s = .next (idleClock s) := by unfold step; rw [empty]
  have queue : (idleClock s).pending = s.pending := congrArg (fun k : Kept => k.base.pending) (idleClock_kept s)
  exact ⟨idleClock s, idle, queue.trans empty, idleClock_time s⟩

end Sys2Proof.Machine
end

section
/-! KEY_GEN_IDENTITY after a zeroisation (R312, R316): ending, it takes the mark of wiped keys away, of which O14 does not speak. -/
namespace Sys2Proof.Machine

/-- KEY_GEN_IDENTITY of a queue pair that is gone, in progress. -/
def identityInProgress : Prog := ⟨0, ⟨0, 0, 0, 0, 0, true, true, true, []⟩, 0x55, 2, 0, 0, []⟩
/-- BYPASS, the private keys marked as wiped, no KEY_ZEROISE in progress, and the last operation of KEY_GEN_IDENTITY's flash job due. -/
def identityAfterWipe : State :=
  { State.reset with
    trip.mode := Trip.all 2, keys.wiped := true, cp.prog := [identityInProgress], boot.flash := [⟨some 0, 1, false, none⟩] }

theorem flashDone_identityAfterWipe : (flashDone true identityAfterWipe).kept.keys.wiped = false := rfl

/-- Refutes O14: the end of KEY_GEN_IDENTITY sets `wiped` to whether a KEY_ZEROISE is in progress, where the statement keeps it; on
`identityAfterWipe` the model's is false and the statement's true. -/
theorem not_keyCommandsRunToTheirEffect : ¬ Obligations.KeyCommandsRunToTheirEffect := by
  intro h
  obtain ⟨-, -, -, -, -, -, -, -, -, flash⟩ := h identityInProgress.p identityAfterWipe
  obtain ⟨identity, -, -⟩ := flash identityInProgress [] rfl rfl rfl
  have runs := Host.Outcome.next.inj (identity rfl rfl rfl rfl)
  have model : (act identityAfterWipe (flashDone true identityAfterWipe)).kept.keys.wiped = false := by
    rw [act_on rfl, rowEnd_kept, flashDone_identityAfterWipe]
  have wiped := (congrArg (fun t : State => t.kept.keys.wiped) runs).symm.trans model
  dsimp only at wiped
  rw [rowEnd_kept] at wiped
  exact Bool.false_ne_true wiped.symm

end Sys2Proof.Machine
end

section
/-! O20, O21: a register instruction or a compare that issues is one step of its sequencer, by `issue_eq`. -/
namespace Sys2Proof.Machine

/-- The step of a register instruction whose word spells it as it is. -/
theorem exec_of_alu {c : Instr} {sl : BitVec 3} {gd rd : BitVec 4} {op n : Nat} {f : Seq → SWord} {s : State}
    (hc : exec c s = alu c sl gd op n rd f s) (hw : asWord c = c) (h : Issues c sl gd s) :
    exec c s = .next (s.updSeq sl.toNat (seqStep false 1 (later rd n f))) := by
  rw [hc, alu, issue_eq (f := later rd n f) (hw.symm ▸ h) (.inl rfl) (fun t g => State.updSeq_updSeq t _ g _) fun q => rfl]
  rfl
/-- The step of a compare whose word spells it as it is. -/
theorem exec_of_cmpr {c : Instr} {sl : BitVec 3} {gd rd : BitVec 4} {op : Nat} {f : Seq → Bool} {s : State}
    (hc : exec c s = cmpr c sl gd op rd f s) (hw : asWord c = c) (h : Issues c sl gd s) :
    exec c s = .next (s.updSeq sl.toNat (seqStep false 1 (laterP rd f))) := by
  rw [hc, cmpr, issue_eq (f := laterP rd f) (hw.symm ▸ h) (.inl rfl) (fun t g => State.updSeq_updSeq t _ g _) fun q => rfl]
  rfl

/-- Settles O20: every row is an `alu` row, whose results are those of `exec_of_alu`. -/
theorem registerInstructionsGiveTheirResults : Obligations.RegisterInstructionsGiveTheirResults := by
  intro sl gd rd ra rb imm s runs res
  exact ⟨exec_of_alu rfl rfl, exec_of_alu rfl rfl, exec_of_alu rfl rfl, exec_of_alu rfl rfl, exec_of_alu rfl rfl, exec_of_alu rfl rfl,
    exec_of_alu rfl rfl, exec_of_alu rfl rfl, exec_of_alu rfl rfl, exec_of_alu rfl rfl, exec_of_alu rfl rfl, exec_of_alu rfl rfl,
    exec_of_alu rfl rfl, exec_of_alu rfl rfl, exec_of_alu rfl rfl, exec_of_alu rfl rfl, exec_of_alu rfl rfl, exec_of_alu rfl rfl,
    exec_of_alu rfl rfl, exec_of_alu rfl rfl, exec_of_alu rfl rfl⟩

/-- Settles O21: NOP has no effect of its own, the others are `cmpr` rows. -/
theorem comparesWriteTheirPredicate : Obligations.ComparesWriteTheirPredicate := by
  intro sl gd rd ra rb imm s runs res
  exact ⟨fun h => congrArg Host.Outcome.next (issue_eq h (.inl rfl) (fun t g => rfl) fun q => rfl),
    exec_of_cmpr rfl rfl, exec_of_cmpr rfl rfl, exec_of_cmpr rfl rfl, exec_of_cmpr rfl rfl, exec_of_cmpr rfl rfl⟩

end Sys2Proof.Machine
end

section
/-! O23, O27: every sequencer row is `issue` with an effect of its own, and its word decodes back. -/
namespace Sys2Proof.Machine

/-- Every sequencer row issues, with some effect. -/
theorem exec_seq {c : Instr} {sl : BitVec 3} {gd : BitVec 4} {k : IKind} (row : seqRow c = some (sl, gd, k)) :
    ∃ eff, ∀ s, exec c s = .next (issue c sl gd k eff s) := by
  cases c
  case nop | add | addi | sub | and | andi | or | ori | xor | xori | andn | shl | shr | shlv | shrv | movi | sel | fnz | lsb | ffs | popc | mul |
      cmpeq | cmpltu | cmpeqi | cmpltui | tstz | ld | st | sti | iflush | br | jr | jal | done | emit =>
    cases row
    exact ⟨_, fun _ => rfl⟩
  all_goals cases row

/-- Settles O23: the gates are those of `issue`, whatever the effect. -/
theorem sequencerInstructionGates : Obligations.SequencerInstructionGates := by
  intro c sl gd k s row w
  obtain ⟨eff, run⟩ := exec_seq row
  simp only [run, Host.Outcome.next.injEq]
  exact issue_gates c sl gd k eff s

/-- The fields of a word are those it is made of (R134). -/
@[simp] theorem iwordOf_word (i : IWord) : iwordOf i.word = i := by
  obtain ⟨op, rd, ra, rb, gd, imm⟩ := i
  simp only [iwordOf, IWord.word, IWord.mk.injEq]
  refine ⟨?_, ?_, ?_, ?_, ?_, ?_⟩ <;>
  · ext i hi
    grind

/-- Settles O27: each row's word has the row's opcode and operands in its fields, from which `seqDecode` reads the row again. -/
theorem sequencerWordsDecodeBack : Obligations.SequencerWordsDecodeBack := by
  intro c sl gd k w row word sound
  cases c
  case nop | add | addi | sub | and | andi | or | ori | xor | xori | andn | shl | shr | shlv | shrv | movi | sel | fnz | lsb | ffs | popc | mul |
      cmpeq | cmpltu | cmpeqi | cmpltui | tstz | st | sti | iflush | br | jr | jal | done | emit =>
    cases row
    cases word
    simp only [seqDecode, iwordOf_word]
    rfl
  case ld rd ra imm perr =>
    cases row
    cases word
    cases perr with
    | true => exact absurd rfl (sound rd ra imm)
    | false => simp only [seqDecode, iwordOf_word]; rfl
  all_goals cases row

end Sys2Proof.Machine
end

section
/-! O59: what a sequencer row other than DONE and EMIT does to its own sequencer, and to the memories of it. -/
namespace Sys2Proof.Machine

/-- Landing writes change the registers, the predicates and what is still to land, and nothing else of a sequencer. -/
theorem Seq.land_part {α : Type} (part : Seq → α) (h : ∀ (q : Seq) g p d, part { q with g := g, p := p, pend := d } = part q) (q : Seq) :
    part q.land = part q := by
  have one (q : Seq) (w : PendW) : part (landOne q w) = part q := by
    unfold landOne
    split
    · exact h q q.g _ q.pend
    split
    · rfl
    · exact h q _ q.p q.pend
  have all (l : List PendW) (q : Seq) : part (l.foldl landOne q) = part q := by
    induction l generalizing q with
    | nil => rfl
    | cons w l ih => exact (ih _).trans (one q w)
  exact (all _ _).trans (h q q.g q.p _)
@[simp] theorem Seq.land_dmem (q : Seq) : q.land.dmem = q.dmem := Seq.land_part Seq.dmem (fun _ _ _ _ => rfl) q
@[simp] theorem Seq.land_imem (q : Seq) : q.land.imem = q.imem := Seq.land_part Seq.imem (fun _ _ _ _ => rfl) q
@[simp] theorem Seq.land_issued (q : Seq) : q.land.issued = q.issued := Seq.land_part Seq.issued (fun _ _ _ _ => rfl) q
@[simp] theorem Seq.land_emits (q : Seq) : q.land.emits = q.emits := Seq.land_part Seq.emits (fun _ _ _ _ => rfl) q

/-- A row whose effect `f` stays in its sequencer, with a defined word and outside a forbidden delay slot, does nothing (no event of the hardware),
takes one clock with nothing written (its guard), or has its effect. -/
theorem issue_own {c : Instr} {sl : BitVec 3} {gd : BitVec 4} {k : IKind} {s : State} {eff : State → State} {f : Seq → Seq}
    (notDone : k.op ≠ 0x38) (place : k.noSlot = false ∨ (s.seq sl.toNat).slot = false)
    (defined : (seqDecode sl (s.seq sl.toNat).word).isSome = true)
    (he : ∀ (t : State) g, eff (t.updSeq sl.toNat g) = t.updSeq sl.toNat (fun q => f (g q))) (hf : ∀ q, (f q).run = q.run) :
    issue c sl gd k eff s = s ∨ issue c sl gd k eff s = s.updSeq sl.toNat (seqStep k.branch 1 id) ∨
      issue c sl gd k eff s = s.updSeq sl.toNat (seqStep k.branch k.clocks f) := by
  obtain ⟨free, busy⟩ := issue_gates c sl gd k eff s
  have own : standsIn s sl.toNat k = false := by simp [standsIn, notDone]
  cases hr : (s.seq sl.toNat).run with
  | none => exact .inl (free hr)
  | some e =>
    obtain ⟨past, runs⟩ := busy e hr
    by_cases limit : evLimit e ≤ (s.seq sl.toNat).issued
    · exact .inl (past limit)
    cases clock : s.sliceOff with
    | true => exact .inl (by simp only [issue, hr, clock, Bool.true_or, if_true])
    | false =>
      obtain ⟨-, other, spelt⟩ := runs clock (by omega)
      obtain ⟨j, word⟩ := Option.isSome_iff_exists.mp defined
      by_cases hj : j = asWord c
      · subst hj
        cases guard : (s.seq sl.toNat).land.guard gd with
        | false => exact .inr (.inl ((spelt (.inr word)).1 guard))
        | true => exact .inr (.inr (issue_eq ⟨clock, ⟨e, hr, by omega⟩, guard, word⟩ place he hf))
      · exact .inl (other own j word hj)

/-- What a row does to the two memories of its sequencer, `rg` being the registers it reads: ST and STI one word, and no row another. -/
def MemStep (sl : BitVec 3) (gd : BitVec 4) (c : Instr) (rg : BitVec 4 → SWord) (q u : Seq) : Prop :=
  ((∀ ra rb imm, c ≠ .st sl gd ra rb imm) → u.dmem = q.dmem) ∧
  (∀ ra rb imm, c = .st sl gd ra rb imm → ∀ a, a ≠ (rg ra + imm).toNat % 8192 → NMap.get 0 u.dmem a = NMap.get 0 q.dmem a) ∧
  ((∀ rd ra rb imm, c ≠ .sti sl gd rd ra rb imm) → u.imem = q.imem) ∧
  (∀ rd ra rb imm, c = .sti sl gd rd ra rb imm → ∀ a, a ≠ (rg ra + imm).toNat % 2048 → NMap.get 0 u.imem a = NMap.get 0 q.imem a) ∧
  (NMap.wf 0 q.dmem = true → NMap.wf 0 u.dmem = true) ∧ (NMap.wf 0 q.imem = true → NMap.wf 0 u.imem = true)

theorem MemStep.of_same {sl : BitVec 3} {gd : BitVec 4} {c : Instr} {rg : BitVec 4 → SWord} {q u : Seq} (data : u.dmem = q.dmem)
    (code : u.imem = q.imem) : MemStep sl gd c rg q u := by
  simp only [MemStep, data, code]
  simp
theorem MemStep.congr {sl : BitVec 3} {gd : BitVec 4} {c : Instr} {rg : BitVec 4 → SWord} {q q' u : Seq} (h : MemStep sl gd c rg q u)
    (data : q.dmem = q'.dmem) (code : q.imem = q'.imem) : MemStep sl gd c rg q' u := by
  unfold MemStep at h ⊢
  rwa [← data, ← code]
theorem MemStep.st (sl : BitVec 3) (gd ra rb : BitVec 4) (imm v : SWord) (q : Seq) :
    MemStep sl gd (.st sl gd ra rb imm) q.rg q { q with dmem := NMap.set 0 q.dmem ((q.rg ra + imm).toNat % 8192) v } := by
  refine ⟨fun h => absurd rfl (h _ _ _), ?_, fun _ => rfl, nofun, NMap.wf_set _ _ _ _, id⟩
  intro _ _ _ same a ha
  cases same
  exact NMap.get_set_ne _ _ _ ha
theorem MemStep.sti (sl : BitVec 3) (gd rd ra rb : BitVec 4) (imm : SWord) (v : BitVec 64) (q : Seq) :
    MemStep sl gd (.sti sl gd rd ra rb imm) q.rg q { q with imem := NMap.set 0 q.imem ((q.rg ra + imm).toNat % 2048) v } := by
  refine ⟨fun _ => rfl, nofun, fun h => absurd rfl (h _ _ _ _), ?_, id, NMap.wf_set _ _ _ _⟩
  intro _ _ _ _ same a ha
  cases same
  exact NMap.get_set_ne _ _ _ ha

/-- The gates that a row which touches only its own sequencer has passed. -/
theorem ownSequencer_gates {c : Instr} {sl : BitVec 3} {gd : BitVec 4} {k : IKind} {s : State} (row : seqRow c = some (sl, gd, k))
    (own : ownSequencer c s = true) :
    k.op ≠ 0x38 ∧ (k.noSlot = false ∨ (s.seq sl.toNat).slot = false) ∧ (seqDecode sl (s.seq sl.toNat).word).isSome = true := by
  unfold ownSequencer at own
  split at own
  · cases own
  · next other =>
    cases row.symm.trans other
    simp only [Bool.and_eq_true, decide_eq_true_eq, Bool.or_eq_true, Bool.not_eq_true'] at own
    obtain ⟨⟨⟨notDone, -⟩, place⟩, defined⟩ := own
    exact ⟨notDone, place, defined⟩
  · cases own

/-- An effect that is one change of a sequencer follows any other change of it. -/
theorem inSeq_of_updSeq {eff : State → State} {n : Nat} {f : Seq → Seq} (h : ∀ t, eff t = t.updSeq n f) (t : State) (g : Seq → Seq) :
    eff (t.updSeq n g) = t.updSeq n (fun q => f (g q)) := (h _).trans (State.updSeq_updSeq t n g f)

/-- A load reads the word at the address that its sequencer gives (R138). -/
theorem load_updSeq (sl : BitVec 3) (rd ra : BitVec 4) (imm : SWord) (t : State) :
    wrG sl rd 3 (fun q => NMap.get 0 q.dmem (dAddr (t.seq sl.toNat) ra imm)) t =
      t.updSeq sl.toNat (later rd 3 (fun q => NMap.get 0 q.dmem (dAddr q ra imm))) := State.updSeq_congr rfl
/-- JAL's link and its branch are one change of the sequencer (R139). -/
theorem link_updSeq (sl : BitVec 3) (rd : BitVec 4) (imm : SWord) (t : State) :
    branchTo sl (fun _ => imm) (wrG sl rd 1 (fun q => BitVec.ofNat 40 (q.pc.toNat + 2)) t) =
      t.updSeq sl.toNat (fun q => { later rd 1 (fun q => BitVec.ofNat 40 (q.pc.toNat + 2)) q with target := some (imm.setWidth 11) }) :=
  State.updSeq_updSeq t _ _ _

/-- The effect of a row that touches only its own sequencer. -/
theorem exec_own {c : Instr} {sl : BitVec 3} {gd : BitVec 4} {k : IKind} {s : State} (row : seqRow c = some (sl, gd, k)) (own : ownSequencer c s = true) :
    ∃ (eff : State → State) (f : Seq → Seq), exec c s = .next (issue c sl gd k eff s) ∧
      (∀ (t : State) g, eff (t.updSeq sl.toNat g) = t.updSeq sl.toNat (fun q => f (g q))) ∧ (∀ q, (f q).run = q.run) ∧
      ∀ q, MemStep sl gd c q.rg q (f q) := by
  cases c
  case add | addi | sub | and | andi | or | ori | xor | xori | andn | shl | shr | shlv | shrv | movi | sel | fnz | lsb | ffs | popc | mul =>
    cases row
    exact ⟨_, later _ _ _, rfl, inSeq_of_updSeq fun _ => rfl, fun _ => rfl, fun _ => .of_same rfl rfl⟩
  case cmpeq | cmpltu | cmpeqi | cmpltui | tstz =>
    cases row
    exact ⟨_, laterP _ _, rfl, inSeq_of_updSeq fun _ => rfl, fun _ => rfl, fun _ => .of_same rfl rfl⟩
  case nop =>
    cases row
    exact ⟨_, id, rfl, fun t g => rfl, fun _ => rfl, fun _ => .of_same rfl rfl⟩
  case ld rd ra imm perr =>
    cases row
    cases perr with
    | true => cases own
    | false =>
      exact ⟨_, later rd 3 (fun q => NMap.get 0 q.dmem (dAddr q ra imm)), rfl, inSeq_of_updSeq (load_updSeq sl rd ra imm), fun _ => rfl,
        fun _ => .of_same rfl rfl⟩
  case st ra rb imm =>
    cases row
    exact ⟨_, fun q => { q with dmem := NMap.set 0 q.dmem (dAddr q ra imm) (q.rg rb) }, rfl, inSeq_of_updSeq fun _ => rfl, fun _ => rfl,
      fun q => .st sl gd ra rb imm (q.rg rb) q⟩
  case sti rd ra rb imm =>
    cases row
    exact ⟨_, fun q => { q with imem := NMap.set 0 q.imem ((q.rg ra + imm).toNat % 2048) ((q.rg rb).setWidth 32 ++ (q.rg rd).setWidth 32) }, rfl,
      inSeq_of_updSeq fun _ => rfl, fun _ => rfl, fun q => .sti sl gd rd ra rb imm _ q⟩
  case iflush =>
    cases row
    exact ⟨_, fun q => { q with fbuf := none }, rfl, inSeq_of_updSeq fun _ => rfl, fun _ => rfl, fun _ => .of_same rfl rfl⟩
  case br imm =>
    cases row
    exact ⟨_, fun q => { q with target := some (imm.setWidth 11) }, rfl, inSeq_of_updSeq fun _ => rfl, fun _ => rfl, fun _ => .of_same rfl rfl⟩
  case jr ra =>
    cases row
    exact ⟨_, fun q => { q with target := some ((q.rg ra).setWidth 11) }, rfl, inSeq_of_updSeq fun _ => rfl, fun _ => rfl, fun _ => .of_same rfl rfl⟩
  case jal rd imm =>
    cases row
    exact ⟨_, fun q => { later rd 1 (fun q => BitVec.ofNat 40 (q.pc.toNat + 2)) q with target := some (imm.setWidth 11) }, rfl,
      inSeq_of_updSeq (link_updSeq sl rd imm), fun _ => rfl, fun _ => .of_same rfl rfl⟩
  case done | emit =>
    cases row
    cases own
  all_goals cases row

/-- What the issue of such a row does: nothing, or a change of its own sequencer that keeps its memories but for the word it writes. -/
theorem exec_own_step {c : Instr} {sl : BitVec 3} {gd : BitVec 4} {k : IKind} {s : State} (row : seqRow c = some (sl, gd, k))
    (own : ownSequencer c s = true) :
    exec c s = .next s ∨
      ∃ f, exec c s = .next (s.updSeq sl.toNat f) ∧ MemStep sl gd c (s.seq sl.toNat).land.rg (s.seq sl.toNat) (f (s.seq sl.toNat)) := by
  obtain ⟨notDone, place, defined⟩ := ownSequencer_gates row own
  obtain ⟨eff, f, run, inSeq, running, mem⟩ := exec_own row own
  rw [run]
  rcases issue_own notDone place defined inSeq running with same | step | step
  · exact .inl (congrArg _ same)
  · exact .inr ⟨_, congrArg _ step, .of_same (Seq.land_dmem _) (Seq.land_imem _)⟩
  · exact .inr ⟨_, congrArg _ step, MemStep.congr (mem _) (Seq.land_dmem _) (Seq.land_imem _)⟩

/-- Settles O59: by `exec_own_step` the state after the row differs in its sequencer alone. -/
theorem sequencerInstructionsStayInTheirSequencer : Obligations.SequencerInstructionsStayInTheirSequencer := by
  intro c sl gd k s t row own step q u
  rcases exec_own_step row own with run | ⟨f, run, mem⟩
  · cases run.symm.trans step
    exact ⟨rfl, fun _ _ => rfl, rfl, MemStep.of_same rfl rfl⟩
  · cases run.symm.trans step
    have same : u = f q := State.seq_updSeq s sl.toNat f
    rw [← same] at mem
    exact ⟨rfl, fun n other => State.slice_updSlice_ne s _ other, (State.slice_updSlice s _ _).trans (by rw [same]; rfl), mem⟩

end Sys2Proof.Machine
end

section
/-! What events, records and the recorder leave alone: the slices with their sequencers, the commands in progress, the regions and the
ports, and where the trace stands. -/
namespace Sys2Proof.Machine

/-- The slices, with their sequencers, the commands in progress, the regions, the agent ports with what the hub's identifiers say of them, and the
trace's place: region, configuration, lines and limit. -/
structure Work where
  slices : NMap Slice
  prog : List Prog
  regions : NMap Region
  ports : NMap Port
  base : BitVec 18
  size : BitVec 18
  small : Bool
  trace : Nat × BitVec 4 × Nat × Nat
def State.work (s : State) : Work := ⟨s.slices, s.cp.prog, s.regions, s.links.ports, s.links.base, s.links.size, s.boot.small,
  s.rec_.region, s.rec_.cfg, s.rec_.lines, s.rec_.limit⟩

theorem State.seq_of_work {s t : State} (h : t.work = s.work) (n : Nat) : t.seq n = s.seq n :=
  congrArg (fun w : Work => (NMap.get Slice.init w.slices n).seq) h
theorem State.polCmd_of_work {s t : State} (h : t.work = s.work) : polCmd t = polCmd s :=
  congrArg (fun w : Work => w.prog.find? loadsPolicy) h

/-- A change of other parts of a state leaves them alone; stated over the parts, so that no proof compares the values of a change. -/
theorem work_upd (s : State) (ao trip regs cp cache pol links str keys drain regl err boot rec_ age cycle nextId free out pending)
    (hp : Cp.prog cp = s.cp.prog) (hl : Links.ports links = s.links.ports) (hb : Links.base links = s.links.base) (hs : Links.size links = s.links.size)
    (hd : Boot.small boot = s.boot.small)
    (ht : (Rec.region rec_, Rec.cfg rec_, Rec.lines rec_, Rec.limit rec_) = (s.rec_.region, s.rec_.cfg, s.rec_.lines, s.rec_.limit)) :
    (State.mk ao trip regs cp s.regions cache pol links s.slices str keys drain regl err boot rec_ age cycle nextId free out pending).work = s.work := by
  simp only [State.work, hp, hl, hb, hs, hd, ht]

@[simp] theorem sendMsix_work (v : Nat) (s : State) : (sendMsix v s).work = s.work := by
  unfold sendMsix
  split
  · rfl
  split <;> rfl
@[simp] theorem setFifo_work (s : State) (e : Bool) (f : Fifo) : (s.setFifo e f).work = s.work := by
  cases e <;> rfl
@[simp] theorem judgeFifo_work (e : Bool) (s : State) : (judgeFifo e s).work = s.work := by
  simp only [judgeFifo, apply_ite State.work, sendMsix_work, setFifo_work, ite_self]
@[simp] theorem overrunFifo_work (e : Bool) (s : State) : (overrunFifo e s).work = s.work := by
  simp only [overrunFifo, apply_ite State.work, sendMsix_work, setFifo_work, ite_self]
@[simp] theorem evfPush_work (typ : Byte) (pay : SWord) (s : State) : (evfPush typ pay s).work = s.work := by
  simp only [evfPush, apply_ite State.work, judgeFifo_work, overrunFifo_work]
  exact ite_self _
@[simp] theorem postEvent_work (code : BitVec 16) (payload : List (Nat × Nat)) (s : State) : (postEvent code payload s).work = s.work := by
  unfold postEvent
  split
  · rfl
  dsimp only
  split
  · exact evfPush_work ..
  · rfl
@[simp] theorem recStop_work (reason : Nat) (s : State) : (recStop reason s).work = s.work := by
  unfold recStop
  split
  · rfl
  · rw [postEvent_work]
    split <;> rfl
@[simp] theorem recCap_work (unit sl kind w1 : Nat) (body : List Byte) (s : State) : (recCap unit sl kind w1 body s).work = s.work := by
  simp only [recCap, apply_ite State.work, recStop_work]
  split
  · rfl
  split
  · rfl
  exact ite_self _
@[simp] theorem capOut_work (unit sl : Nat) (d : Slot) (payload : List Byte) (s : State) : (capOut unit sl d payload s).work = s.work := by
  simp only [capOut, apply_ite State.work, recCap_work, ite_self]
  split <;> rfl
@[simp] theorem capFar_work (port : Nat) (line : LineNo) (write : Bool) (data : Line) (mask : Slot) (purp : FP) (s : State) :
    (capFar port line write data mask purp s).work = s.work := by
  simp only [capFar, apply_ite State.work, capOut_work, ite_self]
@[simp] theorem cxlOut_work (q : FarReq) (s : State) : (cxlOut q s).work = s.work := by
  unfold cxlOut
  split <;> rfl
@[simp] theorem farSend_work (port fline : Nat) (line : LineNo) (write : Bool) (data : Line) (mask : Slot) (psn : Bool) (purp : FP) (s : State) :
    (farSend port fline line write data mask psn purp s).1.work = s.work := by
  unfold farSend
  dsimp only
  split
  · exact capFar_work ..
  · exact (cxlOut_work ..).trans (capFar_work ..)
@[simp] theorem errForm_work (code sev unit index flags loc det : Nat) (s : State) : (errForm code sev unit index flags loc det s).1.work = s.work := by
  unfold errForm
  dsimp only
  split
  · simp only [work_upd]
  split
  · simp only [work_upd, cntErr]
  · simp only [apply_ite State.work, postEvent_work, work_upd, ite_self]
@[simp] theorem logErr_work (code sev unit index flags loc det : Nat) (s : State) : (logErr code sev unit index flags loc det s).work = s.work := by
  have record := errForm_work code sev unit index flags loc det s
  unfold logErr
  generalize errForm code sev unit index flags loc det s = r at record ⊢
  obtain ⟨t, formed⟩ := r
  have stopped (c : Bool) : (if c then recStop 6 t else t).work = s.work := by
    rw [apply_ite State.work, recStop_work, ite_self]
    exact record
  dsimp only
  generalize hc : (formed && decide (2 ≤ sev) && bit s.rec_.cfg 3) = c
  split
  · exact stopped c
  split
  · exact stopped c
  split
  · exact (errForm_work ..).trans (stopped c)
  · exact (farSend_work ..).trans (stopped c)
@[simp] theorem logSram_work (code unit index loc : Nat) (s : State) : (logSram code unit index loc s).work = s.work :=
  logErr_work ..
@[simp] theorem seqParity_work (sl addr : Nat) (dm : Bool) (s : State) : (seqParity sl addr dm s).work = s.work :=
  (logErr_work ..).trans (logSram_work ..)

/-- Without a load that waits, the end of an event is the event's alone (R158). -/
theorem polWait_of_none {s : State} (h : polCmd s = none) : polWait s = s := by
  simp only [polWait, h]
theorem afterEvent_of_none {sl : Nat} {e : SeqEv} {ok : Bool} {s : State} (notInit : e.kind ≠ 4) (h : polCmd s = none) : afterEvent sl e ok s = s := by
  rw [afterEvent, if_neg notInit, polWait_of_none h]

/-- A fault in an event that is neither a victim choice nor INIT leaves the sequencer free where no load waits (R140). -/
theorem seqFault_free {n op : Nat} {e : SeqEv} {s : State} (run : (s.seq n).run = some e) (notVictim : e.kind ≠ 0) (notInit : e.kind ≠ 4)
    (load : polCmd s = none) : ((seqFault n op s).seq n).run = none := by
  obtain ⟨t, same, fault⟩ : ∃ t : State, t.work = s.work ∧ seqFault n op s = seqAbort n t := by
    refine ⟨_, ?_, rfl⟩
    split
    · rfl
    · exact postEvent_work ..
  have free : polCmd (t.updSeq n Seq.ended) = none := (State.polCmd_of_work same).trans load
  rw [fault, seqAbort, State.seq_of_work same, run]
  simp only [notVictim, decide_false, Bool.false_and, Bool.false_eq_true, if_false]
  rw [afterEvent_of_none notInit free, State.seq_updSeq]
  rfl

end Sys2Proof.Machine
end

section
/-! O22: loads, stores and jumps, by `issue_eq`; a load whose word fails parity ends its event, by `issue_ends`. -/
namespace Sys2Proof.Machine

/-- A row whose effect is one change `f` of its sequencer, its word spelling it. -/
theorem exec_of_issue {c : Instr} {sl : BitVec 3} {gd : BitVec 4} {k : IKind} {s : State} {eff : State → State} (f : Seq → Seq)
    (hc : exec c s = .next (issue c sl gd k eff s)) (he : ∀ t, eff t = t.updSeq sl.toNat f) (hf : ∀ q, (f q).run = q.run) (hw : asWord c = c)
    (place : k.noSlot = false ∨ (s.seq sl.toNat).slot = false) (h : Issues c sl gd s) :
    exec c s = .next (s.updSeq sl.toNat (seqStep k.branch k.clocks f)) := by
  rw [hc, issue_eq (hw.symm ▸ h) place (inSeq_of_updSeq he) hf]

/-- What a load does whose word fails parity (R140, R152). -/
def loadFault (sl : BitVec 3) (ra : BitVec 4) (imm : SWord) (t : State) : State :=
  let a := dAddr (t.seq sl.toNat) ra imm
  seqFault sl.toNat 0x20 (seqParity sl.toNat a true (t.updSeq sl.toNat (fun q => { q with dmem := NMap.set 0 q.dmem a (imageWord t a) })))

theorem loadFault_updSeq (sl : BitVec 3) (ra : BitVec 4) (imm : SWord) (s : State) (g : Seq → Seq) {a : Nat}
    (ha : dAddr (g (s.seq sl.toNat)) ra imm = a) :
    loadFault sl ra imm (s.updSeq sl.toNat g) =
      seqFault sl.toNat 0x20 (seqParity sl.toNat a true (s.updSeq sl.toNat (fun q => { g q with dmem := NMap.set 0 (g q).dmem a (imageWord s a) }))) := by
  rw [loadFault, State.seq_updSeq, ha, State.updSeq_updSeq]
  rfl

/-- A load whose word fails parity ends its event, where that leaves the sequencer free (R140, R152). -/
theorem exec_ld_perr {sl : BitVec 3} {gd rd ra : BitVec 4} {imm : SWord} {s u : State} (h : Issues (.ld sl gd rd ra imm false) sl gd s)
    (fault : loadFault sl ra imm (s.updSeq sl.toNat fun q =>
      { q.land with issued := q.land.issued + 1, lastIssue := q.land.clk, fresh := false, target := none, slot := false }) = u)
    (free : (u.seq sl.toNat).run = none) : exec (.ld sl gd rd ra imm true) s = .next (rowEnd s u) := by
  subst fault
  exact congrArg Host.Outcome.next (issue_ends (i := .ld sl gd rd ra imm true) (k := plain 0x20) (eff := loadFault sl ra imm) h (.inl rfl) free)

/-- Settles O22. -/
theorem memoryAndJumpInstructionsGiveTheirResults : Obligations.MemoryAndJumpInstructionsGiveTheirResults := by
  intro sl gd rd ra rb imm s runs
  refine ⟨exec_of_issue (c := .ld sl gd rd ra imm false) (k := plain 0x20) _ rfl (load_updSeq sl rd ra imm) (fun _ => rfl) rfl (.inl rfl), ?_,
    exec_of_issue (c := .st sl gd ra rb imm) (k := plain 0x21) (fun q => { q with dmem := NMap.set 0 q.dmem ((q.rg ra + imm).toNat % 8192) (q.rg rb) }) rfl (fun _ => rfl) (fun _ => rfl) rfl (.inl rfl),
    exec_of_issue (c := .sti sl gd rd ra rb imm) (k := plain 0x22) (fun q => { q with imem := NMap.set 0 q.imem ((q.rg ra + imm).toNat % 2048) ((q.rg rb).setWidth 32 ++ (q.rg rd).setWidth 32) })
      rfl (fun _ => rfl) (fun _ => rfl) rfl (.inl rfl), fun place => ⟨?_, ?_, ?_, ?_⟩⟩
  · intro issues e run q a u
    have fault : loadFault sl ra imm (s.updSeq sl.toNat fun q =>
        { q.land with issued := q.land.issued + 1, lastIssue := q.land.clk, fresh := false, target := none, slot := false }) = u :=
      (loadFault_updSeq sl ra imm s _ rfl).trans
        (congrArg (fun t => seqFault sl.toNat 0x20 (seqParity sl.toNat a true t)) (State.updSeq_congr rfl))
    refine ⟨fun notVictim notInit load => exec_ld_perr issues fault (seqFault_free ?_ notVictim notInit ?_), exec_ld_perr issues fault⟩
    · rw [State.seq_of_work (seqParity_work ..), State.seq_updSeq]
      exact (Seq.land_run _).trans run
    · rw [State.polCmd_of_work (seqParity_work ..)]
      exact load
  · exact exec_of_issue (c := .iflush sl gd) (k := ⟨0x23, true, false, 4⟩) (fun q => { q with fbuf := none }) rfl (fun _ => rfl) (fun _ => rfl) rfl (.inr place)
  · exact exec_of_issue (c := .br sl gd imm) (k := ⟨0x30, true, true, 1⟩) (fun q => { q with target := some (imm.setWidth 11) }) rfl (fun _ => rfl) (fun _ => rfl) rfl (.inr place)
  · exact exec_of_issue (c := .jr sl gd ra) (k := ⟨0x31, true, true, 1⟩) (fun q => { q with target := some ((q.rg ra).setWidth 11) }) rfl (fun _ => rfl) (fun _ => rfl) rfl (.inr place)
  · exact exec_of_issue (c := .jal sl gd rd imm) (k := ⟨0x32, true, true, 1⟩) _ rfl (link_updSeq sl rd imm) (fun _ => rfl) rfl (.inr place)

end Sys2Proof.Machine
end

section
/-! O24: DONE ends its event, by `issue_ends`; EMIT goes on in it, by `issue_runs`. -/
namespace Sys2Proof.Machine

/-- The sequencer at the effect of an instruction that issues: due writes have landed, and it counts (R135, R140). -/
def Seq.issuing (branch : Bool) (q : Seq) : Seq :=
  { q.land with issued := q.land.issued + 1, lastIssue := q.land.clk, fresh := false, target := none, slot := branch }

/-- A row that issues and whose effect leaves its event running moves on, as `seqStep` does. -/
theorem issue_runs {i : Instr} {sl : BitVec 3} {gd : BitVec 4} {k : IKind} {s : State} {eff : State → State}
    (h : Issues (asWord i) sl gd s) (hk : k.noSlot = false ∨ (s.seq sl.toNat).slot = false)
    (he : ((eff (s.updSeq sl.toNat (Seq.issuing k.branch))).seq sl.toNat).run.isNone = false) :
    issue i sl gd k eff s = (eff (s.updSeq sl.toNat (Seq.issuing k.branch))).updSeq sl.toNat (fun r =>
      { r.goto ((s.seq sl.toNat).land.target.getD ((s.seq sl.toNat).land.pc + 1)) with clk := (s.seq sl.toNat).land.clk + k.clocks }) := by
  obtain ⟨ho, ⟨e, hr, hl⟩, hg, hw⟩ := h
  have hb : (k.noSlot && (s.seq sl.toNat).land.slot) = false := by
    rw [Seq.land_slot]
    rcases hk with h | h <;> simp [h]
  have hn : ¬ evLimit e ≤ (s.seq sl.toNat).issued := by omega
  unfold Seq.issuing at he ⊢
  simp only [issue, hr, ho, hw, State.seq_updSeq, hg, hn, Bool.true_and, hb, if_true, State.updSeq_updSeq, Bool.false_eq_true, if_false,
    decide_false, Bool.or_self, Bool.and_false, ne_eq, not_true_eq_false, Option.isNone_some, he]

/-- What DONE does (R148). -/
def doneEffect (n : Nat) (ra rb : BitVec 4) (imm : SWord) (s : State) : State :=
  let q := s.seq n
  match q.run with
  | some e =>
    if defaultOn s && q.issued = 1 then defaultHandler n e s
    else
    let s := putRepl n e.set (newRepl q (bit imm 0) (q.rg rb)) (s.updSeq n Seq.ended)
    afterEvent n e true (if e.kind = 0 then victimResult n e (q.rg ra) (q.clk + 1) s else s)
  | none => s
theorem exec_done (sl : BitVec 3) (gd ra rb : BitVec 4) (imm : SWord) (s : State) :
    exec (.done sl gd ra rb imm) s = .next (issue (.done sl gd ra rb imm) sl gd ⟨0x38, true, false, 1⟩ (doneEffect sl.toNat ra rb imm) s) := rfl

/-- DONE issued in an event that it does not end by the default image's handler: REPL is written, and what follows the event happens. -/
theorem doneEffect_issuing {n : Nat} {ra rb : BitVec 4} {imm : SWord} {e : SeqEv} {s : State} (run : (s.seq n).run = some e)
    (own : ¬(defaultOn s = true ∧ (s.seq n).issued = 0)) :
    let q := (s.seq n).land
    let v := putRepl n e.set (newRepl q (bit imm 0) (q.rg rb)) (s.updSeq n (fun _ => { q with lastIssue := q.clk }.ended))
    doneEffect n ra rb imm (s.updSeq n (Seq.issuing false)) = afterEvent n e true (if e.kind = 0 then victimResult n e (q.rg ra) (q.clk + 1) v else v) := by
  intro q v
  have running : (Seq.issuing false (s.seq n)).run = some e := (Seq.land_run _).trans run
  have first : (defaultOn (s.updSeq n (Seq.issuing false)) && decide ((Seq.issuing false (s.seq n)).issued = 1)) = false := by
    simp only [Seq.issuing, Seq.land_issued, Nat.add_eq_right]
    refine Bool.eq_false_iff.mpr fun h => own ?_
    simp only [Bool.and_eq_true, decide_eq_true_eq] at h
    exact h
  have ended : (s.updSeq n (Seq.issuing false)).updSeq n Seq.ended = s.updSeq n (fun _ => { q with lastIssue := q.clk }.ended) :=
    (State.updSeq_updSeq ..).trans (State.updSeq_congr rfl)
  simp only [doneEffect, State.seq_updSeq, running, first, ended, Bool.false_eq_true, if_false]
  rfl

theorem State.slice_updSlice_eq (s : State) (n m : Nat) (f : Slice → Slice) : (s.updSlice n f).slice m = if m = n then f (s.slice m) else s.slice m := by
  split
  · next same => rw [same, State.slice_updSlice]
  · next other => exact State.slice_updSlice_ne s f other
theorem State.slice_updSeq_eq (s : State) (n m : Nat) (f : Seq → Seq) :
    (s.updSeq n f).slice m = { s.slice m with seq := if m = n then f (s.slice m).seq else (s.slice m).seq } := by
  rw [State.updSeq, State.slice_updSlice_eq]
  split <;> rfl
/-- A change of a slice that keeps its sequencer keeps every sequencer. -/
theorem State.seq_updSlice (s : State) (n m : Nat) {f : Slice → Slice} (h : ∀ x, (f x).seq = x.seq) : (s.updSlice n f).seq m = s.seq m := by
  rw [State.seq, State.slice_updSlice_eq]
  split
  · exact h _
  · rfl
@[simp] theorem putRepl_seq (sl set : Nat) (r : BitVec 256) (s : State) (n : Nat) : (putRepl sl set r s).seq n = s.seq n :=
  State.seq_updSlice s sl n fun _ => rfl
theorem putRepl_polCmd (sl set : Nat) (r : BitVec 256) (s : State) : polCmd (putRepl sl set r s) = polCmd s := rfl

/-- DONE ends its event in the state `u` that follows it, where the sequencer is free there. -/
theorem exec_done_ends {sl : BitVec 3} {gd ra rb : BitVec 4} {imm : SWord} {s u : State} (h : Issues (.done sl gd ra rb imm) sl gd s)
    (place : (s.seq sl.toNat).slot = false) (effect : doneEffect sl.toNat ra rb imm (s.updSeq sl.toNat (Seq.issuing false)) = u)
    (free : (u.seq sl.toNat).run = none) : exec (.done sl gd ra rb imm) s = .next (rowEnd s u) := by
  subst effect
  rw [exec_done]
  exact congrArg Host.Outcome.next (issue_ends h (.inr place) free)

theorem victimResult_cases {n : Nat} {e : SeqEv} {r : SWord} {now : Nat} {s : State} (waits : e.late = false) :
    (e.d + 24 < now → victimResult n e r now s = victimFallback n 5 e s) ∧
    (now ≤ e.d + 24 → bit r 4 = true → victimResult n e r now s = victimFallback n 7 e s) ∧
    (now ≤ e.d + 24 → bit r 4 = false →
      (nbits r 3 0 ≤ 13 → (eligBy s e.pmask e.set (e.fillKind = 2)).testBit (nbits r 3 0) = true →
        victimResult n e r now s = victimGive n e (some (nbits r 3 0)) s) ∧
      (13 < nbits r 3 0 ∨ (eligBy s e.pmask e.set (e.fillKind = 2)).testBit (nbits r 3 0) = false →
        victimResult n e r now s = victimFallback n 6 e s)) := by
  unfold victimResult
  rw [waits]
  refine ⟨fun late => ?_, fun inTime declined => ?_, fun inTime chosen => ⟨fun way eligible => ?_, fun bad => ?_⟩⟩
  · simp only [late, Bool.false_eq_true, if_true, if_false]
  · simp only [Nat.not_lt.mpr inTime, declined, Bool.false_eq_true, if_true, if_false]
  · simp only [Nat.not_lt.mpr inTime, chosen, Nat.not_lt.mpr way, eligible, decide_false, Bool.not_true, Bool.or_self, Bool.false_eq_true, if_false]
  · have refused : (decide (13 < nbits r 3 0) || !(eligBy s e.pmask e.set (e.fillKind = 2)).testBit (nbits r 3 0)) = true := by
      simpa using bad
    simp only [Nat.not_lt.mpr inTime, chosen, refused, Bool.false_eq_true, if_true, if_false]

/-- What EMIT does (R143). -/
def emitEffect (n : Nat) (ra : BitVec 4) (s : State) : State :=
  let q := s.seq n
  match q.run with
  | some e =>
    if 4 ≤ q.emits then cntPol 12 1 s
    else
      let l := q.rg ra
      (s.updSeq n (fun q => { q with emits := q.emits + 1 })).updSlice (homeSlice l) (fun h => { h with
        nl := h.nl ++ [(l, (match s.coverNew e.line with | some (i, _) => i | none => 1024), e.port.toNat, e.cls.setWidth 3)] })
  | none => s
theorem exec_emit (sl : BitVec 3) (gd ra : BitVec 4) (s : State) :
    exec (.emit sl gd ra) s = .next (issue (.emit sl gd ra) sl gd (plain 0x39) (emitEffect sl.toNat ra) s) := rfl

/-- The fifth EMIT of an event and those after it are counted only. -/
theorem emitEffect_full {n : Nat} {ra : BitVec 4} {e : SeqEv} {s : State} (run : (s.seq n).run = some e) (full : 4 ≤ (s.seq n).emits) :
    emitEffect n ra (s.updSeq n (Seq.issuing false)) = cntPol 12 1 (s.updSeq n (Seq.issuing false)) := by
  have running : (Seq.issuing false (s.seq n)).run = some e := (Seq.land_run _).trans run
  have emits : 4 ≤ (Seq.issuing false (s.seq n)).emits := by rwa [Seq.issuing, Seq.land_emits]
  simp only [emitEffect, State.seq_updSeq, running, emits, if_true]

/-- The next-line candidate of an EMIT of the line `l` in the event `e` (R143). -/
def emitted (s : State) (e : SeqEv) (l : SWord) : SWord × Nat × Nat × BitVec 3 :=
  (l, (match s.coverNew e.line with | some (i, _) => i | none => 1024), e.port.toNat, e.cls.setWidth 3)

/-- An EMIT among the first four of its event adds a candidate at the home slice of its line. -/
theorem emitEffect_adds {n : Nat} {ra : BitVec 4} {e : SeqEv} {s : State} (run : (s.seq n).run = some e) (few : (s.seq n).emits < 4) :
    emitEffect n ra (s.updSeq n (Seq.issuing false)) =
      (s.updSeq n (fun q => { Seq.issuing false q with emits := q.land.emits + 1 })).updSlice (homeSlice ((s.seq n).land.rg ra)) (fun h => { h with
        nl := h.nl ++ [emitted s e ((s.seq n).land.rg ra)] }) := by
  have running : (Seq.issuing false (s.seq n)).run = some e := (Seq.land_run _).trans run
  have emits : ¬ 4 ≤ (Seq.issuing false (s.seq n)).emits := by
    rw [Seq.issuing, Seq.land_emits]
    omega
  simp only [emitEffect, State.seq_updSeq, running, emits, if_false, State.updSeq_updSeq]
  rfl

/-- The event goes on after an EMIT that adds a candidate. -/
theorem exec_emit_adds {sl : BitVec 3} {gd ra : BitVec 4} {e : SeqEv} {s : State} (issues : Issues (.emit sl gd ra) sl gd s)
    (run : (s.seq sl.toNat).run = some e) (few : (s.seq sl.toNat).emits < 4) :
    exec (.emit sl gd ra) s = .next (((s.updSeq sl.toNat (fun q => { Seq.issuing false q with emits := q.land.emits + 1 })).updSlice
      (homeSlice ((s.seq sl.toNat).land.rg ra)) (fun h => { h with nl := h.nl ++ [emitted s e ((s.seq sl.toNat).land.rg ra)] })).updSeq sl.toNat (fun r =>
        { r.goto ((s.seq sl.toNat).land.target.getD ((s.seq sl.toNat).land.pc + 1)) with clk := (s.seq sl.toNat).land.clk + 1 })) := by
  have effect := emitEffect_adds (ra := ra) run few
  rw [exec_emit, issue_runs (i := .emit sl gd ra) (k := plain 0x39) issues (.inl rfl) ?_]
  · exact congrArg (fun t : State => Host.Outcome.next (t.updSeq sl.toNat _)) effect
  · refine (congrArg (fun t : State => (t.seq sl.toNat).run.isNone) effect).trans ?_
    refine (congrArg (fun q : Seq => q.run.isNone) ((State.seq_updSlice _ _ _ ?_).trans (State.seq_updSeq ..))).trans ?_
    · exact fun _ => rfl
    · exact congrArg Option.isNone ((Seq.land_run _).trans run)
/-- The event goes on after an EMIT that is only counted. -/
theorem exec_emit_full {sl : BitVec 3} {gd ra : BitVec 4} {e : SeqEv} {s : State} (issues : Issues (.emit sl gd ra) sl gd s)
    (run : (s.seq sl.toNat).run = some e) (full : 4 ≤ (s.seq sl.toNat).emits) :
    exec (.emit sl gd ra) s = .next (cntPol 12 1 (s.updSeq sl.toNat (seqStep false 1 id))) := by
  have effect := emitEffect_full (ra := ra) run full
  have joined := State.updSeq_updSeq s sl.toNat (Seq.issuing false) (fun r =>
    { r.goto ((s.seq sl.toNat).land.target.getD ((s.seq sl.toNat).land.pc + 1)) with clk := (s.seq sl.toNat).land.clk + 1 })
  rw [exec_emit, issue_runs (i := .emit sl gd ra) (k := plain 0x39) issues (.inl rfl) ?_]
  · refine (congrArg (fun t : State => Host.Outcome.next (t.updSeq sl.toNat _)) effect).trans ?_
    exact congrArg (fun t => Host.Outcome.next (cntPol 12 1 t)) (joined.trans (State.updSeq_congr rfl))
  · refine (congrArg (fun t : State => (t.seq sl.toNat).run.isNone) effect).trans ?_
    exact congrArg Option.isNone ((congrArg Seq.run (State.seq_updSeq s sl.toNat (Seq.issuing false))).trans ((Seq.land_run _).trans run))

/-- A slice after a change of a sequencer with a candidate added at the slice `k`. -/
theorem slice_of_emit (s : State) (n k m : Nat) (x) (f g : Seq → Seq) :
    (((s.updSeq n f).updSlice k (fun h => { h with nl := h.nl ++ [x] })).updSeq n g).slice m =
      { s.slice m with
        seq := if m = n then g (f (s.slice m).seq) else (s.slice m).seq
        nl := (s.slice m).nl ++ if m = k then [x] else [] } := by
  rw [State.slice_updSeq_eq, State.slice_updSlice_eq, State.slice_updSeq_eq]
  by_cases home : m = k
  · simp only [if_pos home]
    split <;> rfl
  · simp only [if_neg home, List.append_nil]
    split <;> rfl

/-- Settles O24. -/
theorem doneAndEmitEndAndExtendTheEvent : Obligations.DoneAndEmitEndAndExtendTheEvent := by
  intro sl gd ra rb imm e s run n q
  refine ⟨?_, fun r now waits => victimResult_cases waits, ?_⟩
  · intro issues place own v
    have effect := doneEffect_issuing (ra := ra) (rb := rb) (imm := imm) run own
    have waits (notVictim : e.kind ≠ 0) (notInit : e.kind ≠ 4) : doneEffect n ra rb imm (s.updSeq n (Seq.issuing false)) = polWait v := by
      rw [effect, if_neg notVictim, afterEvent, if_neg notInit]
    refine ⟨fun notVictim notInit load => ?_, fun victim => exec_done_ends issues place ?_,
      fun init => exec_done_ends issues place ?_,
      fun notVictim notInit => exec_done_ends issues place (waits notVictim notInit)⟩
    · refine exec_done_ends issues place ((waits notVictim notInit).trans (polWait_of_none load)) ?_
      rw [putRepl_seq, State.seq_updSeq]
      rfl
    · rw [effect, if_pos victim, afterEvent, if_neg (by rw [victim]; decide)]
    · rw [effect, if_neg (by rw [init]; decide), afterEvent, if_pos init]
  · intro issues
    rcases Nat.lt_or_ge (s.seq n).emits 4 with few | full
    · refine ⟨_, exec_emit_adds issues run few, fun _ => ⟨rfl, fun m => ?_⟩, fun full => absurd few (Nat.not_lt.mpr full)⟩
      refine (slice_of_emit ..).trans (congrArg (fun q => { s.slice m with
        seq := q, nl := (s.slice m).nl ++ if m = homeSlice ((s.seq n).land.rg ra) then [emitted s e ((s.seq n).land.rg ra)] else [] }) ?_)
      split
      · next own => subst own; rfl
      · rfl
    · exact ⟨_, exec_emit_full issues run full, fun few => absurd few (Nat.not_lt.mpr full), fun _ => rfl⟩

end Sys2Proof.Machine
end

section
/-! O25: the tree of the default policy (R113-R115), and the handler that a first DONE stands for (log 6). -/
namespace Sys2Proof.Machine

/-- One node of the walk (R113). -/
def walkNode (repl : BitVec 13) (elig m : BitVec 14) (node : Nat × BitVec 14 × BitVec 14) : BitVec 14 :=
  if m = node.2.1 ||| node.2.2 then
    let (x, y) := if repl.getLsbD node.1 then (node.2.2, node.2.1) else (node.2.1, node.2.2)
    if x &&& elig = 0 then y else x
  else m
theorem treeWalk_eq (repl : BitVec 13) (elig : BitVec 14) : treeWalk repl elig = treeNodes.foldl (walkNode repl elig) 0x3FFF := rfl
/-- One node of an update (R114, R115). -/
def pointNode (weak : Bool) (way : Nat) (r : BitVec 13) (node : Nat × BitVec 14 × BitVec 14) : BitVec 13 :=
  if node.2.1.getLsbD way then putBits r node.1 1 (b2n (!weak)) else if node.2.2.getLsbD way then putBits r node.1 1 (b2n weak) else r
theorem treePoint_eq (weak : Bool) (way : Nat) (repl : BitVec 13) : treePoint weak way repl = treeNodes.foldl (pointNode weak way) repl := rfl

/-- The side a node's bit selects and the other one. -/
theorem walkNode_here (repl : BitVec 13) (elig : BitVec 14) (node : Nat × BitVec 14 × BitVec 14) :
    walkNode repl elig (node.2.1 ||| node.2.2) node =
      if repl.getLsbD node.1 then (if node.2.2 &&& elig = 0 then node.2.1 else node.2.2)
      else if node.2.1 &&& elig = 0 then node.2.2 else node.2.1 := by
  rw [walkNode, if_pos rfl]
  cases repl.getLsbD node.1 <;> rfl

/-- The masks that may still be in question once the node has been passed. -/
def passNode (masks : List (BitVec 14)) (node : Nat × BitVec 14 × BitVec 14) : List (BitVec 14) :=
  node.2.1 :: node.2.2 :: masks.filter (· ≠ node.2.1 ||| node.2.2)
/-- The masks in question after the tree: one for each way. -/
theorem passNode_tree : treeNodes.foldl passNode [0x3FFF] = [12, 13, 10, 11, 8, 9, 6, 7, 4, 5, 2, 3, 0, 1].map (fun w => BitVec.ofNat 14 (2 ^ w)) := by
  decide +kernel
theorem exists_way_of_leaf {m : BitVec 14} (h : m ∈ treeNodes.foldl passNode [0x3FFF]) : ∃ w < 14, m = BitVec.ofNat 14 (2 ^ w) := by
  rw [passNode_tree] at h
  obtain ⟨w, hw, rfl⟩ := List.mem_map.mp h
  have ways : ∀ w ∈ [12, 13, 10, 11, 8, 9, 6, 7, 4, 5, 2, 3, 0, 1], w < 14 := by decide
  exact ⟨w, ways w hw, rfl⟩

/-- The walk keeps an eligible way in question. -/
theorem walkNode_eligible {repl : BitVec 13} {elig m : BitVec 14} {node : Nat × BitVec 14 × BitVec 14} (h : m &&& elig ≠ 0) :
    walkNode repl elig m node &&& elig ≠ 0 := by
  by_cases here : m = node.2.1 ||| node.2.2
  · subst here
    have sides : ¬(node.2.1 &&& elig = 0 ∧ node.2.2 &&& elig = 0) := fun ⟨lo, hi⟩ => h (by rw [BitVec.and_or_distrib_right, lo, hi]; rfl)
    rw [walkNode_here]
    split <;> split <;> simp_all
  · rwa [walkNode, if_neg here]
theorem walkNode_mem {repl : BitVec 13} {elig m : BitVec 14} {node : Nat × BitVec 14 × BitVec 14} {masks : List (BitVec 14)} (h : m ∈ masks) :
    walkNode repl elig m node ∈ passNode masks node := by
  by_cases here : m = node.2.1 ||| node.2.2
  · subst here
    rw [walkNode_here, passNode]
    split <;> split <;> simp
  · rw [walkNode, if_neg here, passNode]
    simp [h, here]
theorem walk_mem (repl : BitVec 13) (elig : BitVec 14) (nodes : List (Nat × BitVec 14 × BitVec 14)) {m : BitVec 14} {masks : List (BitVec 14)}
    (h : m ∈ masks) : nodes.foldl (walkNode repl elig) m ∈ nodes.foldl passNode masks := by
  induction nodes generalizing m masks with
  | nil => exact h
  | cons node nodes ih => exact ih (walkNode_mem h)
theorem walk_eligible (repl : BitVec 13) (elig : BitVec 14) (nodes : List (Nat × BitVec 14 × BitVec 14)) {m : BitVec 14} (h : m &&& elig ≠ 0) :
    nodes.foldl (walkNode repl elig) m &&& elig ≠ 0 := by
  induction nodes generalizing m with
  | nil => exact h
  | cons node nodes ih => exact ih (walkNode_eligible h)

/-- The walk ends at a leaf: one way. -/
theorem treeWalk_leaf (repl : BitVec 13) (elig : BitVec 14) : ∃ w < 14, treeWalk repl elig = BitVec.ofNat 14 (2 ^ w) :=
  exists_way_of_leaf (walk_mem repl elig treeNodes (List.mem_singleton.mpr rfl))
theorem getLsbD_of_way {w : Nat} {elig : BitVec 14} (h : BitVec.ofNat 14 (2 ^ w) &&& elig ≠ 0) : elig.getLsbD w = true := by
  by_contra no
  refine h (BitVec.eq_of_getLsbD_eq fun i hi => ?_)
  by_cases same : w = i
  · subst same
    rw [BitVec.getLsbD_and, Bool.eq_false_of_not_eq_true no, Bool.and_false]
    simp
  · rw [BitVec.getLsbD_and, BitVec.getLsbD_ofNat, Nat.testBit_two_pow_of_ne same, Bool.and_false, Bool.false_and]
    simp

/-- A node's bit after an update. -/
theorem getLsbD_putBits_one {r : BitVec 13} {b i : Nat} (v : Bool) (hb : b < 13) :
    (putBits r b 1 (b2n v)).getLsbD i = if i = b then v else r.getLsbD i := by
  have one : (1 <<< b).testBit i = decide (i = b) := by
    rw [Nat.one_shiftLeft, Nat.testBit_two_pow]
    exact decide_eq_decide.mpr eq_comm
  have hv : b2n v % 2 ^ 1 = b2n v := by cases v <;> rfl
  rw [putBits, hv, BitVec.getLsbD_or, BitVec.getLsbD_and, BitVec.getLsbD_not, BitVec.getLsbD_ofNat, BitVec.getLsbD_ofNat, show 2 ^ 1 - 1 = 1 from rfl, one]
  by_cases here : i = b
  · subst here
    cases v <;> simp [b2n, hb]
  · have off : (b2n v <<< b).testBit i = false := by
      cases v
      · simp [b2n]
      · simpa [b2n, here] using one
    by_cases inside : i < 13
    · simp [here, off, inside]
    · simp [here, off, inside, BitVec.getLsbD_of_ge r i (Nat.not_lt.mp inside)]
theorem getLsbD_pointNode {weak : Bool} {way : Nat} {r : BitVec 13} {node : Nat × BitVec 14 × BitVec 14} {i : Nat} (hb : node.1 < 13) :
    (pointNode weak way r node).getLsbD i =
      if i = node.1 then (if node.2.1.getLsbD way then !weak else if node.2.2.getLsbD way then weak else r.getLsbD i) else r.getLsbD i := by
  rw [pointNode]
  split
  · exact getLsbD_putBits_one _ hb
  split
  · exact getLsbD_putBits_one _ hb
  · exact (ite_self _).symm
theorem point_other {weak : Bool} {way i : Nat} {r : BitVec 13} (nodes : List (Nat × BitVec 14 × BitVec 14)) (bits : ∀ x ∈ nodes, x.1 < 13)
    (other : i ∉ nodes.map (·.1)) : (nodes.foldl (pointNode weak way) r).getLsbD i = r.getLsbD i := by
  induction nodes generalizing r with
  | nil => rfl
  | cons node nodes ih =>
    simp only [List.map_cons, List.mem_cons, not_or] at other
    rw [List.foldl_cons, ih (fun x hx => bits x (List.mem_cons_of_mem _ hx)) other.2, getLsbD_pointNode (bits node List.mem_cons_self), if_neg other.1]
theorem point_bit {weak : Bool} {way : Nat} {r : BitVec 13} (nodes : List (Nat × BitVec 14 × BitVec 14)) (bits : ∀ x ∈ nodes, x.1 < 13)
    (distinct : (nodes.map (·.1)).Nodup) {node : Nat × BitVec 14 × BitVec 14} (h : node ∈ nodes) :
    (nodes.foldl (pointNode weak way) r).getLsbD node.1 =
      if node.2.1.getLsbD way then !weak else if node.2.2.getLsbD way then weak else r.getLsbD node.1 := by
  induction nodes generalizing r with
  | nil => cases h
  | cons x nodes ih =>
    obtain ⟨here, later⟩ := List.nodup_cons.mp distinct
    have rest := fun y hy => bits y (List.mem_cons_of_mem x hy)
    rcases List.mem_cons.mp h with rfl | h
    · rw [List.foldl_cons, point_other nodes rest here, getLsbD_pointNode (bits _ List.mem_cons_self), if_pos rfl]
    · have ne : node.1 ≠ x.1 := fun same => here (List.mem_map.mpr ⟨node, h, same⟩)
      rw [List.foldl_cons, ih rest later h, getLsbD_pointNode (bits _ List.mem_cons_self), if_neg ne]


/-- What the proof of O25 needs of the nodes, each by evaluation: their bits are those of REPL and distinct, neither side of one is empty. -/
theorem treeNodes_bits : (∀ x ∈ treeNodes, x.1 < 13) ∧ (treeNodes.map (·.1)).Nodup ∧ ∀ x ∈ treeNodes, x.2.1 &&& 0x3FFF ≠ 0 ∧ x.2.2 &&& 0x3FFF ≠ 0 := by
  decide

theorem treePoint_bit {weak : Bool} {way : Nat} {r : BitVec 13} {node : Nat × BitVec 14 × BitVec 14} (h : node ∈ treeNodes) :
    (treePoint weak way r).getLsbD node.1 =
      if node.2.1.getLsbD way then !weak else if node.2.2.getLsbD way then weak else r.getLsbD node.1 :=
  point_bit treeNodes treeNodes_bits.1 treeNodes_bits.2.1 h
/-- With every way eligible a node's bit alone decides (R113). -/
theorem walkNode_all {r : BitVec 13} {node : Nat × BitVec 14 × BitVec 14} (h : node ∈ treeNodes) :
    walkNode r 0x3FFF (node.2.1 ||| node.2.2) node = if r.getLsbD node.1 then node.2.2 else node.2.1 := by
  obtain ⟨lo, hi⟩ := treeNodes_bits.2.2 node h
  rw [walkNode_here, if_neg lo, if_neg hi]

/-- After a weak insertion the walk keeps the way in question. -/
theorem walkNode_weak {way : Nat} {r : BitVec 13} {m : BitVec 14} {node : Nat × BitVec 14 × BitVec 14} (h : node ∈ treeNodes) (hm : m.getLsbD way = true) :
    (walkNode (treePoint true way r) 0x3FFF m node).getLsbD way = true := by
  by_cases here : m = node.2.1 ||| node.2.2
  · subst here
    rw [walkNode_all h, treePoint_bit h]
    rw [BitVec.getLsbD_or, Bool.or_eq_true] at hm
    split <;> simp_all
  · rwa [walkNode, if_neg here]
/-- A way that is no longer in question stays so. -/
theorem walkNode_without {way : Nat} {r : BitVec 13} {elig m : BitVec 14} {node : Nat × BitVec 14 × BitVec 14} (hm : m.getLsbD way = false) :
    (walkNode r elig m node).getLsbD way = false := by
  by_cases here : m = node.2.1 ||| node.2.2
  · subst here
    rw [walkNode_here]
    rw [BitVec.getLsbD_or, Bool.or_eq_false_iff] at hm
    split <;> split <;> simp_all
  · rwa [walkNode, if_neg here]
theorem walk_weak {way : Nat} {r : BitVec 13} (nodes : List (Nat × BitVec 14 × BitVec 14)) (sub : ∀ x ∈ nodes, x ∈ treeNodes) {m : BitVec 14}
    (hm : m.getLsbD way = true) : (nodes.foldl (walkNode (treePoint true way r) 0x3FFF) m).getLsbD way = true := by
  induction nodes generalizing m with
  | nil => exact hm
  | cons node nodes ih =>
    exact ih (fun x hx => sub x (List.mem_cons_of_mem _ hx)) (walkNode_weak (sub node List.mem_cons_self) hm)
theorem walk_without {way : Nat} {r : BitVec 13} {elig : BitVec 14} (nodes : List (Nat × BitVec 14 × BitVec 14)) {m : BitVec 14}
    (hm : m.getLsbD way = false) : (nodes.foldl (walkNode r elig) m).getLsbD way = false := by
  induction nodes generalizing m with
  | nil => exact hm
  | cons node nodes ih => exact ih (walkNode_without hm)

/-- The root splits the ways in two halves. -/
theorem root_sides : ∀ w < 14, BitVec.getLsbD (0x3FFF : BitVec 14) w = true ∧ (BitVec.getLsbD (0x3F00 : BitVec 14) w = !BitVec.getLsbD (0x00FF : BitVec 14) w) := by
  decide +kernel
theorem treeWalk_weak (r : BitVec 13) {way : Nat} (h : way < 14) : treeWalk (treePoint true way r) 0x3FFF = BitVec.ofNat 14 (2 ^ way) := by
  have inQuestion : (treeWalk (treePoint true way r) 0x3FFF).getLsbD way = true := walk_weak treeNodes (fun _ => id) (root_sides way h).1
  obtain ⟨w, hw, leaf⟩ := treeWalk_leaf (treePoint true way r) 0x3FFF
  rw [leaf, BitVec.getLsbD_ofNat, Nat.testBit_two_pow] at inQuestion
  simp at inQuestion
  rw [leaf, inQuestion.2]
/-- After a touch the node's bit points away from the way (R114). -/
theorem walkNode_touch {way : Nat} {r : BitVec 13} {m : BitVec 14} {node : Nat × BitVec 14 × BitVec 14} (h : node ∈ treeNodes)
    (here : m = node.2.1 ||| node.2.2) (sides : node.2.2.getLsbD way = !node.2.1.getLsbD way) :
    (walkNode (treePoint false way r) 0x3FFF m node).getLsbD way = false := by
  rw [here, walkNode_all h, treePoint_bit h]
  cases side : node.2.1.getLsbD way <;> simp_all
theorem treeNodes_root : treeNodes = (0, 0x00FF, 0x3F00) :: treeNodes.tail := rfl
theorem treeWalk_touch (r : BitVec 13) {way : Nat} (h : way < 14) : treeWalk (treePoint false way r) 0x3FFF ≠ BitVec.ofNat 14 (2 ^ way) := by
  have out : (treeWalk (treePoint false way r) 0x3FFF).getLsbD way = false := by
    rw [treeWalk_eq, treeNodes_root, List.foldl_cons]
    exact walk_without _ (walkNode_touch (treeNodes_root ▸ List.mem_cons_self) (by decide) (root_sides way h).2)
  intro same
  rw [same, BitVec.getLsbD_ofNat, Nat.testBit_two_pow_self, Bool.and_true, decide_eq_false_iff_not] at out
  exact out h

/-- DONE as the first instruction under the default image issues whatever the fetched word, and ends its event by the whole handler (log 6). -/
theorem exec_done_stands {sl : BitVec 3} {gd ra rb : BitVec 4} {imm : SWord} {e : SeqEv} {s u : State} (on : s.sliceOff = false)
    (run : (s.seq sl.toNat).run = some e) (guard : (s.seq sl.toNat).land.guard gd = true) (place : (s.seq sl.toNat).slot = false)
    (default : defaultOn s = true) (first : (s.seq sl.toNat).issued = 0)
    (effect : doneEffect sl.toNat ra rb imm (s.updSeq sl.toNat (Seq.issuing false)) = u) (free : (u.seq sl.toNat).run = none) :
    exec (.done sl gd ra rb imm) s = .next (rowEnd s u) := by
  have own : standsIn s sl.toNat ⟨0x38, true, false, 1⟩ = true := by simp [standsIn, default, first]
  have limit : ¬ evLimit e ≤ (s.seq sl.toNat).issued := by
    rw [first, evLimit]
    split <;> omega
  have slot : (s.seq sl.toNat).land.slot = false := (Seq.land_slot _).trans place
  unfold Seq.issuing at effect
  rw [exec_done]
  simp only [issue, run, on, limit, own, State.seq_updSeq, State.updSeq_updSeq, guard, slot, effect, free, decide_false, Bool.or_self, Bool.not_true,
    Bool.false_and, Bool.and_false, Bool.false_eq_true, if_false, if_true, Option.isNone_none]

/-- The default image's handler of a hit or a fill, where no load waits: the sequencer is free and the set's REPL is the updated tree. -/
theorem doneEffect_default {n : Nat} {ra rb : BitVec 4} {imm : SWord} {e : SeqEv} {s : State} (run : (s.seq n).run = some e)
    (default : defaultOn s = true) (first : (s.seq n).issued = 0) (update : e.kind = 1 ∨ e.kind = 2) (load : polCmd s = none) :
    doneEffect n ra rb imm (s.updSeq n (Seq.issuing false)) =
      putRepl n e.set (defaultRepl e.kind.toNat e.fillKind.toNat e.way.toNat ((NMap.get 0 (s.seq n).land.dmem 8).setWidth 13))
        (s.updSeq n (fun q => { q.land with lastIssue := q.land.clk, clk := q.land.clk + 4 }.ended)) := by
  have notVictim : e.kind ≠ 0 := by rcases update with h | h <;> rw [h] <;> decide
  have notInit : e.kind ≠ 4 := by rcases update with h | h <;> rw [h] <;> decide
  have running : (Seq.issuing false (s.seq n)).run = some e := (Seq.land_run _).trans run
  have one : (Seq.issuing false (s.seq n)).issued = 1 := by rw [Seq.issuing, Seq.land_issued, first]
  have on : defaultOn (s.updSeq n (Seq.issuing false)) = true := default
  simp only [doneEffect, State.seq_updSeq, running, on, one, decide_true, Bool.and_self, if_true, defaultHandler, notVictim, notInit, if_false,
    State.updSeq_updSeq]
  exact afterEvent_of_none notInit load

/-- Settles O25. -/
theorem defaultPolicyFollowsItsTree : Obligations.DefaultPolicyFollowsItsTree := by
  refine ⟨fun r el some => ?_, fun r w h => ⟨treeWalk_weak r h, treeWalk_touch r h⟩, fun sl gd ra rb imm e s on run guard place default first update load => ?_⟩
  · obtain ⟨w, hw, leaf⟩ := treeWalk_leaf r el
    have all : (0x3FFF : BitVec 14) = BitVec.allOnes 14 := by decide
    have eligible : treeWalk r el &&& el ≠ 0 := walk_eligible r el treeNodes (by rwa [all, BitVec.allOnes_and])
    exact ⟨w, hw, leaf, getLsbD_of_way (leaf ▸ eligible)⟩
  · refine exec_done_stands on run guard place default first (doneEffect_default run default first update load) ?_
    rw [putRepl_seq, State.seq_updSeq]
    rfl

end Sys2Proof.Machine
end

section
/-! What a row answers where its clock runs: the state its effect gives, settled. -/
namespace Sys2Proof.Machine

theorem next_clocked {s t u : State} (on : s.sliceOff = false) (effect : t = u) :
    (Host.Outcome.next (clocked s t) : Ans) = .next (rowEnd s u) := by rw [clocked_on on, effect]
theorem next_act {s t u : State} (on : s.off = false) (effect : t = u) : (Host.Outcome.next (act s t) : Ans) = .next (rowEnd s u) := by
  rw [act_on on, effect]

end Sys2Proof.Machine
end

section
/-! O26: the rows that start an event and end one past its limit or its deadline. -/
namespace Sys2Proof.Machine

/-- Settles O26: each clause is the row's branch for its state. -/
theorem sequencerEventsStartAndEnd : Obligations.SequencerEventsStartAndEnd := by
  intro sl s on
  refine ⟨?_, fun e run past => next_clocked on ?_, fun e run victim waits => next_clocked on ?_, fun v rest free queued => next_clocked on ?_⟩
  · intro e vq uq gone free next notInit f fr
    refine next_clocked on ?_
    simp only [free, next, Option.isSome_none, Bool.false_eq_true, if_false, notInit, ne_eq, not_true_eq_false]
    rfl
  · simp only [run, past, if_true]
  · simp only [run, victim, waits, decide_true, Bool.not_false, Bool.and_self, if_true]
  · simp only [free, queued]

end Sys2Proof.Machine
end

section
/-! O60: a query completes, and nothing else changes. -/
namespace Sys2Proof.Machine

/-- The two states differ in the control port alone, in its commands in progress and its staged events not even there, in what is sent and in the
number of free values drawn. -/
def Answers (s t : State) : Prop :=
  { t with cp := s.cp, out := s.out, free := s.free } = s ∧ t.cp.prog = s.cp.prog ∧ t.cp.staged = s.cp.staged

namespace Answers

theorem refl (s : State) : Answers s s := ⟨rfl, rfl, rfl⟩
theorem trans {s t u : State} (h : Answers s t) (h' : Answers t u) : Answers s u := by
  obtain ⟨rest, prog, staged⟩ := h
  obtain ⟨rest', prog', staged'⟩ := h'
  exact ⟨(congrArg (fun v : State => { v with cp := s.cp, out := s.out, free := s.free }) rest').trans rest, prog'.trans prog, staged'.trans staged⟩
theorem updQp (s : State) (n : Nat) (f : QP → QP) : Answers s (s.updQp n f) := ⟨rfl, rfl, rfl⟩
theorem undefEnds (n : BitVec 5) (s : State) : Answers s (undefEnds n s) := by
  unfold Machine.undefEnds
  dsimp only
  split <;> exact ⟨rfl, rfl, rfl⟩
theorem complete (p : Packet) (st : BitVec 16) (res : Nat) (s : State) : Answers s (complete p st res s) := by
  unfold Machine.complete
  split
  · exact (updQp s _ _).trans (undefEnds _ _)
  · exact refl s
theorem hostWrite (p : Packet) (addr : BitVec 64) (bytes : List Byte) (s : State) : Answers s (hostWrite p addr bytes s) := by
  unfold Machine.hostWrite
  split
  · exact refl s
  split <;> exact ⟨rfl, rfl, rfl⟩
theorem completeBlock (p : Packet) (bytes : List Byte) (st : BitVec 16) (res : Nat) (s : State) : Answers s (completeBlock p bytes st res s) := by
  unfold Machine.completeBlock
  split
  · exact (hostWrite p p.addr bytes s).trans (complete ..)
  · exact complete ..
theorem startTaken (op : Byte) (p : Packet) (s : State) : Answers s (startTaken op p s) := ⟨rfl, rfl, rfl⟩
theorem waitTaken (op : Byte) (p : Packet) (s : State) : Answers s (waitTaken op p s) := by
  unfold Machine.waitTaken
  split <;> exact ⟨rfl, rfl, rfl⟩

/-- A command whose effect only answers, and that no CTRL record shows (R484), only answers. -/
theorem cmd {op : Byte} {modes : List (BitVec 3)} {auth : Nat} {reads : Bool} {p : Packet} {chk : State → List (Bool × BitVec 16)}
    {body : State → State} (noRecord : ctrlOps.contains op = false) (h : ∀ t, Answers t (body t)) (s : State) :
    Answers s (cmd op modes auth reads p chk body s) := by
  unfold Machine.cmd
  split
  · exact refl s
  split
  · exact waitTaken op p s
  · refine (startTaken op p s).trans ?_
    dsimp only
    split
    · exact complete ..
    · rw [if_neg (by rw [noRecord]; exact Bool.false_ne_true)]
      exact h _

end Answers

/-- Settles O60: the effect of each query is a completion, with or without a block. -/
theorem queriesChangeOnlyTheControlPort : Obligations.QueriesChangeOnlyTheControlPort := by
  intro c s t query run
  cases c
  case identify | drainQuery | resetRecordQuery | regionQuery | partQuery | streamQuery | sealLogQuery | keyQuery | regCapacityQuery | errLogRead |
      retireQuery | freezeQuery | monQuery | recQuery | replayQuery | ageingQuery | thermalQuery | fwQuery =>
    cases run
    exact Answers.cmd (by decide) (fun _ => Answers.completeBlock ..) s
  case cacheQuery =>
    cases run
    exact Answers.cmd (by decide) (fun _ => Answers.complete ..) s
  case regionLookup =>
    cases run
    refine Answers.cmd (by decide) (fun _ => ?_) s
    dsimp only
    split <;> exact Answers.complete ..
  case configQuery =>
    cases run
    refine Answers.cmd (by decide) (fun u => ?_) s
    split
    · exact Answers.completeBlock ..
    · exact Answers.trans (t := { u with free := u.free + 64 }) ⟨rfl, rfl, rfl⟩ (Answers.completeBlock ..)
  all_goals cases query

end Sys2Proof.Machine
end

section
/-! O41: the temperature rows, and the AO block through a change of level. -/
namespace Sys2Proof.Machine

@[simp] theorem evOrder_ao (q : BitVec 32) (f : BitVec 15) (s : State) : (evOrder q f s).ao = s.ao := by
  unfold evOrder
  dsimp only
  split <;> rfl
@[simp] theorem rescale_ao (s : State) : (rescale s).1.ao = s.ao := by
  unfold rescale
  dsimp only
  split
  · rfl
  · exact foldl_part State.ao _ _ _ fun s e => postEvent_ao ..
@[simp] theorem recomputeRsv_ao (s : State) : (recomputeRsv s).ao = s.ao := by
  unfold recomputeRsv
  dsimp only
  exact foldl_part State.ao _ _ _ fun s w => by rw [apply_ite State.ao, postEvent_ao, ite_self]
@[simp] theorem recompute_ao (s : State) : (recompute s).ao = s.ao := by
  rw [recompute, apply_ite State.ao, recomputeRsv_ao, rescale_ao, ite_self]

/-- A change of level gives the level asked for. -/
theorem setLevel_level (n : Nat) (s : State) (h : n < 4) : (setLevel n s).ao.level.toNat = n := by
  unfold setLevel
  split
  · assumption
  · have level : (BitVec.ofNat 2 n).toNat = n := Nat.mod_eq_of_lt h
    dsimp only
    split
    · exact level
    · rw [evOrder_ao, recompute_ao, postEvent_ao]
      exact level
theorem levelFor_lt (s : State) (tj : Byte) : levelFor s tj < 4 := by
  unfold levelFor
  repeat' split
  all_goals decide

/-- The highest sensor. -/
def hottest (l : List Byte) (a : Byte) : Byte := l.foldl (fun a x => if a < x then x else a) a
theorem le_hottest (l : List Byte) (a : Byte) : a ≤ hottest l a ∧ ∀ x ∈ l, x ≤ hottest l a := by
  induction l generalizing a with
  | nil => exact ⟨BitVec.le_refl a, nofun⟩
  | cons y l ih =>
    obtain ⟨here, there⟩ := ih (if a < y then y else a)
    have both : a ≤ (if a < y then y else a) ∧ y ≤ if a < y then y else a := by
      split
      · next less => exact ⟨BitVec.le_of_lt less, BitVec.le_refl y⟩
      · next less => exact ⟨BitVec.le_refl a, BitVec.not_lt.mp less⟩
    refine ⟨BitVec.le_trans both.1 here, fun x hx => ?_⟩
    rcases List.mem_cons.mp hx with rfl | hx
    · exact BitVec.le_trans both.2 here
    · exact there x hx

/-- Settles O41. -/
theorem thermalRowsMoveTheLevel : Obligations.ThermalRowsMoveTheLevel := by
  intro s on up
  have row (temps : List Byte) : exec (.thermalSample temps) s = .next (rowEnd s (sample temps s)) := by
    refine congrArg Host.Outcome.next (show (if !s.ao.up then s else if s.off then sample temps s else rowEnd s (sample temps s)) = _ from ?_)
    simp only [up, on, Bool.not_true, Bool.false_eq_true, if_false]
  refine ⟨?_, fun above cool => ?_, ?_⟩
  · intro temps l tj t u
    have level : u.ao.level.toNat = max t.ao.level.toNat (levelFor t tj) :=
      setLevel_level _ _ (Nat.max_lt.mpr ⟨t.ao.level.isLt, levelFor_lt t tj⟩)
    refine ⟨(le_hottest l 0).2, ?_, fun safe below => ?_, fun hot => ?_, fun safe above before => ?_⟩
    · rw [BitVec.le_def, level]
      exact Nat.le_max_left ..
    all_goals rw [row]; refine congrArg (fun t => Host.Outcome.next (rowEnd s t)) ?_
    · have notCritical : reaches tj 150 = false := decide_eq_false (by omega)
      have noTrip : reaches tj (thermC s 32) = false := decide_eq_false (by omega)
      show (if reaches tj 150 then shutDown u else if reaches tj (thermC s 32) && _ then trip u else u) = u
      rw [notCritical, noTrip]
      rfl
    · have critical : reaches tj 150 = true := decide_eq_true (by omega)
      show (if reaches tj 150 then shutDown u else _) = shutDown u
      rw [critical]
      rfl
    · have notCritical : reaches tj 150 = false := decide_eq_false (by omega)
      have trips : reaches tj (thermC s 32) = true := decide_eq_true (by omega)
      have fresh : reaches s.ao.tj (thermC s 32) = false := decide_eq_false (by omega)
      show (if reaches tj 150 then shutDown u else if reaches tj (thermC s 32) && (!reaches s.ao.tj (thermC s 32) || _) then trip u else u) = trip u
      rw [notCritical, trips, fresh]
      rfl
  · have : s.ao.level.toNat ≠ 0 := fun h => above (BitVec.eq_of_toNat_eq h)
    show (Host.Outcome.next (if s.ao.level.toNat ≠ 0 && decide _ then _ else _) : Ans) = _
    rw [decide_eq_true this, decide_eq_true cool]
    rfl
  · show (Host.Outcome.next (if s.ao.up then shutDown s else s) : Ans) = _
    rw [up]
    rfl

end Sys2Proof.Machine
end

section
/-! O40: the phases of the global persistent flush. -/
namespace Sys2Proof.Machine

/-- What a timeout of phase 1 has made of the ports it has passed: those awaited still, those recorded, and whether the phase has ended. -/
structure GpfLeft where
  wait : BitVec 4
  failed : BitVec 4
  ended : Bool
deriving DecidableEq
/-- The next port of the timeout (R330). -/
def GpfLeft.next (x : GpfLeft) (f : Nat) : GpfLeft :=
  if x.ended || !bit x.wait f then x
  else
    let b := BitVec.ofNat 4 (2 ^ f)
    ⟨x.wait &&& ~~~b, x.failed ||| b, decide (x.wait &&& ~~~b = 0)⟩
/-- A state in step 7 of the drain, or just past it, as the timeout has left it. -/
def GpfLeft.Holds (x : GpfLeft) (s : State) : Prop :=
  s.drain.gpfWait = x.wait ∧ s.ao.rep.gpfFailed = x.failed ∧
    if x.ended then s.drain.step = 8 ∧ s.ao.rep.step = 7 else s.drain.step = 7
theorem GpfLeft.Holds.next {x : GpfLeft} {s : State} (h : x.Holds s) (f : Nat) : (x.next f).Holds (gpfAnswer 1 f false s) := by
  obtain ⟨wait, failed, ended⟩ := x
  obtain ⟨rfl, rfl, phase⟩ := h
  cases ended with
  | true =>
    have past : (decide (s.drain.step ≠ 6 + 1) || !bit s.drain.gpfWait f) = true := by
      rw [decide_eq_true (by rw [phase.1]; decide), Bool.true_or]
    rw [gpfAnswer, if_pos past]
    exact ⟨rfl, rfl, phase⟩
  | false =>
    have step : decide (s.drain.step ≠ 6 + 1) = false := decide_eq_false (not_not_intro phase)
    unfold gpfAnswer GpfLeft.next
    rw [step, Bool.false_or]
    split
    · exact ⟨rfl, rfl, phase⟩
    · dsimp only [gpfEnd]
      by_cases last : s.drain.gpfWait &&& ~~~(BitVec.ofNat 4 (2 ^ f)) = 0
      · rw [if_neg (not_not_intro last), decide_eq_true last]
        exact ⟨rfl, rfl, congrArg (· + 1) phase, congrArg (BitVec.ofNat 8) phase⟩
      · rw [if_pos last, decide_eq_false last]
        exact ⟨rfl, rfl, phase⟩
theorem GpfLeft.Holds.foldl {x : GpfLeft} {s : State} (h : x.Holds s) (l : List Nat) :
    (l.foldl GpfLeft.next x).Holds (l.foldl (fun s f => gpfAnswer 1 f false s) s) := by
  induction l generalizing x s with
  | nil => exact h
  | cons f l ih => exact ih (h.next f)
/-- The four ports passed, every port awaited is recorded. -/
theorem GpfLeft.all : ∀ w failed : BitVec 4, w ≠ 0 → (List.range 4).foldl GpfLeft.next ⟨w, failed, false⟩ = ⟨0, failed ||| w, true⟩ := by
  decide +kernel

/-- Settles O40. -/
theorem gpfPhasesEndWithEveryAnswer : Obligations.GpfPhasesEndWithEveryAnswer := by
  intro fp ok s on sent b got
  have send (ph : Nat) (step : s.drain.step = 6 + ph) (idle : s.drain.gpfWait = 0) : (Host.Outcome.next (act s (gpfSend ph s)) : Ans) = .next (sent ph) :=
    next_act on (by simp only [gpfSend, step, idle, ne_eq, not_true_eq_false, decide_false, Bool.or_self, Bool.false_eq_true, if_false])
  have answer (ph : Nat) (ok : Bool) (step : s.drain.step = 6 + ph) (awaited : bit s.drain.gpfWait fp.toNat = true) :
      (Host.Outcome.next (act s (gpfAnswer ph fp.toNat ok s)) : Ans) = .next (got ok) :=
    next_act on (by simp only [gpfAnswer, step, awaited, ne_eq, not_true_eq_false, decide_false, Bool.not_true, Bool.or_self, Bool.false_eq_true, if_false]; rfl)
  refine ⟨send 1, send 2, answer 1 ok, answer 2 ok, answer 2 false, fun step awaited => ⟨_, next_act on rfl, ?_⟩⟩
  have all : GpfLeft.Holds ⟨s.drain.gpfWait, s.ao.rep.gpfFailed, false⟩ s := ⟨rfl, rfl, step⟩
  obtain ⟨wait, failed, past, report⟩ := GpfLeft.all _ _ awaited ▸ all.foldl (List.range 4)
  exact ⟨wait, past, report, failed⟩

end Sys2Proof.Machine
end

section
/-! O38, O39, O42: the rows of regulation, of the drain and of ageing. -/
namespace Sys2Proof.Machine

/-- Settles O38: each clause is the row's branch for its state. -/
theorem regulationRowsCountAndReturn : Obligations.RegulationRowsCountAndReturn := by
  intro s on
  refine ⟨fun port k some enough isOpen may => next_act on ?_, next_act on rfl, fun enabled => next_act on ?_⟩
  · simp only [creditReturn, some, Nat.not_lt.mpr enough, isOpen, may, decide_false, Bool.not_true, Bool.or_self, Bool.false_eq_true, if_false]
  · have guards : (decide (s.mode = 2) || decide (s.mode = 3)) = true := by simpa using enabled
    simp only [windowEnd, guards, if_true, List.isEmpty_iff]

theorem mode_ne_zero {s : State} (on : s.off = false) : s.mode ≠ 0 := by
  intro h
  simp [State.off, h] at on

/-- In a working mode a cause of a drain starts one (R326). -/
theorem drainCause_working {s : State} (cause why : Nat) (working : s.mode = 2 ∨ s.mode = 3 ∨ s.mode = 4) :
    drainCause cause why s = drainEnter cause why s := by
  have others : s.mode ≠ 1 ∧ s.mode ≠ 5 ∧ s.mode ≠ 0 := by rcases working with h | h | h <;> rw [h] <;> decide
  rw [drainCause, if_neg others.1, if_neg others.2.1, if_neg others.2.2]

/-- Settles O39: each clause is the row's branch for its state. -/
theorem drainRowsActInTheirStep : Obligations.DrainRowsActInTheirStep := by
  intro s on
  refine ⟨fun watched working => ?_, fun watched draining open_ => ?_, fun watched idle => ?_, fun step => next_act on (if_pos step),
    fun step formed => next_act on ?_, fun step man none => next_act on ?_, fun e set w step more found => next_act on ?_, fun step undone => next_act on ?_⟩
  · have drains : drainCause 0 3 { s with ao.pfwHigh := false } = drainEnter 0 3 { s with ao.pfwHigh := false } := drainCause_working 0 3 working
    change Host.Outcome.next (if (!bit s.pfwCfg 8) = true then s else _) = _
    rw [watched, if_neg (by decide)]
    exact next_act (s := { s with ao.pfwHigh := false }) on drains
  · change Host.Outcome.next (if (!bit s.pfwCfg 8) = true then s else if (decide (s.mode = 5) && !s.ao.drainDone) = true then _ else _) = _
    rw [watched, draining, open_, if_neg (by decide), if_pos (by decide)]
  · change Host.Outcome.next (if (!bit s.pfwCfg 8) = true then s else if (decide (s.mode = 5) && !s.ao.drainDone) = true then _ else _) = _
    rw [watched, decide_eq_false idle, if_neg (by decide), if_neg (by simp)]
  · have go : s.drain.streams.filter (fun k => !(s.ctx k).inFlight || decide ((s.ctx k).state = 0)) = s.drain.streams :=
      List.filter_eq_self.mpr fun k mem => by simp [formed k mem]
    have held : s.drain.streams.filter (fun k => (s.ctx k).inFlight && heldRecord s k) = [] :=
      List.filter_eq_nil_iff.mpr fun k mem => by simp [formed k mem]
    have left : s.drain.streams.filter (fun k => !s.drain.streams.contains k && !([] : List Nat).contains k) = [] :=
      List.filter_eq_nil_iff.mpr fun k mem => by simp [mem]
    simp only [go, held, step, left, ne_eq, not_true_eq_false, if_false, List.isEmpty_nil, if_true]
  · simp only [step, man, none, ne_eq, not_true_eq_false, decide_false, List.isEmpty_nil, Bool.not_true, Bool.or_self, Bool.false_eq_true, if_false]
  · have goes : ¬(decide (s.drain.step ≠ 6) || decide (s.drain.extra = 0)) = true := by simp [step, more]
    rw [if_neg goes]
    simp only [found]
  · simp only [step, undone, decide_true, Bool.not_false, Bool.and_self, if_true]

/-- Settles O42: each clause is the row's branch for its state. -/
theorem ageingRowsFollowThePlan : Obligations.AgeingRowsFollowThePlan := by
  intro s on
  have running : s.mode ≠ 0 := mode_ne_zero on
  refine ⟨?_, ?_, fun m measures => next_act on (if_pos measures), fun rises => next_act on (if_pos rises),
    fun fw level => ⟨fun up => next_act on ?_, fun down => next_act on ?_⟩, fun ch eye trained isChannel => ?_⟩
  · have passes : s.ao.hours.toNat / 1000 < (s.ao.hours.toNat / 1000 + 1) * 1000 / 1000 := by
      rw [Nat.mul_div_cancel _ (by decide)]
      exact Nat.lt_succ_self _
    change Host.Outcome.next (if s.mode = 0 then s else live s (if _ < _ then _ else _)) = _
    rw [if_neg running, live_on on]
    exact congrArg Host.Outcome.next (if_pos passes)
  · change Host.Outcome.next (if s.mode = 0 then s else live s _) = _
    rw [if_neg running, live_on on]
    rfl
  · have moves : (!s.boot.fwRun || decide (s.age.bin < s.age.binPlan) || decide (s.age.vid = s.age.vidPlan)) = false := by simp [fw, level, Nat.ne_of_lt up]
    simp only [moves, up, Bool.false_eq_true, if_false, if_true]
  · have moves : (!s.boot.fwRun || decide (s.age.bin < s.age.binPlan) || decide (s.age.vid = s.age.vidPlan)) = false := by simp [fw, level, Nat.ne_of_gt down]
    simp only [moves, Nat.not_lt_of_gt down, Bool.false_eq_true, if_false]
  · have found : (s.cache.trained && decide (ch.toNat < s.channels + s.cache.quar.length)) = true := by simp [trained, isChannel]
    change Host.Outcome.next (live s (if _ = true then _ else s)) = _
    rw [live_on on, if_pos found]

end Sys2Proof.Machine
end

section
/-! O33, O34, O35: lookups and resumptions of a slice, completions and timeouts, prefetch candidates. -/
namespace Sys2Proof.Machine

theorem State.updSlice_updSlice (s : State) (n : Nat) (f g : Slice → Slice) : (s.updSlice n f).updSlice n g = s.updSlice n (fun h => g (f h)) :=
  congrArg (fun m => { s with slices := m }) (NMap.upd_upd Slice.init s.slices n f g)

/-- The request of the next port in turn, unless it would find the line-conflict queue full (R75, R213). -/
theorem nextReq_of_turn {s : State} {n p : Nat} {i : SliceIn}
    (turn : ((List.range 12).map (fun k => ((s.slice n).rr + 1 + k) % 12)).find? (fun p => (s.slice n).inq.any (fun i => i.port = p)) = some p)
    (oldest : (s.slice n).inq.find? (fun i => i.port = p) = some i) :
    nextReq s n = if (s.slice n).lineQ.length < 2048 ∨ stopsAt2 s n i = false then some i else none := by
  simp only [nextReq, turn, oldest, Option.filter_some, Bool.or_eq_true, decide_eq_true_eq, Bool.not_eq_true']

theorem nextReq_of_empty {s : State} {n : Nat} (empty : (s.slice n).inq = []) : nextReq s n = none := by
  have nobody : ((List.range 12).map (fun k => ((s.slice n).rr + 1 + k) % 12)).find? (fun p => (s.slice n).inq.any (fun i => i.port = p)) = none :=
    List.find?_eq_none.mpr fun p _ => by simp [empty]
  simp only [nextReq, nobody]

/-- The row of a queue whose oldest ready entry is there acts on it; stated over the search's result, so that the search itself is compared as it
stands on either side. -/
theorem resume_some {s : State} {found : Option Nat} {id : Nat} (effect : Nat → State) : found = some id →
    (match found with
      | none => s
      | some id => effect id) = effect id := by
  rintro rfl
  rfl

/-- Settles O33: each clause is the row's branch for its state. -/
theorem sliceRowsServeTheirQueues : Obligations.SliceRowsServeTheirQueues := by
  intro sl s on
  refine ⟨?_, fun f due => next_clocked on (if_pos due), fun f idle empty => next_clocked on ?_, fun q i head plain closed ready => next_clocked on ?_,
    fun id first => next_clocked on ?_, fun replays id e => ⟨next_clocked on ?_, next_clocked on ?_⟩, fun runs id e m issued => ?_, fun runs id m issued => next_clocked on ?_⟩
  · intro f p i turn oldest u idle
    have next := nextReq_of_turn turn oldest
    refine ⟨fun full stops => next_clocked on ?_, fun takes => next_clocked on ?_⟩
    · have stays : ¬((s.slice sl.toNat).lineQ.length < 2048 ∨ stopsAt2 s sl.toNat i = false) := by simp [stops, full]
      rw [if_neg stays] at next
      simp only [idle, Bool.false_eq_true, if_false, next]
    · rw [if_pos takes] at next
      have port : i.port = p := by simpa using List.find?_some oldest
      have taken : arbTick sl.toNat (s.updSlice sl.toNat (fun h => { h with inq := h.inq.erase i, rr := i.port })) = u := by
        rw [port]
        exact State.updSlice_updSlice ..
      simp only [idle, Bool.false_eq_true, if_false, next]
      rw [taken, apply_ite (capLookup sl.toNat i)]
  · simp only [idle, Bool.false_eq_true, if_false, nextReq_of_empty empty]
  · simp only [head, plain, Option.isSome_none, closed, ready, Bool.not_true, Bool.or_self, Bool.false_eq_true, if_false]
  · exact resume_some (fun id => run sl.toNat id (updTxn sl.toNat id (fun u => { u with ph := .start, queued := false })
      (s.updSlice sl.toNat (fun h => { h with setQ := h.setQ.erase id })))) first
  · have nothing : s.cache.mc.find? (fun m => s.mode ≠ 4 && m.id = id && m.kind ≠ .accept) = none :=
      List.find?_eq_none.mpr fun m _ => by simp [replays]
    simp only [nothing]
  · have nothing : s.cache.mc.find? (fun m => s.mode ≠ 4 && m.id = id && m.kind = .accept) = none :=
      List.find?_eq_none.mpr fun m _ => by simp [replays]
    simp only [nothing]
  · have found : s.cache.mc.find? (fun m => s.mode ≠ 4 && m.id = id && m.kind ≠ .accept) = some m := by
      simpa only [runs, ne_eq, not_false_eq_true, decide_true, Bool.true_and] using issued
    refine ⟨fun kind => next_clocked on ?_, fun w t kind txn reads => next_clocked on ?_, fun l w kind => next_clocked on ?_⟩
    · simp only [found, kind]
    · simp only [found, kind, txn, Option.filter_some, reads, decide_true, if_true]
    · simp only [found, kind]
  · have found : s.cache.mc.find? (fun m => s.mode ≠ 4 && m.id = id && m.kind = .accept) = some m := by
      simpa only [runs, ne_eq, not_false_eq_true, decide_true, Bool.true_and] using issued
    simp only [found]

/-- Settles O34: each clause is the row's branch for its state. -/
theorem completionsAndTimeoutsEndWhatTheyAreFor : Obligations.CompletionsAndTimeoutsEndWhatTheyAreFor := by
  intro s on
  refine ⟨fun id d psn q runs issued => ⟨next_act on ?_, next_act on ?_⟩, fun id q runs issued => ⟨next_act on ?_, next_act on ?_⟩,
    fun id r gone late => next_act on ?_, fun id q runs issued => next_act on ?_, fun port line waits => next_act on (if_pos waits),
    fun line t offered clocked => next_clocked clocked ?_, fun line clocked => next_clocked clocked rfl, fun fp rate width isPort => ?_,
    fun ch mult isMult isChannel => next_act on ?_⟩
  · simp only [runs, issued, if_false]
  · simp only [runs, issued, if_false]
  · simp only [runs, issued, if_false, if_true]
  · simp only [runs, issued, if_false, Bool.false_eq_true]
  · simp only [gone, ite_self, farLate, late, if_true]
  · simp only [runs, issued, if_false]
  · simp only [offered]
  · have inRange : ¬s.nFar ≤ fp.toNat := Nat.not_le.mpr isPort
    refine ⟨next_act on ?_, fun may => next_act on ?_, fun up => next_act on ?_⟩
    · simp [inRange]
    · have capped : (!(s.farP fp.toNat).up && decide ((s.farP fp.toNat).rateCap.toNat < rate.toNat)) = false := by
        rcases may with up | low
        · rw [up]; rfl
        · rw [decide_eq_false (Nat.not_lt.mpr low), Bool.and_false]
      simp [inRange, capped]
    · simp [inRange, up]
  · have goes : ((decide (mult = 1) || decide (mult = 2) || decide (mult = 4)) && decide (ch.toNat < s.nChan)) = true := by simpa [isChannel, or_assoc] using isMult
    rw [if_pos goes]

/-- A candidate as it meets its slice: the monitor counts its lookup, its directory set is read (R116, R121). -/
def candMet (l : LineNo) (p cls : Nat) (s : State) : State := dirMeet p l (monSys 1 1 ⟨none, some l, some cls, none⟩ s)
theorem candidate_dropped {kind : TK} {l : LineNo} {i p cls : Nat} {s : State} (drop : candDropped (candMet l p cls s) kind l i p cls = true) :
    candidate kind l i p cls s = cntPf (if kind = .stream then 5 else 1) 1 (candMet l p cls s) := if_pos drop

/-- Settles O35: each clause is the row's branch for its state. -/
theorem prefetchRowsIssueTheOldestCandidate : Obligations.PrefetchRowsIssueTheOldestCandidate := by
  intro s on
  refine ⟨fun sl waits => next_clocked on ?_, fun port replays => next_clocked on ?_, fun port l i rest cand behind => next_clocked on ?_, ?_, ?_, next_clocked on rfl⟩
  · have held : (s.quiescing || decide (s.mode = 4) || walkDue s sl.toNat || (nextReq s sl.toNat).isSome) = true := by
      simpa [or_assoc, Option.isSome_iff_ne_none] using Or.inr waits
    rw [if_pos held]
  · have held : (s.quiescing || decide (s.mode = 4)) = true := by simp [replays]
    rw [if_pos held]
  · have held : (walkDue s (homeSlice l) || (nextReq s (homeSlice l)).isSome) = true := by
      simpa [Option.isSome_iff_ne_none] using behind
    by_cases stops : (s.quiescing || decide (s.mode = 4)) = true
    · rw [if_pos stops]
    · rw [if_neg stops]
      simp only [cand, if_pos held]
  · intro sl l i p c rest runs mode idle empty oldest u v
    have goes : (s.quiescing || decide (s.mode = 4) || walkDue s sl.toNat || (nextReq s sl.toNat).isSome) = false := by
      rw [runs, decide_eq_false mode, idle, empty]; rfl
    have ticked : arbTick sl.toNat (s.updSlice sl.toNat (fun h => { h with nl := rest })) =
        s.updSlice sl.toNat (fun h => { h with nl := rest, walkClk := min 8 (h.walkClk + 1) }) := State.updSlice_updSlice ..
    refine ⟨fun drop => next_clocked on ?_, fun keep => next_clocked on ?_⟩
    · simp only [goes, Bool.false_eq_true, if_false, oldest, ticked]
      exact candidate_dropped (kind := .nextLine) drop
    · simp only [goes, Bool.false_eq_true, if_false, oldest, ticked]
      rfl
  · intro port l i rest runs mode cand idle empty u v
    have goes : (s.quiescing || decide (s.mode = 4)) = false := by
      rw [runs, decide_eq_false mode]; rfl
    have first : (walkDue s (homeSlice l) || (nextReq s (homeSlice l)).isSome) = false := by simp [idle, empty]
    refine ⟨fun drop => next_clocked on ?_, fun keep => next_clocked on ?_⟩
    · simp only [goes, Bool.false_eq_true, if_false, cand, first]
      exact candidate_dropped (kind := .stream) drop
    · simp only [goes, Bool.false_eq_true, if_false, cand, first]
      rfl

end Sys2Proof.Machine
end

section
/-! O36: the visits of walks, of the patrol and of the recovery. -/
namespace Sys2Proof.Machine

section
variable {sl : Nat} {e : ErrPat} {f : DirFault} {s : State} {k : Walk} {i : SliceIn}
/-- The running walk's line in a slice, where one is ready, is what a visit acts on (R101). -/
theorem walkVisit_of_ready (walk : s.walk = some k) (again : nextAgain s sl = none) (ready : walkReady s sl k.cmd = some i) :
    walkVisit sl e f s = walkAct sl k i e f s := by
  simp only [walkVisit, again, walk, ready]
/-- Where none is ready the walk's next line enters the queue, -/
theorem walkVisit_of_entry (runs : s.quiescing = false) (walk : s.walk = some k) (again : nextAgain s sl = none) (waits : walkReady s sl k.cmd = none)
    (rests : walkReady (walkEnter sl k s) sl k.cmd = none) : walkVisit sl e f s = walkEnter sl k s := by
  simp only [walkVisit, again, walk, waits, runs, rests, Bool.false_eq_true, if_false]
/-- and acts where it may act at once. -/
theorem walkVisit_of_entry_ready (runs : s.quiescing = false) (walk : s.walk = some k) (again : nextAgain s sl = none)
    (waits : walkReady s sl k.cmd = none) (ready : walkReady (walkEnter sl k s) sl k.cmd = some i) :
    walkVisit sl e f s = walkAct sl k i e f (walkEnter sl k s) := by
  simp only [walkVisit, again, walk, waits, runs, ready, Bool.false_eq_true, if_false]
/-- The place that may enter: the queue has room for it, and no fill has reserved its way (R95, R213). -/
theorem walkLineIn_of_room {x : Nat} (next : walkNext s k sl = some x) (room : (s.slice sl).lineQ.length + (s.slice sl).inq.length < 2048)
    (free : k.byset = true → ((s.slice sl).resv s (x / 16)).testBit (x % 16) = false) : walkLineIn s sl k = some x := by
  have enters : (k.byset && ((s.slice sl).resv s (x / 16)).testBit (x % 16)) = false := by
    cases form : k.byset with
    | false => rfl
    | true => exact free form
  simp only [walkLineIn, next, Option.filter_some, enters, Bool.or_false, decide_eq_false (Nat.not_le.mpr room), Bool.not_false, if_true]
end

/-- A walk's line has read its directory set (R101). -/
def walkMet (l : LineNo) (f : DirFault) (s : State) : State := dirFix l (dirMeet 20 l (dirUpset l f s))
/-- The recall a walk's line makes first (R196). -/
def walkSnoops (k : Walk) (l : LineNo) (s : State) : List (Nat × Byte) := if k.recl then reclSnoops s k.op l else []

section
variable {sl : Nat} {e : ErrPat} {f : DirFault} {s : State} {k : Walk} {i : SliceIn} {v : State}
theorem walkAct_recalls (met : walkMet (Hd.line i.h) f s = v) (some : walkSnoops k (Hd.line i.h) v ≠ []) :
    walkAct sl k i e f s = reclTxn sl (Hd.line i.h) (walkSnoops k (Hd.line i.h) v) false (updWalk k.cmd (fun k => { k with recs := k.recs ++ [v.nextId] }) v) := by
  have recalls : (!(walkSnoops k (Hd.line i.h) v).isEmpty) = true := by simpa [List.isEmpty_iff] using some
  subst met
  exact if_pos recalls
/-- A walk's line that recalls nothing, has no combining line and needs no tag block acts at its place. -/
theorem walkAct_acts (met : walkMet (Hd.line i.h) f s = v) (nothing : walkSnoops k (Hd.line i.h) v = []) (comb : v.combOf sl (Hd.line i.h) = none)
    (look : v.cache.enabled = false ∨ ∃ set w, walkPlace v k i = some (set, w) ∧ (v.slice sl).lostSets.contains set = false ∧ (v.tbcOf set).valid = true) :
    walkAct sl k i e f s = visitEnt sl (Hd.line i.h) i.ent (match walkPlace (v.updSlice sl (fun h => { h with lineQ := h.lineQ.erase i })) k i with
      | some (set, w) => visitWay sl k set w e (v.updSlice sl (fun h => { h with lineQ := h.lineQ.erase i }))
      | none => if k.op = 0x22 then v.updSlice sl (fun h => { h with lineQ := h.lineQ.erase i })
        else sbDiscard sl (Hd.line i.h) (v.updSlice sl (fun h => { h with lineQ := h.lineQ.erase i }))) := by
  have recalls : (!(walkSnoops k (Hd.line i.h) v).isEmpty) = false := by rw [nothing]; rfl
  subst met
  refine (if_neg (ne_true_of_eq_false recalls)).trans ?_
  simp only [walkMet] at comb look ⊢
  simp only [comb]
  generalize dirFix (Hd.line i.h) (dirMeet 20 (Hd.line i.h) (dirUpset (Hd.line i.h) f s)) = v at *
  rcases look with off | ⟨set, w, place, found, valid⟩
  · simp only [off, Bool.false_and, Bool.false_eq_true, if_false] <;> rfl
  · simp only [place, found, valid, Bool.and_false, Bool.not_true, Bool.false_eq_true, if_false] <;> rfl
end
/-- The patrol visits a set in service (R377). -/
theorem patrol_of_due {set : Nat} {te : ErrPat} {le : List (Nat × ErrPat)} {s : State} (mode : s.mode = 3) (runs : s.quiescing = false)
    (scrub : s.err.scrub ≠ 0) (isSet : set < s.nSets) (used : s.retired set = false) (found : (s.slice (set % 8)).lostSets.contains set = false) :
    patrol set te le s = patrolSet set te le (patrolAt (set + 1) (patrolAt (capWalk 0x78 (set % 8) 0 0 set 0 s).cache.patrol (capWalk 0x78 (set % 8) 0 0 set 0 s))) := by
  have goes : (decide (s.mode ≠ 3) || s.quiescing || decide (s.err.scrub = 0) || decide (s.nSets ≤ set) || s.retired set ||
      (s.slice (set % 8)).lostSets.contains set) = false := by
    rw [mode, runs, decide_eq_false scrub, decide_eq_false (Nat.not_le.mpr isSet), used, found]
    rfl
  exact if_neg (ne_true_of_eq_false goes)
theorem patrolSet_undecodable {set : Nat} {te : ErrPat} {le : List (Nat × ErrPat)} {s : State} (bad : tbDecode (s.rowTb set) te = none) :
    patrolSet set te le s = setLost set (burstsNow 2 set 14 (s.wayLine set 0) (decStat (tbDecode (s.rowTb set) te)) s) := by
  simp only [patrolSet, bad]
theorem patrolSet_clean {set : Nat} {te : ErrPat} {le : List (Nat × ErrPat)} {s : State} {b : TagBlock} (clean : tbDecode (s.rowTb set) te = some (b, 0))
    (ok : fmtOk b = true) :
    patrolSet set te le s = patrolLines set le (burstsNow 2 set 14 (s.wayLine set 0) (decStat (tbDecode (s.rowTb set) te)) s) := by
  simp only [patrolSet, clean, ok, Bool.not_true, Bool.false_eq_true, if_false, if_true]

/-- Settles O36: each clause is the row's branch for its state. -/
theorem walkRowsVisitTheirNextPlace : Obligations.WalkRowsVisitTheirNextPlace := by
  intro s on
  refine ⟨fun sl e f k x again => next_clocked on ?_, ?_, ?_, fun sl f d walk => next_clocked on rfl, ?_,
    fun sl f b l rest bad left free => next_clocked on rfl, fun set e lost => next_clocked on (if_pos lost)⟩
  · simp only [walkVisit, again]
  · intro sl e f k i walk again ready n l v sn u
    have acts := walkVisit_of_ready (e := e) (f := f) walk again ready
    have met : walkMet l f s = v := rfl
    have snoops : walkSnoops k l v = sn := rfl
    clear_value sn v
    subst snoops
    refine ⟨fun recalls => next_clocked on (acts.trans (walkAct_recalls met recalls)), fun nothing comb off => ?_, fun set w nothing comb place found valid there => ?_⟩
    · have act := walkAct_acts (e := e) met nothing comb (.inl off)
      refine ⟨fun set w there => next_clocked on ((acts.trans act).trans ?_), fun gone => next_clocked on ((acts.trans act).trans ?_)⟩
      · exact congrArg (visitEnt n l i.ent) (by simp only [u, n] at there ⊢; simp only [there])
      · exact congrArg (visitEnt n l i.ent) (by simp only [u, n] at gone; simp only [u, n, l, gone])
    · have act := walkAct_acts (e := e) met nothing comb (.inr ⟨set, w, place, found, valid⟩)
      exact next_clocked on ((acts.trans act).trans (congrArg (visitEnt n l i.ent) (by simp only [u, n] at there ⊢; simp only [there])))
  · intro sl e f k x runs walk again waits next room free n l j c u
    have entered : walkEnter n k s = u := by
      have enters : walkLineIn s n k = some x := walkLineIn_of_room next room free
      simp only [walkEnter, enters]
      rfl
    exact ⟨fun rests => next_clocked on ((walkVisit_of_entry runs walk again waits (entered ▸ rests)).trans entered),
      fun i ready => next_clocked on ((walkVisit_of_entry_ready runs walk again waits (entered ▸ ready)).trans (entered ▸ rfl))⟩
  · intro set te le mode runs scrub isSet used found n c v r u
    have visits := patrol_of_due (te := te) (le := le) mode runs scrub isSet used found
    exact ⟨fun bad => next_clocked on (visits.trans (patrolSet_undecodable bad)), fun b clean ok => next_clocked on (visits.trans (patrolSet_clean clean ok))⟩

end Sys2Proof.Machine
end

section
/-! O31, O32: LINK messages, the timers of a link, and flits. -/
namespace Sys2Proof.Machine

section
variable {p : Nat} {h : Slot} {s : State}
/-- An LInitParam, which has no reserved bit (R175). -/
theorem linkIn_param (op : Hd.op h = 0xF0) : linkIn p h s = paramIn p h s := by
  simp [linkIn, linkRsv, op]
theorem linkIn_ack (op : Hd.op h = 0xF1) (ok : nbits h 127 16 = 0) : linkIn p h s = initAckIn p h s := by
  simp [linkIn, linkRsv, op, ok]
theorem linkIn_ack_bad (op : Hd.op h = 0xF1) (bad : nbits h 127 16 ≠ 0) (heard : (s.port p).link = 2 ∨ ((s.port p).open_ = true ∧ (s.port p).inRec = false)) :
    linkIn p h s = resetDone p (badAnswer p 3 h s) := by
  have met : (linkRsv h && ((s.port p).open_ && !(s.port p).inRec || decide (Hd.op h = 0xF1 ∧ (s.port p).link = 2))) = true := by
    rcases heard with init | ⟨isOpen, up⟩ <;> simp [linkRsv, *]
  exact if_pos met
theorem linkIn_retry (op : Hd.op h = 0xF2) (ok : nbits h 127 24 = 0) (isOpen : (s.port p).open_ = true) (up : (s.port p).inRec = false) :
    linkIn p h s = retryIn p h s := by
  simp [linkIn, linkRsv, op, ok, isOpen, up]
theorem linkIn_retry_bad (op : Hd.op h = 0xF2) (bad : nbits h 127 24 ≠ 0) (isOpen : (s.port p).open_ = true) (up : (s.port p).inRec = false) :
    linkIn p h s = resetDone p (badAnswer p 3 h s) := by
  have met : (linkRsv h && ((s.port p).open_ && !(s.port p).inRec || decide (Hd.op h = 0xF1 ∧ (s.port p).link = 2))) = true := by
    simp [linkRsv, *]
  exact if_pos met
end

/-- Settles O31: each clause is the row's branch for its state. -/
theorem linkMessagesAndTimersTakeTheirEffect : Obligations.LinkMessagesAndTimersTakeTheirEffect := by
  intro port h rate width s on p q par ack e got cr ackOk reqOk
  have opPar : Hd.op par = 0xF0 := hd_op h 0xF0 (by decide)
  have opAck : Hd.op (putBits h 0 8 0xF1) = 0xF1 := hd_op h 0xF1 (by decide)
  have opReq : Hd.op (putBits h 0 8 0xF2) = 0xF2 := hd_op h 0xF2 (by decide)
  have param : exec (.lInitParam port h) s = .next (act s (paramIn p par s)) := congrArg (fun t => Host.Outcome.next (act s t)) (linkIn_param opPar)
  have acked (ok : ackOk) : exec (.lInitAck port h) s = .next (act s (initAckIn p (putBits h 0 8 0xF1) s)) :=
    congrArg (fun t => Host.Outcome.next (act s t)) (linkIn_ack opAck ok)
  refine ⟨fun bad heard => next_act on (linkIn_ack_bad opAck bad heard), fun bad isOpen up => next_act on (linkIn_retry_bad opReq bad isOpen up), fun init => ?_,
    fun other => ⟨param.trans (next_act on (if_pos other)), fun ok => (acked ok).trans (next_act on (if_pos other))⟩, fun isOpen up ok => ?_,
    fun isOpen up => ⟨fun retry => next_act on ?_, fun x rest held => next_act on ?_⟩, fun rec_ => next_act on ?_, fun rec_ => next_act on ?_, fun trains w r cap => ?_,
    fun down why enabled => next_act on ?_, fun trains => next_act on (if_pos trains)⟩
  · have inited : paramIn p par s = if (!bit par 8) = true then holdPort p 1 got else if (!identOk got p par) = true then holdPort p 2 got
        else if (!minsOk got p par) = true then holdPort p 3 got else initDone p (txLink p initAck (if q.gotParam = true then got else
          got.updPort p (fun r => { r with
            gotParam := true, rev := 1, txCr := cr [nbits par 73 62, nbits par 85 74, nbits par 97 86, nbits par 109 98]
            rxCr := cr [512, if decide (q.cfg.peerHub = 1) = true then 512 else 0, 512, 2304] }))) := if_neg (not_not_intro init)
    have answers {t : State} (effect : paramIn p par s = t) : exec (.lInitParam port h) s = .next (rowEnd s t) := param.trans (next_act on effect)
    simp only [decide_eq_true_eq] at inited
    refine ⟨fun old => answers ?_, fun rev ident => answers ?_, fun rev ident mins => answers ?_, fun rev ident mins first => answers ?_,
      fun rev ident mins again => answers ?_, fun ok one => (acked ok).trans (next_act on ?_), fun ok other => (acked ok).trans (next_act on ?_),
      next_act on (if_pos init), next_act on (if_pos init)⟩
    · simp only [inited, old, Bool.not_false, if_true]
    · simp only [inited, rev, ident, Bool.not_true, Bool.not_false, Bool.false_eq_true, if_false, if_true]
    · simp only [inited, rev, ident, mins, Bool.not_true, Bool.not_false, Bool.false_eq_true, if_false, if_true]
    · simp only [inited, rev, ident, mins, first, Bool.not_true, Bool.false_eq_true, if_false]
    · simp only [inited, rev, ident, mins, again, Bool.not_true, Bool.false_eq_true, if_false, if_true]
    · have value : bits (putBits h 0 8 0xF1) 15 8 = 1 := one
      exact (if_neg (not_not_intro init)).trans ((if_neg (not_not_intro value)).trans (by rw [value]))
    · exact (if_neg (not_not_intro init)).trans (if_pos other)
  · have answers {t : State} (effect : retryIn p (putBits h 0 8 0xF2) s = t) : exec (.lRetryReq port h) s = .next (rowEnd s t) :=
      next_act on ((linkIn_retry opReq ok isOpen up).trans effect)
    refine ⟨fun held fresh => answers ?_, fun held running => answers ?_, fun gone next => answers ?_, fun gone other => answers ?_⟩
    · exact (if_pos held).trans (if_neg fresh)
    · exact (if_pos held).trans (if_pos running)
    · exact (if_neg (ne_true_of_eq_false gone)).trans (if_pos next)
    · exact (if_neg (ne_true_of_eq_false gone)).trans (if_neg other)
  · have repeats : ((s.port p).inRetry && (s.port p).open_ && !(s.port p).inRec) = true := by rw [retry, isOpen, up]; rfl
    exact if_pos repeats
  · have goes : ((s.port p).open_ && !(s.port p).inRec) = true := by rw [isOpen, up]; rfl
    have oldest : (s.port port.toNat).replay = x :: rest := held
    simp only [oldest]
    exact if_pos goes
  · have goes : ¬(!(s.port p).inRec) = true := by rw [show (s.port p).inRec = true from rec_]; decide
    exact (if_neg goes).trans (if_pos rfl)
  · have goes : ¬(!(s.port p).inRec) = true := by rw [show (s.port p).inRec = true from rec_]; decide
    exact (if_neg goes).trans (if_neg (by decide))
  · have reached : (decide ((s.port p).link = 1) && (decide (width = 4) || decide (width = 8)) && decide (rate.toNat ≤ (s.port p).cfg.maxRate.toNat) &&
        decide (rate.toNat ≤ (s.port p).rateCap.toNat)) = true := by
      simpa using ⟨⟨⟨trains, w⟩, r⟩, cap⟩
    exact ⟨fun enabled => next_act on ((if_pos reached).trans (if_pos enabled)),
      fun disabled => next_act on ((if_pos reached).trans (if_neg (ne_true_of_eq_false disabled)))⟩
  · have retries : (decide ((s.port p).link = 4) && decide ((s.port p).hold = 5) && (s.port p).cfg.enable) = true := by
      simpa using ⟨⟨down, why⟩, enabled⟩
    exact if_pos retries

/-- Settles O32: each clause is the branch of R170 for its flit. -/
theorem flitsAreDeliveredInSequence : Obligations.FlitsAreDeliveredInSequence := by
  intro port f s p on isPort isOpen up good t
  have heard : (!(decide (p < s.nPorts) && (decide ((s.port p).link = 2) || (s.port p).open_) && !(s.port p).inRec)) = false := by
    rw [decide_eq_true isPort, isOpen, up, Bool.or_true]; rfl
  have taken (ok : good) : flitIn p f s = if bits f 1967 1952 = 0xFFFF then
      (List.range 15).foldl (fun s i => if 0xF0 ≤ Hd.op (slotOf f i) then linkIn p (slotOf f i) s else s) t
      else if (decide (bits f 1967 1952 = (t.port p).rxE) && (t.port p).open_) = true then
        let u := (List.range 15).foldl (fun s i => slotIn p (slotOf f i) s) (monPort p 2 1 (t.updPort p (fun q => { q with rxE := seqNext q.rxE, inRetry := false })))
        if ((u.port p).open_ && !(u.port p).inRec) = true then ctrlFlit p 0 u else u
      else t := by
    refine (if_neg (ne_true_of_eq_false heard)).trans ((if_neg (not_not_intro ok)).trans ?_)
    rw [isOpen]
    rfl
  refine ⟨fun bad => next_act on ?_, fun ok ctrl => next_act on ((taken ok).trans (if_pos ctrl)), fun ok data seq still => ?_, fun ok data seq => next_act on ?_⟩
  · exact (if_neg (ne_true_of_eq_false heard)).trans (if_pos bad)
  · have due : (decide (bits f 1967 1952 = (t.port p).rxE) && (t.port p).open_) = true := by rw [decide_eq_true seq, still]; rfl
    exact next_act on ((taken ok).trans ((if_neg data).trans (if_pos due)))
  · have other : (decide (bits f 1967 1952 = (t.port p).rxE) && (t.port p).open_) = false := by rw [decide_eq_false seq]; rfl
    exact (taken ok).trans ((if_neg data).trans (if_neg (ne_true_of_eq_false other)))

end Sys2Proof.Machine
end

section
/-! What a message's arrival leaves alone: the frame under which the checks of a port's messages are made. -/
namespace Sys2Proof.Machine

@[simp] theorem monOvf_work (ie : Bool) (mon i : Nat) (s : State) : (monOvf ie mon i s).work = s.work := by
  simp only [monOvf, apply_ite State.work, sendMsix_work, postEvent_work, ite_self]
@[simp] theorem monPortWord_work (p k n : Nat) (s : State) : (monPortWord p k n s).work = s.work := by
  simp only [monPortWord, apply_ite State.work, monOvf_work, work_upd, ite_self]
@[simp] theorem monPort_work (p ev n : Nat) (s : State) : (monPort p ev n s).work = s.work := by
  unfold monPort
  split
  · rfl
  · exact foldl_part State.work _ _ s fun s i => by rw [apply_ite State.work, monPortWord_work, ite_self]
@[simp] theorem arriveBytes_work (h : Slot) (s : State) : (arriveBytes h s).work = s.work := by
  unfold arriveBytes
  split <;> rfl
@[simp] theorem capIn_work (unit sl : Nat) (d : Slot) (status : Nat) (payload : List Byte) (s : State) : (capIn unit sl d status payload s).work = s.work := by
  simp only [capIn, apply_ite State.work, recCap_work, ite_self]
@[simp] theorem capMsg_work (p : Nat) (h mask : Slot) (d : Line) (s : State) : (capMsg p h mask d s).work = s.work := by
  simp only [capMsg, apply_ite State.work, capIn_work, ite_self]
@[simp] theorem touch_work (k sl n unit : Nat) (body : List Byte) (chip : Bool) (s : State) : (touch k sl n unit body chip s).work = s.work := by
  unfold touch
  split
  · rfl
  · exact recCap_work ..
@[simp] theorem capTouch_work (sl unit : Nat) (l : LineNo) (s : State) : (capTouch sl unit l s).work = s.work := by
  simp only [capTouch, apply_ite State.work, touch_work, ite_self]
@[simp] theorem capAns_work (p : Nat) (h mask : Slot) (d : Line) (s : State) : (capAns p h mask d s).work = s.work := by
  simp only [capAns, capMsg_work, apply_ite State.work, capTouch_work, ite_self]

/-- What the checks of a port's messages read of the port (R183, R201, R205). -/
def Port.known (q : Port) : PortCfg × List Msg × List (BitVec 12) := (q.cfg, q.rxDat, q.tags)
/-- Two states between which only credits, link-layer state, monitors and records differ: every check of a port's messages comes out the same. -/
structure Heard (s t : State) : Prop where
  slices : t.slices = s.slices
  regions : t.regions = s.regions
  base : t.links.base = s.links.base
  size : t.links.size = s.links.size
  small : t.boot.small = s.boot.small
  known : ∀ p, (t.port p).known = (s.port p).known

namespace Heard
theorem of_work {s t : State} (h : t.work = s.work) : Heard s t where
  slices := congrArg Work.slices h
  regions := congrArg Work.regions h
  base := congrArg Work.base h
  size := congrArg Work.size h
  small := congrArg Work.small h
  known p := congrArg (fun w : Work => (NMap.get Port.init w.ports p).known) h
theorem trans {s t u : State} (h : Heard s t) (h' : Heard t u) : Heard s u where
  slices := h'.slices.trans h.slices
  regions := h'.regions.trans h.regions
  base := h'.base.trans h.base
  size := h'.size.trans h.size
  small := h'.small.trans h.small
  known p := (h'.known p).trans (h.known p)
theorem updPort (s : State) (p : Nat) {f : Port → Port} (keeps : (f (s.port p)).known = (s.port p).known) : Heard s (s.updPort p f) where
  slices := rfl
  regions := rfl
  base := rfl
  size := rfl
  small := rfl
  known i := by
    by_cases same : i = p
    · subst same
      exact (congrArg Port.known (NMap.get_upd_self Port.init s.links.ports i f)).trans keeps
    · exact congrArg Port.known (NMap.get_upd_ne Port.init s.links.ports f same)
end Heard

theorem flitOut_known (q : Port) (sq : BitVec 16) (f : Flit) : (flitOut q sq f).1.known = q.known := by
  unfold flitOut
  generalize List.range 4 = l
  induction l generalizing q with
  | nil => rfl
  | cons c l ih => exact ih _
theorem ctrlFlit_heard (p : Nat) (m : Slot) (s : State) : Heard s (ctrlFlit p m s) :=
  ((Heard.updPort s p (flitOut_known ..)).trans (.of_work (monPort_work p 3 1 _))).trans (.of_work rfl)
theorem flowCredits_heard (p : Nat) (s : State) : Heard s (flowCredits p s) := by
  unfold flowCredits
  generalize List.range 10 = l
  induction l generalizing s with
  | nil => exact .of_work rfl
  | cons _ l ih =>
    refine Heard.trans ?_ (ih _)
    dsimp only
    split
    · exact .of_work rfl
    · exact ctrlFlit_heard ..
theorem credit_heard (p cls n : Nat) (s : State) : Heard s (credit p cls n s) := (Heard.updPort s p (by exact rfl)).trans (flowCredits_heard ..)
theorem spend_heard (p cls n : Nat) (s : State) : Heard s (spend p cls n s).1 := Heard.updPort s p rfl

namespace Heard
variable {s t : State} (same : Heard s t)
include same
theorem cfg (p : Nat) : (t.port p).cfg = (s.port p).cfg := congrArg Prod.fst (same.known p)
theorem rxDat (p : Nat) : (t.port p).rxDat = (s.port p).rxDat := congrArg (fun x => x.2.1) (same.known p)
theorem tags (p : Nat) : (t.port p).tags = (s.port p).tags := congrArg (fun x => x.2.2) (same.known p)
theorem slice (n : Nat) : t.slice n = s.slice n := congrArg (NMap.get Slice.init · n) same.slices
theorem cover (l : LineNo) : t.cover l = s.cover l := congrArg (List.find? (fun e : Nat × Region => Rg.covers e.2 l.toNat)) same.regions
theorem nPorts : t.nPorts = s.nPorts := by rw [State.nPorts, State.nPorts, same.small]
theorem peer (p : Nat) : t.peer p = s.peer p := congrArg PortCfg.peerId (same.cfg p)
theorem isUplink (c : PortCfg) : t.isUplink c = s.isUplink c := by simp only [State.isUplink, same.base, same.size]
theorem routeDst (d : Nat) : routeDst t d = routeDst s d := by
  simp only [Machine.routeDst, same.nPorts, same.base, same.size, same.cfg, same.isUplink]
theorem upPort (e : Region) : upPort t e = upPort s e := by simp only [Machine.upPort, same.routeDst, same.cfg]
theorem homeAt (p : Nat) (l : LineNo) : homeAt t p l = homeAt s p l := by simp only [Machine.homeAt, same.cover, same.upPort]
theorem srcOk (p : Nat) (h : Slot) : srcOk t p h = srcOk s p h := by simp only [Machine.srcOk, same.peer, same.cfg]
theorem tagOpen (p : Nat) (tag : BitVec 12) : tagOpen t p tag = tagOpen s p tag := by simp only [Machine.tagOpen, same.tags, same.rxDat]
theorem answerBad (p : Nat) (h : Slot) : answerBad t p h = answerBad s p h := by
  simp only [Machine.answerBad, same.srcOk, same.homeAt, same.base, same.routeDst, same.tagOpen]
theorem datWaits (p : Nat) (h : Slot) : datWaits t p h = datWaits s p h := by simp only [Machine.datWaits, same.slice]
theorem behind (p : Nat) (h : Slot) : behind t p h = behind s p h := by simp only [Machine.behind, same.rxDat]
theorem snoopOn (p : Nat) (l : LineNo) : snoopOn t p l = snoopOn s p l := by simp only [Machine.snoopOn, same.slice]
theorem offerOn (p : Nat) (l : LineNo) : offerOn t p l = offerOn s p l := by simp only [Machine.offerOn, same.slice]
theorem hubBad (p : Nat) (h : Slot) : hubBad t p h = hubBad s p h := by simp only [Machine.hubBad, same.srcOk, same.base]
theorem wrongSide (p : Nat) (h : Slot) : wrongSide t p h = wrongSide s p h := by simp only [Machine.wrongSide, same.cover, same.homeAt]
theorem idsBad (p : Nat) (h : Slot) : idsBad t p h = idsBad s p h := by simp only [Machine.idsBad, same.peer, same.base]
theorem snoopBad (p : Nat) (h : Slot) : snoopBad t p h = snoopBad s p h := by simp only [Machine.snoopBad, same.cfg, same.idsBad, same.cover, same.upPort]
end Heard

end Sys2Proof.Machine
end

section
/-! O28, O29, O30: the messages of a port's agent and of a hub peer. -/
namespace Sys2Proof.Machine

/-- Outside REPLAY a row's message is processed at once. -/
theorem deliver_of_effect {port : BitVec 4} {op : Nat} {h mask : Slot} {d : Line} {s t : State} (on : s.off = false) (mode : s.mode ≠ 4)
    (effect : message port.toNat (putBits h 0 8 op) mask d s = t) : deliver port op h mask d s = rowEnd s t := by
  rw [deliver, act_on on, if_neg mode, effect]

/-- Settles O28. -/
theorem requestsJoinTheirPortsBuffer : Obligations.RequestsJoinTheirPortsBuffer := by
  intro port h s on mode isPort isOpen paid got
  have joins (op : Nat) (isReq : opDefined op = true ∧ op < 0x20) : (Host.Outcome.next (deliver port op h 0 0 s) : Ans) = .next (got op) := by
    have code : Hd.op (putBits h 0 8 op) = op := hd_op h op (Nat.lt_trans isReq.2 (by decide))
    refine congrArg Host.Outcome.next (deliver_of_effect on mode ?_)
    simp only [message, code, isReq, Bool.not_true, Bool.false_eq_true, if_false, if_true, reqArrive, isPort, isOpen, Bool.and_self, Nat.ne_of_gt paid, decide_true, decide_false]
  exact ⟨joins 0x10 (by decide), joins 0x11 (by decide), joins 0x12 (by decide), joins 0x13 (by decide), joins 0x14 (by decide), joins 0x15 (by decide),
    joins 0x16 (by decide), joins 0x17 (by decide), joins 0x18 (by decide), joins 0x19 (by decide)⟩

/-- What a message of an agent has done before it is recorded and applied: its credits have come and gone back, and it has been counted. -/
def answerPaid (p : Nat) (h : Slot) (s : State) : State :=
  credit p (Hd.cls (Hd.op h)) (Hd.len (Hd.op h))
    (arriveBytes h (monPort p (if Hd.cls (Hd.op h) = 3 then 9 else 8) 1 (spend p (Hd.cls (Hd.op h)) (Hd.len (Hd.op h)) s).1))
theorem answerIn_heard (p : Nat) (h mask : Slot) (d : Line) (s : State) : Heard s (answerIn p h mask d s) :=
  ((((spend_heard ..).trans (.of_work (monPort_work ..))).trans (.of_work (arriveBytes_work ..))).trans (credit_heard ..)).trans (.of_work (capAns_work ..))

theorem off_of_sound {p : Nat} {h : Slot} {s : State} (sound : answerSound p h s = true) : s.off = false ∧ s.mode ≠ 4 := by
  simp only [answerSound, Bool.and_eq_true, Bool.not_eq_true', decide_eq_true_eq] at sound
  tauto
/-- A sound answer is applied at once (R180, R181, R201). -/
theorem answerArrive_of_sound {p : Nat} {h mask : Slot} {d : Line} {s : State} (sound : answerSound p h s = true) :
    answerArrive p h mask d s = applyAnswer p h mask d (answerPaid p h s) := by
  simp only [answerSound, Bool.and_eq_true, Bool.not_eq_true', decide_eq_true_eq, Bool.or_eq_true] at sound
  obtain ⟨⟨⟨⟨⟨⟨⟨-, -⟩, isPort⟩, isOpen⟩, paid⟩, good⟩, dat⟩, line⟩ := sound
  have counted : Heard s (monPort p (if Hd.cls (Hd.op h) = 3 then 9 else 8) 1 (spend p (Hd.cls (Hd.op h)) (Hd.len (Hd.op h)) s).1) :=
    (spend_heard ..).trans (.of_work (monPort_work ..))
  have arrived := counted.trans (.of_work (arriveBytes_work h _))
  have covered : (spend p (Hd.cls (Hd.op h)) (Hd.len (Hd.op h)) s).2 = true := decide_eq_true paid
  have goes : (!(decide (p < s.nPorts) && (s.port p).open_)) = false := by rw [decide_eq_true isPort, isOpen]; rfl
  have first : (behind s p h || (decide (Hd.cls (Hd.op h) = 3) && datWaits s p h)) = false := by
    rcases dat with other | ⟨empty, room⟩
    · simp [behind, line, other]
    · simp [behind, line, empty, room]
  unfold answerArrive answerPaid
  simp only [goes, covered, counted.answerBad, good, arrived.behind, arrived.datWaits, first, Bool.not_true, Bool.false_eq_true, if_false]

/-- What a recorded answer does, by its opcode (R202). -/
def answerDo (op p : Nat) (h mask : Slot) (d : Line) (s : State) : State :=
  if op = 0x61 then compAck p h s else if op = 0x62 then rspI p h s else if op = 0x63 then rspS p h s else if op = 0x64 then rspFwd p h s
  else if op = 0x65 then evictNote p h s else if op = 0x66 then stashDecline p h s else if op = 0x6A then stashAccept p h s
  else if op = 0x88 then snpData p h d s else if op = 0x89 then wbData p h d s else if op = 0x8A then evictOffer p h d s
  else if op = 0x8B then wrData p h fullMask d s else if op = 0x8C then wrData p h mask d s else badAnswer p 3 h s
theorem applyAnswer_eq {op p : Nat} {h mask : Slot} {d : Line} {s : State} (code : Hd.op h = op) :
    applyAnswer p h mask d s = answerDo op p h mask d (capAns p h mask d s) := by
  subst code
  rfl
theorem answerDo_wbData (p : Nat) (h mask : Slot) (d : Line) (s : State) : answerDo 0x89 p h mask d s = wbData p h d s := by
  simp only [answerDo, Nat.reduceEqDiff, if_false, if_true]
theorem answerDo_evictOffer (p : Nat) (h mask : Slot) (d : Line) (s : State) : answerDo 0x8A p h mask d s = evictOffer p h d s := by
  simp only [answerDo, Nat.reduceEqDiff, if_false, if_true]
/-- A row of an agent's RSP or DAT message is its application, where the message is sound. -/
theorem answer_row {port : BitVec 4} {op : Nat} {h mask : Slot} {d : Line} {s t : State} (isAnswer : opDefined op = true ∧ 0x60 ≤ op ∧ op < 256)
    (own : forAgent s port.toNat (putBits h 0 8 op) = false) (sound : answerSound port.toNat (putBits h 0 8 op) s = true)
    (effect : answerDo op port.toNat (putBits h 0 8 op) mask d (answerIn port.toNat (putBits h 0 8 op) mask d s) = t) :
    (Host.Outcome.next (deliver port op h mask d s) : Ans) = .next (rowEnd s t) := by
  obtain ⟨defined, answers, byte⟩ := isAnswer
  have code : Hd.op (putBits h 0 8 op) = op := hd_op h op byte
  obtain ⟨on, mode⟩ := off_of_sound sound
  have notReq : ¬op < 0x20 := by omega
  have notSnoop : (decide (0x40 ≤ op) && decide (op ≤ 0x44)) = false := by rw [decide_eq_false (show ¬op ≤ 0x44 by omega), Bool.and_false]
  have heard : (decide (port.toNat < s.nPorts) && (s.port port.toNat).open_) = true := by
    simp only [answerSound, Bool.and_eq_true] at sound
    simp only [Bool.and_eq_true]
    tauto
  have applied : applyAnswer port.toNat (putBits h 0 8 op) mask d (answerPaid port.toNat (putBits h 0 8 op) s) = t := (applyAnswer_eq code).trans effect
  refine congrArg Host.Outcome.next (deliver_of_effect on mode ?_)
  rw [Bool.and_eq_true, decide_eq_true_eq] at heard
  simp only [message, code, defined, notReq, notSnoop, own, heard, answerArrive_of_sound sound, applied, Bool.not_true, Bool.false_eq_true, if_false, decide_true, Bool.and_self, if_true]
theorem forAgent_of_answer {s : State} {p op : Nat} {h : Slot} (byte : op < 256)
    (answers : (op = 0x88 || op = 0x60 || op = 0x67 || op = 0x68 || op = 0x69 || (0x80 ≤ op && op ≤ 0x84)) = false) :
    forAgent s p (putBits h 0 8 op) = false := by
  simp only [Bool.or_eq_false_iff] at answers
  obtain ⟨⟨⟨⟨⟨snp, comp⟩, frozen⟩, fence⟩, pull⟩, data⟩ := answers
  simp only [forAgent, hd_op h op byte, snp, comp, frozen, fence, pull, data, Bool.false_and, Bool.or_self]
theorem forAgent_of_hub_data {s : State} {p : Nat} {h : Slot} (toHub : Hd.grant (putBits h 0 8 0x88) = 0) : forAgent s p (putBits h 0 8 0x88) = false := by
  simp only [forAgent, hd_op h 0x88 (by decide), toHub]
  rfl

section
variable {s : State} {p : Nat} {h : Slot} {sl op : Nat} {t : Txn}
theorem rspI_of_snoop (on : snoopOn s p (Hd.line h) = some (sl, t, op)) :
    rspI p h s = if t.noFill || t.fwd then badAnswer p 4 h s else snoopIn sl t p (dirDrop p t.line s) := by
  simp only [rspI, on]
theorem rspS_of_snoop (on : snoopOn s p (Hd.line h) = some (sl, t, op)) :
    rspS p h s = if (op = 0x40 || op = 0x42) && !t.noFill && !t.fwd then snoopIn sl t p (dirShare t.line s) else badAnswer p 4 h s := by
  simp only [rspS, on]
theorem rspFwd_of_snoop (on : snoopOn s p (Hd.line h) = some (sl, t, op)) :
    rspFwd p h s = if op ≠ 0x42 && op ≠ 0x43 || t.fwd then badAnswer p 4 h s
      else if t.noFill then snoopIn sl t p (updTxn sl t.id (fun u => { u with fwd := true }) (if op = 0x43 then dirDrop p t.line s else s))
      else updTxn sl t.id (fun u => { u with fwd := true }) (if op = 0x43 then dirDrop p t.line s else s) := by
  simp only [rspFwd, on]
theorem snpData_of_snoop {d : Line} (on : snoopOn s p (Hd.line h) = some (sl, t, op)) :
    snpData p h d s = if Hd.grant h = 0 then
        if t.fwd || t.noFill || (op = 0x43 && (s.port p).cfg.peerHub = 0) then badAnswer p 4 h s else snpToHub sl p op t h d s
      else if t.noFill || !grantFits op (Hd.grant h) || decide (Hd.dst h ≠ Hd.src t.h) then badAnswer p 4 h s
      else snpRouted sl p t h d s := by
  simp only [snpData, on]
theorem stashDecline_of_offer (on : offerOn s p (Hd.line h) = some (sl, t)) : stashDecline p h s = kick sl (stashOver sl t s) := by
  simp only [stashDecline, on]
/-- The directory entry of a line as an eviction finds it. -/
theorem evictNote_stands {u : State} (met : dirFix (Hd.line h) (dirMeet p (Hd.line h) s) = u) (holds : (u.dirOf (Hd.line h)).holders.testBit p = true) :
    evictNote p h s = evictUp (Hd.line h) none (evictComp p h (dirDrop p (Hd.line h) u)) := by
  subst met
  exact if_pos holds
theorem evictNote_stale {u : State} (met : dirFix (Hd.line h) (dirMeet p (Hd.line h) s) = u) (gone : (u.dirOf (Hd.line h)).holders.testBit p = false) :
    evictNote p h s = evictComp p h (stale p h u) := by
  subst met
  exact if_neg (ne_true_of_eq_false gone)
theorem wbData_stale {d : Line} {u : State} (met : dirFix (Hd.line h) (dirMeet p (Hd.line h) s) = u)
    (gone : u.uncovered (Hd.line h) = true ∨ ((u.dirOf (Hd.line h)).holders.testBit p = false ∧ unresolvedOn u (Hd.line h) = none)) :
    wbData p h d s = evictComp p h (stale p h (dropSilent p h u)) := by
  by_cases covers : u.uncovered (Hd.line h) = true
  · simp only [wbData, met, covers, if_true]
  · obtain ⟨absent, resolved⟩ := gone.resolve_left covers
    simp only [wbData, met, covers, absent, resolved, Bool.not_false, Bool.false_eq_true, if_false, if_true]
theorem evictOffer_stale {d : Line} {u : State} (met : dirFix (Hd.line h) (dirMeet p (Hd.line h) s) = u)
    (gone : u.uncovered (Hd.line h) = true ∨ (u.dirOf (Hd.line h)).holders.testBit p = false) :
    evictOffer p h d s = evictComp p h (stale p h u) := by
  have off : (u.uncovered (Hd.line h) || !(u.dirOf (Hd.line h)).holders.testBit p) = true := by
    rcases gone with gone | gone <;> simp [gone]
  simp only [evictOffer, met, off, if_true]
end

/-- Settles O29: each clause is the application of its message where it is sound. -/
theorem soundAnswersTakeTheirEffect : Obligations.SoundAnswersTakeTheirEffect := by
  intro port h mask d f s p m u l v
  have heard (op : Nat) (d : Line) : Heard s (answerIn p (m op) 0 d s) := answerIn_heard ..
  have snooped {op sl snp : Nat} {t : Txn} (d : Line) (on : snoopOn s p (l op) = some (sl, t, snp)) : snoopOn (answerIn p (m op) 0 d s) p (l op) = some (sl, t, snp) :=
    ((heard op d).snoopOn p (l op)).trans on
  have hub (d : Line) : ((answerIn p (m 0x88) 0 d s).port p).cfg.peerHub = (s.port p).cfg.peerHub := congrArg PortCfg.peerHub ((heard 0x88 d).cfg p)
  have own {s : State} (op : Nat) (byte : op < 256)
      (answers : (op = 0x88 || op = 0x60 || op = 0x67 || op = 0x68 || op = 0x69 || (0x80 ≤ op && op ≤ 0x84)) = false) : forAgent s p (m op) = false :=
    forAgent_of_answer byte answers
  refine ⟨fun t sound on => ?compAck, fun sl t op sound on done => ?rspIBad, fun sl t op sound on fresh whole => ?rspI,
    fun sl t op sound on fresh whole shares => ?rspS, fun sl t op sound on unfit => ?rspSBad, fun sl t op sound on forwards whole => ?rspFwd,
    fun sl t op sound on unfit => ?rspFwdBad, ?evictNote, fun sl t sound on => ?stashDecline, fun x sound on => ?stashAccept,
    fun sl t op sound on toHub whole fresh fits => ?snpHub, fun sl t op sound agent on grants => ⟨fun fits => ?snpRouted, fun unfit => ?snpUnfit⟩,
    fun sl t op sound on toHub unfit => ?snpBad, ?wbData, ?evictOffer, fun x sound on => ?wrData, fun x sound on => ?wrDataPtl⟩
  case compAck => exact answer_row (by decide) (own 0x61 (by decide) (by decide)) sound rfl
  case rspIBad => exact answer_row (by decide) (own 0x62 (by decide) (by decide)) sound ((rspI_of_snoop (snooped 0 on)).trans (if_pos done))
  case rspI =>
    exact answer_row (by decide) (own 0x62 (by decide) (by decide)) sound ((rspI_of_snoop (snooped 0 on)).trans (if_neg (by simp [fresh, whole])))
  case rspS =>
    have fits : ((op = 0x40 || op = 0x42) && !t.noFill && !t.fwd) = true := by simpa [fresh, whole] using shares
    exact answer_row (by decide) (own 0x63 (by decide) (by decide)) sound ((rspS_of_snoop (snooped 0 on)).trans (if_pos fits))
  case rspSBad =>
    have fits : ¬((op = 0x40 || op = 0x42) && !t.noFill && !t.fwd) = true := fun fits => by
      simp only [Bool.and_eq_true, Bool.or_eq_true, decide_eq_true_eq, Bool.not_eq_true'] at fits
      obtain ⟨⟨shares, fresh⟩, whole⟩ := fits
      rcases shares with rfl | rfl <;> simp [fresh, whole] at unfit
    exact answer_row (by decide) (own 0x63 (by decide) (by decide)) sound ((rspS_of_snoop (snooped 0 on)).trans (if_neg fits))
  case rspFwd =>
    have fits : ¬(op ≠ 0x42 && op ≠ 0x43 || t.fwd) = true := by
      simp [whole]
      tauto
    exact answer_row (by decide) (own 0x64 (by decide) (by decide)) sound ((rspFwd_of_snoop (snooped 0 on)).trans (if_neg fits))
  case rspFwdBad => exact answer_row (by decide) (own 0x64 (by decide) (by decide)) sound ((rspFwd_of_snoop (snooped 0 on)).trans (if_pos unfit))
  case evictNote =>
    intro u sound
    have met : dirFix (l 0x65) (dirMeet p (l 0x65) (answerIn p (m 0x65) 0 0 v)) = u := rfl
    clear_value u
    exact ⟨fun holds => answer_row (by decide) (own 0x65 (by decide) (by decide)) sound (evictNote_stands met holds),
      fun gone => answer_row (by decide) (own 0x65 (by decide) (by decide)) sound (evictNote_stale met gone)⟩
  case stashDecline =>
    exact answer_row (by decide) (own 0x66 (by decide) (by decide)) sound (stashDecline_of_offer (((heard 0x66 0).offerOn p (l 0x66)).trans on))
  case stashAccept => exact answer_row (by decide) (own 0x6A (by decide) (by decide)) sound rfl
  case snpHub =>
    have goes : ¬(t.fwd || t.noFill || (op = 0x43 && ((answerIn p (m 0x88) 0 d s).port p).cfg.peerHub = 0)) = true := by
      simp only [whole, fresh, hub, Bool.or_false, Bool.false_or, Bool.and_eq_true, decide_eq_true_eq]
      tauto
    exact answer_row (by decide) (forAgent_of_hub_data toHub) sound ((snpData_of_snoop (snooped d on)).trans ((if_pos toHub).trans (if_neg goes)))
  case snpRouted =>
    exact answer_row (by decide) agent sound ((snpData_of_snoop (snooped d on)).trans ((if_neg grants).trans (if_neg (ne_true_of_eq_false fits))))
  case snpUnfit => exact answer_row (by decide) agent sound ((snpData_of_snoop (snooped d on)).trans ((if_neg grants).trans (if_pos unfit)))
  case snpBad =>
    have bad : (t.fwd || t.noFill || (op = 0x43 && ((answerIn p (m 0x88) 0 d s).port p).cfg.peerHub = 0)) = true := by rw [unfit, Bool.true_or]
    exact answer_row (by decide) (forAgent_of_hub_data toHub) sound ((snpData_of_snoop (snooped d on)).trans ((if_pos toHub).trans (if_pos bad)))
  case wbData =>
    intro u sound
    have met : dirFix (l 0x89) (dirMeet p (l 0x89) (answerIn p (m 0x89) 0 d v)) = u := rfl
    clear_value u
    exact ⟨answer_row (by decide) (own 0x89 (by decide) (by decide)) sound (answerDo_wbData ..),
      fun gone => answer_row (by decide) (own 0x89 (by decide) (by decide)) sound ((answerDo_wbData ..).trans (wbData_stale met gone))⟩
  case evictOffer =>
    intro u sound
    have met : dirFix (l 0x8A) (dirMeet p (l 0x8A) (answerIn p (m 0x8A) 0 d v)) = u := rfl
    clear_value u
    exact ⟨answer_row (by decide) (own 0x8A (by decide) (by decide)) sound (answerDo_evictOffer ..),
      fun gone => answer_row (by decide) (own 0x8A (by decide) (by decide)) sound ((answerDo_evictOffer ..).trans (evictOffer_stale met gone))⟩
  case wrData => exact answer_row (by decide) (own 0x8B (by decide) (by decide)) sound rfl
  case wrDataPtl => exact answer_row (by decide) (own 0x8C (by decide) (by decide)) sound rfl

end Sys2Proof.Machine
end

section
/-! O30: the messages of a hub peer nearer home. -/
namespace Sys2Proof.Machine

/-- The gates of a hub peer's message (R180, R201, R232). -/
structure HubGates (p : Nat) (h : Slot) (s : State) : Prop where
  on : s.off = false
  mode : s.mode ≠ 4
  isPort : p < s.nPorts
  isOpen : (s.port p).open_ = true
  paid : Hd.len (Hd.op h) ≤ NMap.get 0 (s.port p).rxCr (Hd.cls (Hd.op h))
theorem hubGates_of_sound {p : Nat} {h : Slot} {s : State} (sound : hubSound p h s = true) : HubGates p h s ∧
    (if Hd.cls (Hd.op h) = 1 then snoopBad s p h = false
      else (s.port p).cfg.peerHub = 1 ∧ hubBad s p h = false ∧ wrongSide s p h = false ∧ behind s p h = false) := by
  simp only [hubSound, Bool.and_eq_true, Bool.not_eq_true', decide_eq_true_eq] at sound
  obtain ⟨⟨⟨⟨⟨on, mode⟩, isPort⟩, isOpen⟩, paid⟩, good⟩ := sound
  refine ⟨⟨on, mode, isPort, isOpen, paid⟩, ?_⟩
  split at good
  next snoop => simpa [snoop] using good
  next other => simpa [other, and_assoc] using good

/-- A row of a sound snoop is the snoop's effect (R235). -/
theorem snoop_row {port : BitVec 4} {op : Nat} {h : Slot} {s t : State} (isSnoop : 0x40 ≤ op ∧ op ≤ 0x44)
    (sound : hubSound port.toNat (putBits h 0 8 op) s = true)
    (effect : (if op = 0x44 then
      tx port.toNat (Hd.mk 0x66 s.links.base (s.peer port.toNat) (Hd.tag (putBits h 0 8 op)) (Hd.line (putBits h 0 8 op)) 0 0) 0 (hubIn port.toNat (putBits h 0 8 op) 0 s)
      else homeSnoop port.toNat (putBits h 0 8 op) (hubIn port.toNat (putBits h 0 8 op) 0 s)) = t) :
    (Host.Outcome.next (deliver port op h 0 0 s) : Ans) = .next (rowEnd s t) := by
  obtain ⟨low, high⟩ := isSnoop
  have code : Hd.op (putBits h 0 8 op) = op := hd_op h op (by omega)
  have cls : Hd.cls op = 1 := by
    rw [Hd.cls, if_neg (by omega), if_pos (by omega)]
  have len : Hd.len op = 1 := by
    rw [Hd.len, if_neg (by omega), if_neg (by simp; omega)]
  obtain ⟨⟨on, mode, isPort, isOpen, paid⟩, sender⟩ := hubGates_of_sound sound
  rw [code, cls, len] at paid
  rw [code, cls, if_pos rfl] at sender
  have peer : (s.port port.toNat).cfg.peerHub = 1 := by
    simp only [snoopBad, Bool.or_eq_false_iff, decide_eq_false_iff_not, ne_eq, not_not] at sender
    obtain ⟨⟨⟨⟨peer, -⟩, -⟩, -⟩, -⟩ := sender
    exact peer
  have heard : Heard s (credit port.toNat 1 1 (spend port.toNat 1 1 s).1) := (spend_heard ..).trans (credit_heard ..)
  have covered : (spend port.toNat 1 1 s).2 = true := decide_eq_true paid
  have state : hubIn port.toNat (putBits h 0 8 op) 0 s = credit port.toNat 1 1 (spend port.toNat 1 1 s).1 := by
    simp only [hubIn, code, cls, len, if_true]
  have defined : opDefined op = true := by simp [opDefined, low, high]
  have notReq : ¬op < 0x20 := by omega
  refine congrArg Host.Outcome.next (deliver_of_effect on mode ?_)
  rw [← effect, state]
  simp only [message, code, defined, notReq, low, high, snoopArrive, isPort, isOpen, peer, covered, heard.snoopBad, sender, heard.base, heard.peer, ne_eq, not_true_eq_false,
    decide_true, Bool.and_self, Bool.not_true, Bool.false_eq_true, if_false, if_true]

/-- A row of another sound message of a hub peer is its effect (R234, R237). -/
theorem hub_row {port : BitVec 4} {op : Nat} {h : Slot} {d : Line} {s t : State}
    (isHub : op = 0x60 ∨ op = 0x67 ∨ op = 0x68 ∨ op = 0x69 ∨ op = 0x88 ∨ (0x80 ≤ op ∧ op ≤ 0x84))
    (sound : hubSound port.toNat (putBits h 0 8 op) s = true)
    (effect : hubApply port.toNat (putBits h 0 8 op) d (hubIn port.toNat (putBits h 0 8 op) d s) = t) :
    (Host.Outcome.next (deliver port op h 0 d s) : Ans) = .next (rowEnd s t) := by
  have code : Hd.op (putBits h 0 8 op) = op := hd_op h op (by omega)
  have cls : Hd.cls op ≠ 1 := by
    rw [Hd.cls, if_neg (by omega), if_neg (by omega)]
    split <;> decide
  obtain ⟨⟨on, mode, isPort, isOpen, paid⟩, sender⟩ := hubGates_of_sound sound
  rw [code] at paid
  rw [code, if_neg cls] at sender
  obtain ⟨peer, good, side, first⟩ := sender
  have agent : forAgent s port.toNat (putBits h 0 8 op) = true := by
    rcases isHub with rfl | rfl | rfl | rfl | rfl | data
    · simp [forAgent, code]
    · simp [forAgent, code]
    · simp [forAgent, code]
    · simp [forAgent, code]
    · simp only [hubBad, code, Bool.or_eq_false_iff, decide_eq_false_iff_not, ne_eq, not_not, Nat.reduceEqDiff, if_false, if_true] at good
      obtain ⟨⟨⟨-, dst⟩, -⟩, -, grant⟩ := good
      have grants : Hd.grant (putBits h 0 8 0x88) ≠ 0 := by omega
      simp only [forAgent, code, dst, peer, grants, ne_eq, not_false_eq_true, decide_true, Bool.and_self, Bool.true_or]
    · simp [forAgent, code, data]
  have heard : Heard s (monPort port.toNat (if Hd.cls op = 3 then 9 else 8) 1 (spend port.toNat (Hd.cls op) (Hd.len op) s).1) :=
    (spend_heard ..).trans (.of_work (monPort_work ..))
  have covered : (spend port.toNat (Hd.cls op) (Hd.len op) s).2 = true := decide_eq_true paid
  have state : hubIn port.toNat (putBits h 0 8 op) d s = capMsg port.toNat (putBits h 0 8 op) 0 d (credit port.toNat (Hd.cls op) (Hd.len op)
      (monPort port.toNat (if Hd.cls op = 3 then 9 else 8) 1 (spend port.toNat (Hd.cls op) (Hd.len op) s).1)) := by
    simp only [hubIn, code, cls, if_false]
  have defined : opDefined op = true := by
    rcases isHub with rfl | rfl | rfl | rfl | rfl | data
    all_goals simp [opDefined, *]
  have notReq : ¬op < 0x20 := by omega
  have notSnoop : (decide (0x40 ≤ op) && decide (op ≤ 0x44)) = false := by rw [decide_eq_false (show ¬op ≤ 0x44 by omega), Bool.and_false]
  refine congrArg Host.Outcome.next (deliver_of_effect on mode ?_)
  rw [← effect, state]
  simp only [message, code, defined, notReq, notSnoop, agent, hubArrive, isPort, isOpen, covered, heard.cfg, peer, heard.hubBad, good, heard.wrongSide, side, heard.behind, first,
    ne_eq, not_true_eq_false, decide_true, decide_false, Bool.and_self, Bool.or_self, Bool.not_true, Bool.false_eq_true, if_false, if_true]

section
variable {p op : Nat} {h : Slot} {d : Line} {s : State}
theorem hubApply_data (code : Hd.op h = op) (data : 0x80 ≤ op) : hubApply p h d s = upData p h d s := if_pos (code ▸ data)
theorem hubApply_comp (code : Hd.op h = 0x60) : hubApply p h d s = upComp p h s := by
  simp only [hubApply, code, Nat.reduceLeDiff, if_false, if_true]
theorem hubApply_fence (code : Hd.op h = 0x68) : hubApply p h d s = upFence p (Hd.tag h) (decide (Hd.status h ≠ 0)) s := by
  simp only [hubApply, code, Nat.reduceLeDiff, Nat.reduceEqDiff, if_false, if_true]
theorem hubApply_pull (code : Hd.op h = 0x69) : hubApply p h d s = upPull p h s := by
  simp only [hubApply, code, Nat.reduceLeDiff, Nat.reduceEqDiff, if_false, if_true]
theorem hubApply_frozen (code : Hd.op h = 0x67) : hubApply p h d s = upFrozen p h s := by
  simp only [hubApply, code, Nat.reduceLeDiff, Nat.reduceEqDiff, if_false]
end

/-- Settles O30: each clause is the application of its message where it is sound. -/
theorem hubMessagesTakeTheirEffect : Obligations.HubMessagesTakeTheirEffect := by
  intro port h d f s p m u v
  have code {op : Nat} (byte : op < 256) : Hd.op (m op) = op := hd_op h op byte
  refine ⟨fun sound => snoop_row (by decide) sound (if_neg (by decide)), fun sound => snoop_row (by decide) sound (if_neg (by decide)),
    fun sound => snoop_row (by decide) sound (if_neg (by decide)), fun sound => snoop_row (by decide) sound (if_neg (by decide)),
    fun sound => snoop_row (by decide) sound (if_pos rfl), fun sound => hub_row (by decide) sound (hubApply_data (code (by decide)) (by decide)),
    fun sound => hub_row (by decide) sound (hubApply_data (code (by decide)) (by decide)), fun sound => hub_row (by decide) sound (hubApply_data (code (by decide)) (by decide)),
    fun sound => hub_row (by decide) sound (hubApply_data (code (by decide)) (by decide)), fun sound => hub_row (by decide) sound (hubApply_data (code (by decide)) (by decide)),
    fun sound => hub_row (by decide) sound (hubApply_data (code (by decide)) (by decide)), fun sound => hub_row (by decide) sound (hubApply_comp (code (by decide))),
    fun sound => hub_row (by decide) sound (hubApply_fence (code (by decide))), fun sound => hub_row (by decide) sound (hubApply_pull (code (by decide))),
    fun sound => hub_row (by decide) sound (hubApply_frozen (code (by decide)))⟩

end Sys2Proof.Machine
end

section
/-! O48: writes of BAR0, BAR2 and the configuration space. -/
namespace Sys2Proof.Machine

section
variable {o : Nat} {size : BitVec 4} {v : BitVec 64} {s : State}
theorem bad64_of (bad : size ≠ 8 ∨ o % 8 ≠ 0) : bad64 o size = true := by
  rcases bad with bad | bad <;> simp only [bad64, bad, ne_eq, not_false_eq_true, decide_true, Bool.true_or, Bool.or_true]
theorem bad64_aligned (aligned : o % 8 = 0) : bad64 o 8 = false := by
  simp only [bad64, aligned, ne_eq, not_true_eq_false, decide_false, Bool.or_self]

/-! The ranges of BAR0 (R426-R428). -/
theorem barWrite_primary (h : o < 0x8000) : barWrite o v size s = if bad64 o size then badAccess s else primaryWrite o v s := by
  simp only [barWrite, Bool.and_eq_true, decide_eq_true_eq]
  rw [if_neg (by omega), if_neg (by omega), if_neg (by omega), if_neg (by omega), if_neg (by omega), if_neg (by omega), if_neg (by omega)]
theorem barWrite_guardPrimary (low : 0x8000 ≤ o) (high : o < 0x8800) : barWrite o v size s = guardPrimary o v size s := by
  simp only [barWrite, Bool.and_eq_true, decide_eq_true_eq]
  rw [if_neg (by omega), if_neg (by omega), if_neg (by omega), if_neg (by omega), if_neg (by omega), if_neg (by omega), if_pos (by omega)]
theorem barWrite_guardPartner (low : 0x8800 ≤ o) (high : o < 0x9000) : barWrite o v size s = guardPartner o v size s := by
  simp only [barWrite, Bool.and_eq_true, decide_eq_true_eq]
  rw [if_neg (by omega), if_neg (by omega), if_neg (by omega), if_neg (by omega), if_neg (by omega), if_pos (by omega)]
theorem barWrite_rest (low : 0x9000 ≤ o) (high : o < 0x10000) : barWrite o v size s = if bad64 o size then badAccess s else s := by
  have none : primaryWrite o v s = s := by
    have noReg (r : Nat) (isLow : r < 0x9000) : ¬o = r := by omega
    have noKey : ¬o = 0x18 := noReg _ (by decide)
    have unlocked : lockedReg s o = false := by
      simp [lockedReg, noReg]
    have plain : rwMask s o = 0 := by
      simp [rwMask, noReg]
    simp only [primaryWrite, noKey, unlocked, plain, decide_false, Bool.or_self, Bool.false_eq_true, if_false, if_true]
  simp only [barWrite, Bool.and_eq_true, decide_eq_true_eq, none]
  rw [if_neg (by omega), if_neg (by omega), if_neg (by omega), if_neg (by omega), if_neg (by omega), if_neg (by omega), if_neg (by omega)]
theorem barWrite_alias (low : 0x10000 ≤ o) (high : o < 0x40000) : barWrite o v size s = aliasAccess (o / 0x10000) (o % 0x10000) v size s := by
  simp only [barWrite]
  rw [if_neg (by omega), if_neg (by omega), if_neg (by omega), if_neg (by omega), if_pos (by omega)]
theorem barWrite_doorbell (low : 0x40000 ≤ o) (high : o < 0x50000) : barWrite o v size s =
    if !((size = 4 && o % 4 = 0) || (size = 8 && o % 8 = 0)) then badAccess s
    else if o < 0x40100 && o % 8 = 0 then
      (if o % 16 = 0 then sqDoorbell ((o - 0x40000) / 16) v s else cqDoorbell ((o - 0x40000) / 16) v s)
    else if o = 0x40100 then eqDoorbell v s else s := by
  unfold barWrite
  rw [if_neg (by omega), if_neg (by omega), if_neg (by omega), if_pos (by omega)]
theorem barWrite_counter (low : 0x50000 ≤ o) (high : o < 0x60000) : barWrite o v size s = counterWr (o - 0x50000) v size s := by
  unfold barWrite
  rw [if_neg (by omega), if_neg (by omega), if_pos (by omega)]
theorem barWrite_fifo (low : 0x60000 ≤ o) (high : o < 0x70000) : barWrite o v size s =
    if bad64 o size then badAccess s else if o = 0x60000 then hmfPush v s else s := by
  unfold barWrite
  rw [if_neg (by omega), if_pos (by omega)]
theorem barWrite_reserved (low : 0x70000 ≤ o) : barWrite o v size s = if 8 < size.toNat then badAccess s else s := if_pos low

/-! The registers' own rules (R429-R435). -/
theorem primaryWrite_plain (noKey : o ≠ 0x18) (unlocked : lockedReg s o = false) :
    primaryWrite o v s = if rwMask s o = 0 then s else rwWrite o (v &&& rwMask s o) s := by
  simp only [primaryWrite, noKey, unlocked, decide_false, Bool.or_self, Bool.false_eq_true, if_false]
theorem primaryWrite_locked (locked : o = 0x18 ∨ lockedReg s o = true) : primaryWrite o v s = lockViolation s := by
  rcases locked with locked | locked <;> simp only [primaryWrite, locked, decide_true, Bool.true_or, Bool.or_true, if_true]
theorem aliasWrite_plain {k a : Nat} (noKey : a ≠ 0x18) (unguarded : ¬(0x8000 ≤ a ∧ a < 0x9000)) (writes : rwMask s a ≠ 0) :
    aliasWrite k a v s = if lockedReg s a then lockViolation s else rwWrite a (aliasValue k (rwRead s a &&& rwMask s a) (v &&& rwMask s a)) s := by
  have goes : ¬(decide (0x8000 ≤ a) && decide (a < 0x9000) || decide (rwMask s a = 0)) = true := by
    rw [decide_eq_false writes]
    simpa using unguarded
  rw [aliasWrite, if_neg noKey, if_neg goes]
theorem aliasWrite_none {k a : Nat} (noKey : a ≠ 0x18) (none : (0x8000 ≤ a ∧ a < 0x9000) ∨ rwMask s a = 0) : aliasWrite k a v s = s := by
  rw [aliasWrite, if_neg noKey, if_pos (by simpa using none)]
end

theorem guardedReg_iff {a : Nat} : guardedReg a = true ↔ a = 0x8000 ∨ a = 0x8008 ∨ a = 0x8010 := by
  simp [guardedReg, or_assoc]
theorem dropPending_time (s : State) : (dropPending s).ao.time = s.ao.time := by
  unfold dropPending
  split <;> rfl
theorem clamp_bounds {lo hi n : Nat} (h : lo ≤ hi) : lo ≤ clamp lo hi n ∧ clamp lo hi n ≤ hi := by
  unfold clamp
  split
  · omega
  · split <;> omega
theorem capCtrl_snpTo (e : BitVec 512) (s : State) : (capCtrl e s).regs.snpTo = s.regs.snpTo := congrArg Kept.snpTo (capCtrl_kept e s)
theorem capCtrl_farTo (e : BitVec 512) (s : State) : (capCtrl e s).regs.farTo = s.regs.farTo := congrArg Kept.farTo (capCtrl_kept e s)
theorem guardedSet_snpTo {w : BitVec 64} {t : State} (unlocked : lockedReg t 0x8008 = false) :
    (guardedSet 0x8008 w t).regs.snpTo.toNat = clamp 10 10000 (nbits w 13 0) := by
  have bounds := clamp_bounds (n := nbits w 13 0) (show 10 ≤ 10000 by decide)
  rw [guardedSet, if_neg (ne_true_of_eq_false unlocked), if_neg (by decide), if_pos rfl, capCtrl_snpTo]
  exact Nat.mod_eq_of_lt (by omega)
theorem guardedSet_farTo {w : BitVec 64} {t : State} (unlocked : lockedReg t 0x8010 = false) :
    (guardedSet 0x8010 w t).regs.farTo.toNat = clamp 50 1000000 (nbits w 19 0) := by
  have bounds := clamp_bounds (n := nbits w 19 0) (show 50 ≤ 1000000 by decide)
  rw [guardedSet, if_neg (ne_true_of_eq_false unlocked), if_neg (by decide), if_neg (by decide), capCtrl_farTo]
  exact Nat.mod_eq_of_lt (by omega)

theorem toNat_bits {n : Nat} (x : BitVec n) (hi lo : Nat) : (bits x hi lo).toNat = nbits x hi lo := by
  simp [bits, nbits]
theorem bit_bits (x : BitVec 64) : bit (bits x 31 0) 0 = bit x 0 := by
  simp [bits, bit]
/-- A 32-bit word of the MSI-X table, written in its first 512 bytes (R401). -/
theorem bar2Write_word {o : Nat} {v : BitVec 64} {s : State} (inTable : o < 512) (aligned : o % 4 = 0) : bar2Write o v 4 s = tableWord o (bits v 31 0) s := by
  have goes : ¬(!msixSize o 4 || decide (512 ≤ o)) = true := by simp [msixSize, aligned, inTable]
  rw [bar2Write, if_neg goes]
  exact if_neg (by decide)
/-- The address of word `k` of the table's entry `n`. -/
theorem tableOff (n : BitVec 5) (k : BitVec 14) (low : k.toNat < 16) : (16 * n.setWidth 14 + k : BitVec 14).toNat = 16 * n.toNat + k.toNat := by
  have entry := n.isLt
  simp only [BitVec.toNat_add, BitVec.toNat_mul, BitVec.toNat_setWidth, show BitVec.toNat (16 : BitVec 14) = 16 from rfl]
  omega

/-- Settles O48: each clause is its range's rule. -/
theorem registerWritesFollowTheirAccessCodes : Obligations.RegisterWritesFollowTheirAccessCodes := by
  intro off v s on d3 o write dropped
  have below : o < 0x100000 := off.isLt
  have bar (off : BitVec 20) (size : BitVec 4) {t : State} (effect : barWrite off.toNat v size s = t) :
      exec (.registerWrite (.bar0 off) v size) s = .next t := congrArg Host.Outcome.next ((ctl_on on d3).trans effect)
  have row {t u : State} (effect : t = u) : (Host.Outcome.next (ctl s t) : Ans) = .next u := congrArg Host.Outcome.next ((ctl_on on d3).trans effect)
  have same (off : BitVec 20) (size : BitVec 4) {t : State} (effect : barWrite off.toNat v size s = t) :
      exec (.registerWrite (.bar0 off) v size) s = .next (ctl s t) := (bar off size effect).trans (row rfl).symm
  have aliasBits (k a : Nat) (noKey : a ≠ 0x18) (aligned : a % 8 = 0) (unguarded : ¬(0x8000 ≤ a ∧ a < 0x9000)) (writes : rwMask s a ≠ 0) : aliasAccess k a v 8 s =
      if lockedReg s a then lockViolation s else rwWrite a (aliasValue k (rwRead s a &&& rwMask s a) (v &&& rwMask s a)) s := by
    rw [aliasAccess, bad64_aligned aligned, if_neg (by decide), aliasWrite_plain noKey unguarded writes]
  refine ⟨fun low aligned noKey unlocked writes => bar off 8 ?plain, fun low aligned locked => bar off 8 ?locked, fun low size bad => bar off size ?bad, bar 0x18 8 ?key,
    fun low aligned noKey unlocked none => bar off 8 ?none, fun size => ?ranges, fun size isSize => ?doorbells, same 0x60000 8 ?fifo, ?aliasKey, fun size bad => ?aliasBad, ?aliasRw, ?aliasNone,
    ?guarded, fun w t => ⟨fun locked => if_pos locked, fun locked => if_pos locked, ?arm, guardedSet_snpTo, guardedSet_farTo⟩,
    congrArg Host.Outcome.next (live_on on), congrArg Host.Outcome.next (live_on on), fun aligned => row ?counter, fun size bad => row ?counterBad, fun n => ?bar2,
    fun p size past => row ?past, fun w size => congrArg Host.Outcome.next (live_on on), fun r size => congrArg Host.Outcome.next (live_on on), fun flr => if_pos flr⟩
  case plain => rw [barWrite_primary low, bad64_aligned aligned, if_neg (by decide), primaryWrite_plain noKey unlocked, if_neg writes]
  case locked => rw [barWrite_primary low, bad64_aligned aligned, if_neg (by decide), primaryWrite_locked (.inr locked)]
  case bad => rw [barWrite_primary low, bad64_of bad, if_pos rfl]
  case key => exact (barWrite_primary (by decide)).trans ((if_neg (by decide)).trans (primaryWrite_locked (.inl rfl)))
  case none => rw [barWrite_primary low, bad64_aligned aligned, if_neg (by decide), primaryWrite_plain noKey unlocked, if_pos none]
  case fifo => exact (barWrite_fifo (by decide) (by decide)).trans ((if_neg (by decide)).trans (if_pos rfl))
  case arm =>
    have unlocked : lockedReg t 0x8000 = false := Bool.and_false _
    rw [guardedSet, if_neg (ne_true_of_eq_false unlocked), if_pos rfl]
  case counter =>
    have same : o % 0x10000 % 8 = 0 := by omega
    exact if_neg (ne_true_of_eq_false (bad64_aligned same))
  case counterBad =>
    have misses : size ≠ 8 ∨ o % 0x10000 % 8 ≠ 0 := bad.imp_right fun odd => by omega
    exact if_pos (bad64_of misses)
  case past =>
    have outside : (!msixSize p.toNat size || decide (512 ≤ p.toNat)) = true := by rw [decide_eq_true past, Bool.or_true]
    exact if_pos outside
  case ranges =>
    refine ⟨fun low high => same off size ?set, fun low high => same off size ?clear, fun low high => same off size ?toggle, fun low high => same off size ?primary,
      fun low high => same off size ?partner, fun low high bad => bar off size ?restBad, fun low high wide aligned => bar off size ?rest, fun low high => same off size ?counters,
      fun low high bad => bar off size ?fifoBad, fun low high wide aligned => bar off size ?fifoRest, fun low high four eight => bar off size ?doorbellBad,
      fun low small => bar off size ?reserved, fun low big => bar off size ?reservedBad⟩
    case set => rw [barWrite_alias low (by omega), show o / 0x10000 = 1 by omega]
    case clear => rw [barWrite_alias (by omega) (by omega), show o / 0x10000 = 2 by omega]
    case toggle => rw [barWrite_alias (by omega) high, show o / 0x10000 = 3 by omega]
    case primary => rw [barWrite_guardPrimary low high, show 0x8000 + o % 0x800 = o by omega]
    case partner => rw [barWrite_guardPartner low high, show 0x8800 + o % 0x800 = o by omega]
    case restBad => rw [barWrite_rest low high, bad64_of bad, if_pos rfl]
    case rest => rw [barWrite_rest low high, wide, bad64_aligned aligned, if_neg (by decide)]
    case counters => rw [barWrite_counter low high, show o - 0x50000 = o % 0x10000 by omega]
    case fifoBad => rw [barWrite_fifo (by omega) high, bad64_of bad, if_pos rfl]
    case fifoRest => rw [barWrite_fifo (by omega) high, wide, bad64_aligned aligned, if_neg (by decide), if_neg (by omega)]
    case doorbellBad =>
      have width : (!((size = 4 && o % 4 = 0) || (size = 8 && o % 8 = 0))) = true := by
        simp only [Bool.not_eq_true', Bool.or_eq_false_iff, Bool.and_eq_false_iff, decide_eq_false_iff_not]
        exact ⟨not_and_or.mp four, not_and_or.mp eight⟩
      rw [barWrite_doorbell low high, if_pos width]
    case reserved =>
      have short : ¬8 < size.toNat := by simpa [BitVec.le_def] using small
      rw [barWrite_reserved low, if_neg short]
    case reservedBad =>
      have long : 8 < size.toNat := by simpa [BitVec.lt_def] using big
      rw [barWrite_reserved low, if_pos long]
  case doorbells =>
    have width (o : Nat) (aligned : o % 8 = 0) : ¬(!((size = 4 && o % 4 = 0) || (size = 8 && o % 8 = 0))) = true := by
      rcases isSize with rfl | rfl <;> simp <;> omega
    refine ⟨fun n => ?_, same 0x40100 size ?_⟩
    · have place := n.isLt
      have sq : (0x40000 + 16 * n.setWidth 20 : BitVec 20).toNat = 0x40000 + 16 * n.toNat := by
        simp only [BitVec.toNat_add, BitVec.toNat_mul, BitVec.toNat_setWidth, show BitVec.toNat (16 : BitVec 20) = 16 from rfl,
          show BitVec.toNat (0x40000 : BitVec 20) = 0x40000 from rfl]
        omega
      have cq : (0x40008 + 16 * n.setWidth 20 : BitVec 20).toNat = 0x40008 + 16 * n.toNat := by
        simp only [BitVec.toNat_add, BitVec.toNat_mul, BitVec.toNat_setWidth, show BitVec.toNat (16 : BitVec 20) = 16 from rfl,
          show BitVec.toNat (0x40008 : BitVec 20) = 0x40008 from rfl]
        omega
      refine ⟨same _ size ?_, same _ size ?_⟩
      · rw [sq, barWrite_doorbell (by omega) (by omega), if_neg (width _ (by omega)), if_pos (by simp; omega), if_pos (by omega),
          show (0x40000 + 16 * n.toNat - 0x40000) / 16 = n.toNat by omega]
      · rw [cq, barWrite_doorbell (by omega) (by omega), if_neg (width _ (by omega)), if_pos (by simp; omega), if_neg (by omega),
          show (0x40008 + 16 * n.toNat - 0x40000) / 16 = n.toNat by omega]
    · exact (barWrite_doorbell (by decide) (by decide)).trans ((if_neg (width 0x40100 (by decide))).trans ((if_neg (by decide)).trans (if_pos rfl)))
  case aliasKey =>
    intro key s' is
    have locked (k : Nat) : aliasAccess k (o % 0x10000) v 8 s = s' := by
      rw [key, is]
      rfl
    exact ⟨row (locked 1), row (locked 2), row (locked 3)⟩
  case aliasBad =>
    have misses : size ≠ 8 ∨ o % 0x10000 % 8 ≠ 0 := bad.imp_right fun odd => by omega
    have refused (k : Nat) : aliasAccess k (o % 0x10000) v size s = badAccess s := by
      rw [aliasAccess, bad64_of misses, if_pos rfl]
    exact ⟨row (refused 1), row (refused 2), row (refused 3)⟩
  case aliasRw =>
    intro a aligned noKey unguarded writes old w
    have bits (k : Nat) := aliasBits k a noKey aligned unguarded writes
    refine ⟨fun unlocked => ?_, fun locked => ?_⟩
    · have writes (k : Nat) := (bits k).trans (if_neg (ne_true_of_eq_false unlocked))
      exact ⟨row (writes 1), row (writes 2), row (writes 3)⟩
    · have refused (k : Nat) := (bits k).trans (if_pos locked)
      exact ⟨row (refused 1), row (refused 2), row (refused 3)⟩
  case aliasNone =>
    intro a aligned noKey none
    have ignored (k : Nat) : aliasAccess k a v 8 s = s := by
      rw [aliasAccess, bad64_aligned aligned, if_neg (by decide), aliasWrite_none noKey none]
    exact ⟨row (ignored 1), row (ignored 2), row (ignored 3)⟩
  case guarded =>
    intro a
    have partner : 0x8800 + o % 0x800 - 0x800 = a := by omega
    refine ⟨fun isReg => row ?_, fun noReg aligned => row ?_, fun size bad => ⟨row ?_, row ?_⟩, fun aligned idle => row ?_,
      fun po pv tm aligned pending => ⟨fun same inverse inTime => row ?_, fun late => row ?_⟩⟩
    · have aligned : a % 8 = 0 := by rcases guardedReg_iff.mp isReg with is | is | is <;> rw [is]
      rw [guardPrimary, if_neg (ne_true_of_eq_false (bad64_aligned aligned)), if_pos isReg, dropPending_time]
      rfl
    · have aligned : a % 8 = 0 := by omega
      rw [guardPrimary, if_neg (ne_true_of_eq_false (bad64_aligned aligned)), if_neg (ne_true_of_eq_false noReg)]
      rfl
    · have misses : size ≠ 8 ∨ a % 8 ≠ 0 := bad.imp_right fun odd => by omega
      exact if_pos (bad64_of misses)
    · have misses : size ≠ 8 ∨ (0x8800 + o % 0x800) % 8 ≠ 0 := bad.imp_right fun odd => by omega
      exact if_pos (bad64_of misses)
    · have whole : bad64 (0x8800 + o % 0x800) 8 = false := bad64_aligned (by omega)
      change guardPartner (0x8800 + o % 0x800) v 8 s = _
      simp only [guardPartner, whole, idle, partner, Bool.false_eq_true, if_false]
    · have whole : bad64 (0x8800 + o % 0x800) 8 = false := bad64_aligned (by omega)
      have fits : (decide (po.toNat + 0x800 = 0x8800 + o % 0x800) && decide (v = ~~~pv) && decide ((s.ao.time - tm).toNat ≤ 252)) = true := by
        rw [decide_eq_true (show po.toNat + 0x800 = 0x8800 + o % 0x800 by omega), decide_eq_true inverse, decide_eq_true inTime]
        rfl
      change guardPartner (0x8800 + o % 0x800) v 8 s = _
      simp only [guardPartner, whole, pending, fits, ← same, Bool.false_eq_true, if_false, if_true]
    · have whole : bad64 (0x8800 + o % 0x800) 8 = false := bad64_aligned (by omega)
      have misfits : (decide (po.toNat + 0x800 = 0x8800 + o % 0x800) && decide (v = ~~~pv) && decide ((s.ao.time - tm).toNat ≤ 252)) = false := by
        rcases late with other | wrong | late
        · rw [decide_eq_false (show ¬po.toNat + 0x800 = 0x8800 + o % 0x800 by omega)]
          rfl
        · rw [decide_eq_false wrong, Bool.and_false, Bool.false_and]
        · rw [decide_eq_false (Nat.not_le.mpr late), Bool.and_false]
      change guardPartner (0x8800 + o % 0x800) v 8 s = _
      simp only [guardPartner, whole, pending, misfits, Bool.false_eq_true, if_false]
  case bar2 =>
    intro e word
    have entry := n.isLt
    have placed (k : BitVec 14) (low : k.toNat < 16) (aligned : k.toNat % 4 = 0) {t : State} (effect : tableWord (16 * n.toNat + k.toNat) (bits v 31 0) s = t) :
        word k = .next t := by
      refine row ?_
      rw [tableOff n k low, bar2Write_word (by omega) (by omega), effect]
    have entryOf (k : Nat) (low : k < 16) : (16 * n.toNat + k) / 16 = n.toNat ∧ (16 * n.toNat + k) % 16 = k := by omega
    refine ⟨placed 0 (by decide) (by decide) ?_, placed 4 (by decide) (by decide) ?_, placed 8 (by decide) (by decide) ?_, fun masked => placed 12 (by decide) (by decide) ?_,
      fun clear => placed 12 (by decide) (by decide) ?_⟩
    · obtain ⟨index, place⟩ := entryOf 0 (by decide)
      change tableWord (16 * n.toNat + 0) _ s = _
      simp only [tableWord, index, place, if_true, toNat_bits]
      rfl
    · obtain ⟨index, place⟩ := entryOf 4 (by decide)
      change tableWord (16 * n.toNat + 4) _ s = _
      simp only [tableWord, index, place, Nat.reduceEqDiff, if_false, if_true, toNat_bits]
      rfl
    · obtain ⟨index, place⟩ := entryOf 8 (by decide)
      change tableWord (16 * n.toNat + 8) _ s = _
      simp only [tableWord, index, place, Nat.reduceEqDiff, if_false, if_true]
      rfl
    · obtain ⟨index, place⟩ := entryOf 12 (by decide)
      change tableWord (16 * n.toNat + 12) _ s = _
      simp only [tableWord, index, place, bit_bits, masked, Nat.reduceEqDiff, if_false, if_true]
    · obtain ⟨index, place⟩ := entryOf 12 (by decide)
      change tableWord (16 * n.toNat + 12) _ s = _
      simp only [tableWord, index, place, bit_bits, clear, Nat.reduceEqDiff, Bool.false_eq_true, if_false]

end Sys2Proof.Machine
end

section
/-! O47, O50: doorbells, the queues in host memory, the message FIFOs and the test access port. -/
namespace Sys2Proof.Machine

/-- Settles O47: each clause is the row's branch for its state. -/
theorem queuesMoveEntriesAndCompletions : Obligations.QueuesMoveEntriesAndCompletions := by
  intro n v s on d3 q t
  have row {t u : State} (effect : t = u) : (Host.Outcome.next (ctl s t) : Ans) = .next u := congrArg Host.Outcome.next ((ctl_on on d3).trans effect)
  refine ⟨fun exists_ inside stays => row ?sq, fun exists_ inside => row ?cq, fun bound inside => row ?eq, fun gone => ⟨row ?_, row ?_⟩, fun e may turn => ?fetch,
    fun c rest waits runs room => ?completion, fun perr e rest staged runs bound room => ?event⟩
  case sq =>
    have ok : (!q.on || !inRing q.sqN q.sqTail ((q.sqHead + q.sqN - 1) % q.sqN) t) = false := by rw [exists_, inside]; rfl
    exact (if_neg (ne_true_of_eq_false ok)).trans (if_neg (ne_true_of_eq_false stays))
  case cq =>
    have ok : (!q.on || !inRing q.cqN q.cqHead q.cqTail t) = false := by rw [exists_, inside]; rfl
    exact if_neg (ne_true_of_eq_false ok)
  case eq =>
    have ok : (!s.cp.eqOn || !inRing s.cp.eqN s.cp.eqHead s.cp.eqTail t) = false := by rw [bound, inside]; rfl
    exact if_neg (ne_true_of_eq_false ok)
  · have bad : (!q.on || !inRing q.sqN q.sqTail ((q.sqHead + q.sqN - 1) % q.sqN) t) = true := by rw [gone]; rfl
    exact if_pos bad
  · have bad : (!q.on || !inRing q.cqN q.cqHead q.cqTail t) = true := by rw [gone]; rfl
    exact if_pos bad
  case fetch =>
    intro u m behind
    have next : nextFrom s n.toNat = true := by
      rw [nextFrom, decide_eq_true n.isLt, may, turn]; rfl
    have first : ¬(!nextFrom s n.toNat) = true := by rw [next]; decide
    refine ⟨fun taken => congrArg Host.Outcome.next ?_, fun undefined_ alone => congrArg Host.Outcome.next ?_, congrArg Host.Outcome.next ?_⟩
    · have joins : (definedOps.contains (nbits e 7 0) || behind) = true := by simpa using taken
      exact (if_neg first).trans ((if_neg (by decide)).trans (if_pos joins))
    · have ends : ¬(definedOps.contains (nbits e 7 0) || behind) = true := by rw [undefined_, alone]; decide
      exact (if_neg first).trans ((if_neg (by decide)).trans (if_neg ends))
    · exact (if_neg first).trans (if_pos (by decide))
  case completion =>
    intro u
    have goes : (s.off || s.dmaOff || !(s.qp n.toNat).cqRoom) = false := by rw [on, runs, show (s.qp n.toNat).cqRoom = true from room]; rfl
    have waiting : (s.qp n.toNat).waiting = c :: rest := waits
    refine congrArg Host.Outcome.next ?_
    simp only [waiting, goes, Bool.false_eq_true, if_false, Bool.not_true]
    rfl
  case event =>
    intro p u
    have goes : (s.off || s.dmaOff || !s.cp.eqOn || decide ((s.cp.eqTail + 1) % s.cp.eqN = s.cp.eqHead)) = false := by
      rw [on, runs, bound, decide_eq_false room]; rfl
    refine congrArg Host.Outcome.next ?_
    simp only [staged, goes, Bool.false_eq_true, if_false, Bool.not_true]
    rfl

/-- Settles O50: each clause is the row's branch for its state. -/
theorem fifosAndTestPortActAsTheirTables : Obligations.FifosAndTestPortActAsTheirTables := by
  intro v s on d3
  have row {t u : State} (effect : t = u) : (Host.Outcome.next (ctl s t) : Ans) = .next u := congrArg Host.Outcome.next ((ctl_on on d3).trans effect)
  refine ⟨fun room => row (if_pos room), fun full => row (if_neg (Nat.not_lt.mpr full)), fun w rest held runs => ?take, fun empty perr => row ?none,
    fun w rest held => ⟨row ?good, row ?bad⟩, fun ins => ⟨fun known => congrArg Host.Outcome.next ?tap, fun unknown_ => congrArg Host.Outcome.next ?bypass⟩,
    fun t => ⟨fun acts => ?acts, fun low high running => ?idle⟩⟩
  case take =>
    have goes : ¬(s.off || !s.boot.fwRun) = true := by rw [on, runs]; decide
    exact ⟨congrArg Host.Outcome.next (by simp only [held, if_neg goes, Bool.false_eq_true, if_false]), congrArg Host.Outcome.next (by simp only [held, if_neg goes, if_true])⟩
  case none => simp only [evfRead, empty]
  case good => simp only [evfRead, held, Bool.false_eq_true, if_false]
  case bad => simp only [evfRead, held, if_true]
  case tap =>
    have ok : (decide (ins = 7) || (decide (ins = 6) && !s.keys.tapOpen)) = false := by
      rcases known with low | ⟨rfl, open_⟩
      · rw [decide_eq_false (show ins ≠ 7 by rintro rfl; exact absurd low (by decide)), decide_eq_false (show ins ≠ 6 by rintro rfl; exact absurd low (by decide))]
        rfl
      · rw [open_]; rfl
    rw [ok]
    rfl
  case bypass =>
    have closed : (decide (ins = 7) || (decide (ins = 6) && !s.keys.tapOpen)) = true := by
      rcases unknown_ with rfl | ⟨rfl, shut⟩
      · rfl
      · rw [shut]; rfl
    rw [closed]
    rfl
  case acts =>
    have plain : (decide (3 ≤ t.ao.tap.toNat) && decide (t.ao.tap.toNat < 6) && !t.ao.inReset) = false := by
      rcases acts with low | six | reset
      · rw [decide_eq_false (Nat.not_le.mpr low)]; rfl
      · rw [six]; rfl
      · rw [reset, Bool.not_true, Bool.and_false]
    exact if_neg (ne_true_of_eq_false plain)
  case idle =>
    have extest : (decide (3 ≤ t.ao.tap.toNat) && decide (t.ao.tap.toNat < 6) && !t.ao.inReset) = true := by
      rw [decide_eq_true low, decide_eq_true high, running]; rfl
    exact if_pos extest

end Sys2Proof.Machine
end

section
/-! O51: the recorder's rows. -/
namespace Sys2Proof.Machine

/-- A spilled line is due (R491): full, or what is left of a stopped recording. -/
def spillDue (s : State) : Prop := (s.recording = true ∧ 128 ≤ s.rec_.staging.length) ∨ (s.recording = false ∧ s.rec_.st = 3 ∧ s.rec_.staging ≠ [])
theorem spillDue_iff {s : State} : spillDue s ↔
    (!(s.recording || decide (s.rec_.st = 3)) || s.rec_.staging.isEmpty || (s.recording && decide (s.rec_.staging.length < 128))) = false := by
  unfold spillDue
  cases run : s.recording with
  | true => cases staging : s.rec_.staging <;> simp
  | false => simp

section
variable {ok perr : Bool} {s : State}
theorem spill_idle (idle : ¬spillDue s) : spill ok perr s = s := by
  rw [spillDue_iff, Bool.not_eq_false] at idle
  exact if_pos idle
theorem spill_full (due : spillDue s) (wrap : bit s.rec_.cfg 2 = false) (full : s.rec_.limit ≤ s.rec_.lines) :
    spill ok perr s = recStop 1 { s with rec_.staging := [] } := by
  have stop : (!bit s.rec_.cfg 2 && decide (s.rec_.limit ≤ s.rec_.lines)) = true := by rw [wrap, decide_eq_true full]; rfl
  exact (if_neg (ne_true_of_eq_false (spillDue_iff.mp due))).trans (if_pos stop)
theorem spill_failed (due : spillDue s) (room : bit s.rec_.cfg 2 = true ∨ s.rec_.lines < s.rec_.limit)
    (bad : ¬(ok = true ∧ traceOk (s.region s.rec_.region) = true ∧ deadAt s (spillLine s) = false)) :
    spill ok perr s = recStop 3 (logErr 0x0022 3 2 (s.farOf (spillLine s)).1 0 (spillLine s).toNat (if deadAt s (spillLine s) then 2 else 0)
      (cntErr 9 1 { s with rec_.staging := [] })) := by
  have goes : (!bit s.rec_.cfg 2 && decide (s.rec_.limit ≤ s.rec_.lines)) = false := by
    rcases room with wrap | below
    · rw [wrap]; rfl
    · rw [decide_eq_false (Nat.not_le.mpr below), Bool.and_false]
  have fails : (!ok || !traceOk (s.region s.rec_.region) || deadAt s (spillLine s)) = true := by
    by_contra works
    simp only [Bool.not_eq_true, Bool.or_eq_false_iff, Bool.not_eq_false'] at works
    obtain ⟨⟨ok_, trace⟩, alive⟩ := works
    exact bad ⟨ok_, trace, alive⟩
  exact (if_neg (ne_true_of_eq_false (spillDue_iff.mp due))).trans ((if_neg (ne_true_of_eq_false goes)).trans (if_pos fails))

/-- The state that a spilled line leaves. -/
def spilled (perr : Bool) (s : State) : State :=
  { (if perr then logSram 11 5 0 0 s else s) with
    rec_.staging := (if perr then logSram 11 5 0 0 s else s).rec_.staging.drop 128, rec_.lines := s.rec_.lines + 1, rec_.units := s.rec_.units + 8
    rec_.poisoned := s.rec_.poisoned + b2n perr }.put (.trace (spillLine s) (slice0 s.rec_.staging 0 128) perr)
/-- A parity error of the staging leaves the trace where it stands. -/
theorem parity_work (perr : Bool) (s : State) : (if perr then logSram 11 5 0 0 s else s).work = s.work := by
  rw [apply_ite State.work, logSram_work, ite_self]
theorem spillLine_of_work {s t : State} (h : t.work = s.work) : spillLine t = spillLine s :=
  congrArg (fun w : Work => BitVec.ofNat 40 (Rg.base (NMap.get 0 w.regions w.trace.1) + (if bit w.trace.2.1 2 then w.trace.2.2.1 % w.trace.2.2.2 else w.trace.2.2.1))) h
theorem spill_line (due : spillDue s) (good : ok = true ∧ traceOk (s.region s.rec_.region) = true ∧ deadAt s (spillLine s) = false)
    (room : bit s.rec_.cfg 2 = true ∨ s.rec_.lines < s.rec_.limit) :
    spill ok perr s = if !bit s.rec_.cfg 2 && decide (s.rec_.limit ≤ s.rec_.lines + 1) then recStop 1 (spilled perr s) else spilled perr s := by
  obtain ⟨ok_, trace, alive⟩ := good
  have goes : (!bit s.rec_.cfg 2 && decide (s.rec_.limit ≤ s.rec_.lines)) = false := by
    rcases room with wrap | below
    · rw [wrap]; rfl
    · rw [decide_eq_false (Nat.not_le.mpr below), Bool.and_false]
  have works : (!ok || !traceOk (s.region s.rec_.region) || deadAt s (spillLine s)) = false := by rw [ok_, trace, alive]; rfl
  have same := parity_work perr s
  have limit : (if perr then logSram 11 5 0 0 s else s).rec_.limit = s.rec_.limit := congrArg (fun w : Work => w.trace.2.2.2) same
  refine (if_neg (ne_true_of_eq_false (spillDue_iff.mp due))).trans ((if_neg (ne_true_of_eq_false goes)).trans ((if_neg (ne_true_of_eq_false works)).trans ?_))
  have line := spillLine_of_work same
  unfold spilled
  generalize (if perr then logSram 11 5 0 0 s else s) = u at line limit
  rw [← line, ← limit]
  rfl
end

/-- Settles O51: each clause is the row's branch for its state. -/
theorem recorderRowsCaptureAndReplay : Obligations.RecorderRowsCaptureAndReplay := by
  intro s on
  refine ⟨fun waits idle => next_act on ?_, fun waits => next_act on (if_pos waits), fun ok perr mode => ?spill, fun replays ok perr => next_act on (if_pos replays),
    fun b replays => next_act on ?_, fun b replays => ?replay⟩
  · have starts : (s.quiescing && slicesIdle s) = true := by rw [waits, idle]; rfl
    exact if_pos starts
  case spill =>
    intro due wrap good u v
    have spills {t : State} (effect : spill ok perr s = t) : exec (.recSpillWrite ok perr) s = .next (rowEnd s t) := next_act on ((if_neg mode).trans effect)
    refine ⟨fun idle => spills (spill_idle idle), fun due works room => spills ?_, fun due works wraps last => spills ?_,
      fun due wraps full => spills (spill_full due wraps full), fun due fails room => spills (spill_failed due room fails)⟩
    · have below : wrap = true ∨ s.rec_.lines < s.rec_.limit := room.imp_right Nat.lt_of_succ_lt
      have more : (!wrap && decide (s.rec_.limit ≤ s.rec_.lines + 1)) = false := by
        rcases room with wraps | below
        · rw [wraps]; rfl
        · rw [decide_eq_false (Nat.not_le.mpr below), Bool.and_false]
      exact (spill_line due works below).trans (if_neg (ne_true_of_eq_false more))
    · have ends : (!wrap && decide (s.rec_.limit ≤ s.rec_.lines + 1)) = true := by
        rw [wraps, decide_eq_true (Nat.le_of_eq last.symm)]; rfl
      exact (spill_line due works (.inr (by omega))).trans (if_pos ends)
  · exact (if_neg (not_not_intro replays)).trans (if_pos rfl)
  case replay =>
    intro u
    have replayed : replayCycle b true s = if (decide (u.mode ≠ 4) || decide (u.rec_.rLeft ≠ 0)) = true then u
        else match u.rec_.rOut with | x :: _ => diverge x.1 2 (0, 0) x.2 u | [] => replayEnd 0 u := by
      refine (if_neg (not_not_intro replays)).trans ((if_neg (by decide)).trans ?_)
      rfl
    have replays {t : State} (effect : replayCycle b true s = t) : exec (.replayCycle b true) s = .next (rowEnd s t) := next_act on effect
    clear_value u
    refine ⟨fun goesOn => replays ?_, fun mode done none => replays ?_, fun x rest mode done left => replays ?_⟩
    · have stays : (decide (u.mode ≠ 4) || decide (u.rec_.rLeft ≠ 0)) = true := by simpa using goesOn
      exact replayed.trans (if_pos stays)
    · have ends : ¬(decide (u.mode ≠ 4) || decide (u.rec_.rLeft ≠ 0)) = true := by simp [mode, done]
      rw [replayed, if_neg ends, none]
    · have ends : ¬(decide (u.mode ≠ 4) || decide (u.rec_.rLeft ≠ 0)) = true := by simp [mode, done]
      rw [replayed, if_neg ends, left]

end Sys2Proof.Machine
end

section
/-! O43, O45: votes, the mirror and the watchdog; the rows of booting and of the boot flash. -/
namespace Sys2Proof.Machine

/-- A copy of a triplicated field differs from the vote of the others, or is of a field whose differing copy is the one named (R363). -/
theorem voteOne_eq (f : Nat) (v : BitVec 64) (s : State) : voteOne f v s = if (f = 0 ∧ s.trip.mode.vote 0 ≠ v.setWidth 3) ∨
    (f = 1 ∧ s.trip.lock.vote 0 ≠ v.setWidth 1) ∨ (f = 2 ∧ s.trip.freeze.vote 0 ≠ v.setWidth 5) ∨ (f = 3 ∧ s.trip.budget.vote 0 ≠ v.setWidth 13) ∨
    (f = 4 ∧ s.trip.pfw.vote 0 ≠ v.setWidth 64) ∨ (f = 5 ∧ s.trip.key.vote 0 ≠ v.setWidth 3) ∨ f = 6 ∨ f = 7 then voteFixed f s else s := by
  obtain small | large : f < 8 ∨ 8 ≤ f := Nat.lt_or_ge f 8
  · interval_cases f <;> simp [voteOne]
  · have apart (k : Nat) (low : k < 8) : f ≠ k := by omega
    simp [voteOne, apart, large]

/-- Settles O43: each clause is the row's branch for its state. -/
theorem votesMirrorAndWatchdogAct : Obligations.VotesMirrorAndWatchdogAct := by
  intro s on
  have running : ¬s.mode = 0 := mode_ne_zero on
  refine ⟨fun f i v => ⟨congrArg Host.Outcome.next (if_neg running), ?one, ?all⟩, congrArg Host.Outcome.next (if_neg (ne_true_of_eq_false on)), fun runs => next_act on ?watchdog,
    fun test => next_act on rfl⟩
  case one =>
    intro differs
    have votes {t : State} (effect : voteOne f v s = t) : exec (.aoVote (.one f i v)) s = .next (rowEnd s t) :=
      (congrArg Host.Outcome.next (if_neg running)).trans (next_act on effect)
    exact ⟨fun d => votes ((voteOne_eq f v s).trans (if_pos d)), fun d => votes ((voteOne_eq f v s).trans (if_neg d))⟩
  case all =>
    intro u w
    have votes {t : State} (effect : voteAll f i s = t) : exec (.aoVote (.all f i)) s = .next (rowEnd s t) :=
      (congrArg Host.Outcome.next (if_neg running)).trans (next_act on effect)
    refine ⟨?mode, ?txn, ?noTxn, fun none => votes (if_pos none), ?lock, ?freeze, ?budget, ?pfw, ?key, ?region⟩
    case mode =>
      rintro rfl
      refine votes ((if_neg (by decide)).trans ((if_pos rfl).trans ?_))
      change (if (decide (w.mode = 2) || decide (w.mode = 3) || decide (w.mode = 4)) = true then drainCause 1 7 w else w) = _
      simp only [Bool.or_eq_true, decide_eq_true_eq, or_assoc]
    case txn =>
      rintro rfl sl t found
      refine votes ?_
      simp only [voteAll, Nat.reduceLeDiff, OfNat.ofNat_ne_zero, Nat.reduceEqDiff, if_false, if_true]
      rw [show txnAny (logErr 0x0014 5 6 0 0 0 6 s) i = some (sl, t) from found]
    case noTxn =>
      rintro rfl found
      refine votes ?_
      simp only [voteAll, Nat.reduceLeDiff, OfNat.ofNat_ne_zero, Nat.reduceEqDiff, if_false, if_true]
      rw [show txnAny (logErr 0x0014 5 6 0 0 0 6 s) i = none from found]
    case lock =>
      rintro rfl
      exact votes ((if_neg (by decide)).trans ((if_neg (by decide)).trans (if_pos rfl)))
    case freeze =>
      rintro rfl
      exact votes ((if_neg (by decide)).trans ((if_neg (by decide)).trans ((if_neg (by decide)).trans (if_pos rfl))))
    case budget =>
      rintro rfl
      exact votes ((if_neg (by decide)).trans ((if_neg (by decide)).trans ((if_neg (by decide)).trans ((if_neg (by decide)).trans (if_pos rfl)))))
    case pfw =>
      rintro rfl
      refine votes ?_
      simp only [voteAll, Nat.reduceLeDiff, OfNat.ofNat_ne_zero, OfNat.ofNat_ne_one, Nat.reduceEqDiff, if_false, if_true]
      rfl
    case key =>
      rintro rfl
      refine votes ?_
      simp only [voteAll, Nat.reduceLeDiff, OfNat.ofNat_ne_zero, OfNat.ofNat_ne_one, Nat.reduceEqDiff, if_false, if_true]
      rfl
    case region =>
      rintro rfl
      refine votes ?_
      simp only [voteAll, Nat.reduceLeDiff, OfNat.ofNat_ne_zero, OfNat.ofNat_ne_one, Nat.reduceEqDiff, if_false]
      rfl
  case watchdog =>
    have goes : ¬(!s.boot.fwRun) = true := by rw [runs]; decide
    exact if_neg goes

/-- The image the ROM finds runs, where the firmware may start at all and this is no first boot (R455, R456). -/
theorem firmwareStart_runs {s : State} {slot : Nat} (identOk sealOk : Bool) (kat : BitVec 8) (runs : s.boot.fwRun = false) (halted : s.boot.halted = false)
    (recovery : s.boot.recovery = false) (first : s.ao.firstBoot = false) (picked : pickSlot s = some slot) :
    firmwareStart true identOk sealOk kat s = firmwareRuns slot identOk sealOk kat s := by
  simp only [firmwareStart, runs, halted, recovery, first, picked, Bool.or_self, Bool.false_eq_true, Bool.not_true, Bool.false_and, if_false]
/-- A ROM that fails its own check halts a cold start (R455). -/
theorem firmwareStart_halts {s : State} (identOk sealOk : Bool) (kat : BitVec 8) (runs : s.boot.fwRun = false) (halted : s.boot.halted = false)
    (recovery : s.boot.recovery = false) (cold : s.boot.start = 0) : firmwareStart false identOk sealOk kat s = { s with boot.halted := true } := by
  simp only [firmwareStart, runs, halted, recovery, cold, Bool.or_self, Bool.false_eq_true, Bool.not_false, decide_true, Bool.and_self, if_false, if_true]

/-- A far port whose enumeration of R455 step 7 goes on in BOOT. -/
def Enumerates (s : State) (f : Nat) : Prop :=
  s.mode = 1 ∧ s.boot.cold = false ∧ f < s.nFar ∧ (s.farP f).enable = true ∧ (s.farP f).active = false ∧ (s.farP f).dead = false
/-- The rows of an enumeration pass their guard where it goes on. -/
theorem Enumerates.guard {s : State} {f : Nat} (h : Enumerates s f) :
    ¬(decide (s.mode ≠ 1) || s.boot.cold || decide (s.nFar ≤ f) || !(s.farP f).enable || (s.farP f).active || (s.farP f).dead) = true := by
  obtain ⟨mode, cold, port, enable, active, dead⟩ := h
  rw [mode, cold, decide_eq_false (Nat.not_le.mpr port), enable, active, dead]
  decide

/-- A drain that no operation in BOOT holds up is left alone (R326). -/
theorem bootDrain_none {s : State} (h : s.boot.drainInBoot = false) : bootDrain s = s := by
  rw [bootDrain, h]
  exact if_neg (by simp)
/-- An operation of the oldest job that is not its last only counts (R457). -/
theorem flashDone_more {s : State} {j : FlashJob} {rest : List FlashJob} (ok : Bool) (job : s.boot.flash = j :: rest) (undrained : s.boot.drainInBoot = false)
    (more : 1 < j.left) : flashDone ok s = { s with boot.flash := { j with left := j.left - 1, bad := j.bad || !ok } :: rest } := by
  have left : j.left - 1 ≠ 0 := by omega
  simp only [flashDone, job]
  exact (if_pos left).trans (bootDrain_none undrained)
/-- The last operation of a job that keeps nothing for the health page ends its command (R457). -/
theorem flashDone_last {s : State} {j : FlashJob} {rest : List FlashJob} (ok : Bool) (job : s.boot.flash = j :: rest) (last : j.left = 1)
    (keep : j.keep = none) : flashDone ok s = bootDrain (jobEnd { j with left := 0, bad := j.bad || !ok } { s with boot.flash := rest }) := by
  obtain ⟨own, left, bad, kept⟩ := j
  cases last
  cases keep
  simp only [flashDone, job]
  rfl

/-- Settles O45: each clause is the row's branch for its state. -/
theorem bootRowsBringTheHubUp : Obligations.BootRowsBringTheHubUp := by
  intro s on
  refine ⟨fun identOk sealOk kat slot runs halted recovery first picked => next_act on (firmwareStart_runs identOk sealOk kat runs halted recovery first picked),
    fun identOk sealOk kat runs halted recovery cold => next_act on (firmwareStart_halts identOk sealOk kat runs halted recovery cold),
    ?training, ?active, ?recovered, ?exit, fun warm => next_act on (if_pos warm), fun ok j rest job undrained => ⟨?more, ?last⟩⟩
  case training =>
    intro trained dense rate mode warm untrained
    have goes : ¬(decide (s.mode ≠ 1) || s.boot.cold || s.cache.trained) = true := by
      rw [mode, warm, untrained]
      decide
    exact next_act on (if_neg goes)
  case active =>
    intro fp cap gpf dur dirty f alone mode cold port enable active dead
    have goes := Enumerates.guard ⟨mode, cold, port, enable, active, dead⟩
    refine ⟨next_act on ?_, next_act on ?_, fun e => next_act on ?_⟩ <;> rw [alone] <;> exact if_neg goes
  case recovered =>
    intro fp cap gpf dur dirty g command
    refine ⟨fun quiet => next_act on ?_, fun e => next_act on ?_⟩ <;> rw [command]
    exact if_pos quiet
  case exit =>
    intro mode ready free
    have goes : (decide (s.mode = 1) && exitReady s && !holdInBoot s) = true := by rw [decide_eq_true mode, ready, free]; rfl
    exact next_act on (if_pos goes)
  case more => exact fun more => next_act on (flashDone_more ok job undrained more)
  case last =>
    rintro last keep u rfl settled
    exact next_act on ((flashDone_last ok job last keep).trans (bootDrain_none settled))

end Sys2Proof.Machine
end

section
/-! O44: the rows of RESET_N and of the AO supply. -/
namespace Sys2Proof.Machine

/-- A map filled by a rule for its first keys gives the rule's value at each of them. -/
theorem NMap.get_fill {β : Type} [DecidableEq β] (d : β) (g : Nat → β) (n k : Nat) :
    NMap.get d ((List.range n).foldl (fun m p => NMap.set d m p (g p)) []) k = if k < n then g k else d := by
  induction n with
  | zero => rfl
  | succ n ih =>
    rw [List.range_succ, List.foldl_append, List.foldl_cons, List.foldl_nil]
    by_cases last : k = n
    · rw [last, NMap.get_set_self, if_pos (Nat.lt_succ_self n)]
    · rw [NMap.get_set_ne _ _ _ last, ih]
      exact if_congr (by omega) rfl rfl

/-! Posting an event leaves every part of the state but the registers, the control port and the outputs. -/
section
variable {β : Type} {part : State → β} (apart : ∀ s regs cp out, part { s with regs := regs, cp := cp, out := out } = part s)
include apart
theorem sendMsix_part (v : Nat) (s : State) : part (sendMsix v s) = part s := by
  unfold sendMsix
  split
  · exact apart ..
  split <;> exact apart ..
theorem setFifo_part (s : State) (e : Bool) (f : Fifo) : part (s.setFifo e f) = part s := by
  cases e <;> exact apart ..
theorem judgeFifo_part (e : Bool) (s : State) : part (judgeFifo e s) = part s := by
  simp only [judgeFifo, apply_ite part, sendMsix_part apart, setFifo_part apart, ite_self]
theorem overrunFifo_part (e : Bool) (s : State) : part (overrunFifo e s) = part s := by
  simp only [overrunFifo, apply_ite part, sendMsix_part apart, setFifo_part apart, ite_self]
theorem evfPush_part (typ : Byte) (pay : SWord) (s : State) : part (evfPush typ pay s) = part s := by
  simp only [evfPush, apply_ite part, judgeFifo_part apart, overrunFifo_part apart]
  split <;> exact apart ..
theorem postEvent_part (code : BitVec 16) (payload : List (Nat × Nat)) (s : State) : part (postEvent code payload s) = part s := by
  simp only [postEvent, apply_ite part, evfPush_part apart]
  split
  · rfl
  split <;> exact apart ..
end

/-- Entering BOOT takes back DRAIN_DONE and posts MODE_CHANGE (R327, R450). -/
theorem changeMode_boot (cause : Nat) (s : State) : changeMode 1 cause s =
    postEvent 0x0002 [(0, s.mode.toNat), (1, 1), (2, cause)] (writeMode 1 { s with ao.drainDone := false, boot.drainInBoot := false }) := rfl
/-- What the entry to BOOT leaves in force: the mode and DRAIN_DONE with the fields of the AO block, the lock, the regions and the ageing block. -/
theorem changeMode_boot_fields (cause : Nat) (s : State) : let t := changeMode 1 cause s
    t.mode = 1 ∧ t.ao = { s.ao with drainDone := false, modeMirror := 1 } ∧ t.locked = s.locked ∧ t.regions = s.regions ∧ t.age = s.age := by
  rw [changeMode_boot]
  refine ⟨(postEvent_part (fun _ _ _ _ => rfl) ..).trans ?_, (postEvent_part (fun _ _ _ _ => rfl) ..).trans ?_, (postEvent_part (fun _ _ _ _ => rfl) ..).trans ?_,
    (postEvent_part (part := State.regions) (fun _ _ _ _ => rfl) ..).trans rfl, (postEvent_part (part := State.age) (fun _ _ _ _ => rfl) ..).trans rfl⟩ <;> rfl

/-- What a reset of the hub leaves besides the AO block: the parts the reset clears stand at their reset values, the others hold what the boot
flash and the fuses keep (R472). A deferred ageing cycle is not spoken of. -/
def Cleared (s t : State) : Prop :=
  let r := State.reset
  let h := s.boot.health
  t.regions = [] ∧ t.slices = [] ∧ t.cache = r.cache ∧ t.pol = r.pol ∧ t.str = r.str ∧ t.drain = r.drain ∧ t.regl = r.regl ∧ t.rec_ = r.rec_ ∧
  t.regs = r.regs ∧ t.cp = r.cp ∧ t.cycle = r.cycle ∧ { t.links with ports := [], far := [] } = r.links ∧
  (∀ p, p < 12 → t.port p = { Port.init with marginLow := (s.port p).marginLow, rateCap := (s.port p).rateCap }) ∧
  (∀ f, f < 4 → t.farP f = { FarPort.init with rateCap := (s.farP f).rateCap }) ∧
  t.trip = { r.trip with mode := Trip.all 0, key := Trip.all (s.keys.stored.setWidth 3) } ∧
  t.err = { r.err with rlSets := h.rlSets, rlBanks := h.rlBanks, rlGen := h.rlGen, rlPop := h.rlPop } ∧
  t.keys = { s.keys with
    wiped := false, errState := false, testsOk := false, chal := [], chalOn := 0, roles := 0, fails := [], userPub := 0, userOn := false } ∧
  t.boot = { s.boot with
    fwRun := false, halted := false, recovery := false, fallback := false, running := 0, tested := [], polRefused := false, staged := 0
    configUse := none, dirtyCnt := h.dirty, flash := [], drainInBoot := false, cold := true, start := 0 } ∧
  { t.age with deferred := false, why := 0 } = { s.age with
    bin := s.age.binPlan, vid := 10, vidOn := false, measuring := false, why := 0, deferred := false, eyes := [], history := h.history
    hoursSaved := h.hours, throttled := 0 }

/-- A reset clears what its table does not keep, whatever it does to the AO block and to a deferred ageing cycle. -/
theorem cleared_resetState (s : State) (ao : Ao) (deferred : Bool) (why : Byte) :
    Cleared s { resetState s with ao := ao, age.deferred := deferred, age.why := why } := by
  refine ⟨rfl, rfl, rfl, rfl, rfl, rfl, rfl, rfl, rfl, rfl, rfl, rfl, fun p agent => ?_, fun f far => ?_, rfl, rfl, rfl, rfl, rfl⟩
  · exact (NMap.get_fill Port.init (fun p => { Port.init with marginLow := (s.port p).marginLow, rateCap := (s.port p).rateCap }) 12 p).trans (if_pos agent)
  · exact (NMap.get_fill FarPort.init (fun f => { FarPort.init with rateCap := (s.farP f).rateCap }) 4 f).trans (if_pos far)

/-- Settles O44: each row leaves `resetState` with its own AO block, and BOOT is entered from there. -/
theorem resetRowsKeepWhatTheirTableKeeps : Obligations.ResetRowsKeepWhatTheirTableKeeps := by
  intro s r h fresh
  have cleared : fresh = Cleared s := rfl
  clear_value fresh
  subst cleared
  refine ⟨fun released up => ⟨_, congrArg Host.Outcome.next ((if_neg (ne_true_of_eq_false released)).trans (if_neg (by rw [up]; decide))), ?_, rfl, rfl, rfl, rfl⟩, ?deassert,
    ?powerUp, fun up => ⟨_, congrArg Host.Outcome.next (if_neg (by rw [up]; decide)), cleared_resetState s _ _ _, rfl, rfl, rfl, rfl⟩, ?down,
    fun low => congrArg Host.Outcome.next (if_pos low), fun high => congrArg Host.Outcome.next (if_pos (by rw [high]; rfl)),
    fun up => congrArg Host.Outcome.next (if_pos up)⟩
  · exact cleared_resetState s _ _ _
  case deassert =>
    intro low up
    refine ⟨_, _, congrArg Host.Outcome.next ((if_neg (by rw [low]; decide)).trans (if_neg (by rw [up]; decide))), rfl, ?_, ?_, ?_, rfl⟩
    · exact (changeMode_boot_fields 0 _).1
    · rw [(changeMode_boot_fields 0 _).2.1]
      split
      · rfl
      · rw [postEvent_ao]
    · rw [(changeMode_boot_fields 0 _).2.1]
  case powerUp =>
    intro down
    let u := { resetState s with ao := aoPowerUp s.ao.inReset s.boot.health.hours, age.deferred := false, age.why := 0 }
    refine ⟨u, if s.ao.inReset then u else changeMode 1 0 u, congrArg Host.Outcome.next (if_neg (ne_true_of_eq_false down)), rfl,
      cleared_resetState s _ _ _, ?_, ?_, ?_, ?_, rfl⟩ <;> obtain ⟨mode, -, locked, regions, age⟩ := changeMode_boot_fields 0 u
    · rw [apply_ite State.mode, mode]
      rfl
    · rw [apply_ite State.locked, locked, ite_self]
      rfl
    · rw [apply_ite State.regions, regions, ite_self]
      rfl
    · rw [apply_ite State.age, age, ite_self]
  case down =>
    intro down
    refine ⟨congrArg Host.Outcome.next ?_, congrArg Host.Outcome.next ?_, congrArg Host.Outcome.next (if_pos (by rw [down]; rfl))⟩
    · by_cases low : s.ao.inReset = true
      · exact (if_pos low).trans (by rw [← low])
      · exact (if_neg low).trans (if_pos (by rw [down]; rfl))
    · by_cases low : s.ao.inReset = false
      · exact (if_pos (by rw [low]; rfl)).trans (by rw [← low])
      · exact (if_neg (by simpa using low)).trans (if_pos (by rw [down]; rfl))

end Sys2Proof.Machine
end

section
/-! O46: the resets of the control path, and what bus mastering, D3hot, an unmasked vector and QP0_ENABLE do. -/
namespace Sys2Proof.Machine

/-- The control port answers nothing while the hub is off (R403). -/
theorem next_live {s t u : State} (on : s.off = false) (effect : t = u) : (Host.Outcome.next (live s t) : Ans) = .next u :=
  congrArg Host.Outcome.next ((live_on on).trans effect)
/-- A memory request acts with the hub on and the control port out of D3hot (R403). -/
theorem next_ctl {s t u : State} (on : s.off = false) (awake : s.cp.d3 = false) (effect : t = u) : (Host.Outcome.next (ctl s t) : Ans) = .next u :=
  congrArg Host.Outcome.next ((ctl_on on awake).trans effect)
theorem ctl_off {s t : State} (off : s.off = true) : ctl s t = s := if_pos (by rw [off, Bool.true_or])

/-- The pair of a command taken before the reset exists no longer (R404). -/
theorem bit_lostPair (n : BitVec 5) : bit (lostPair n) 4 = true := by
  simp [bit, lostPair]
theorem pairOn_lost (s : State) (p : Packet) (lost : bit p.qp 4 = true) : s.pairOn p = false := by
  rw [State.pairOn, lost]
  rfl

/-- Every vector is masked at reset (R401). -/
theorem bit_masked (v : Nat) (h : v < 32) : bit (0xFFFFFFFF : BitVec 32) v = true := by
  interval_cases v <;> rfl

theorem resetControl_taken (s : State) : (resetControl s).cp.taken =
    (s.cp.taken.filter (fun t => definedOps.contains (nbits t.2 7 0))).map (fun t => (lostPair t.1, t.2)) := rfl
theorem resetControl_prog (s : State) : (resetControl s).cp.prog = (s.cp.prog.filter (fun g => g.op ≠ 0x02)).map Prog.lose := rfl
theorem resetControl_walks (s : State) : (resetControl s).cache.walks =
    s.cache.walks.map (fun k => { k with behind := k.behind.map (fun t => (lostPair t.1, t.2)) }) := rfl

/-- Settles O46. -/
theorem controlPathEventsActOnTheControlPath : Obligations.ControlPathEventsActOnTheControlPath := by
  intro s
  refine ⟨fun on => ⟨next_live on rfl, next_live on rfl, fun asleep => next_live on (if_pos asleep), fun awake => next_live on (if_neg (ne_true_of_eq_false awake))⟩,
    ?reset, fun off => ?off, fun on => ⟨next_live on (if_pos rfl), next_live on rfl, next_live on rfl, ?unmask, ?asleep, ?create, ?created⟩⟩
  case reset =>
    intro t r
    refine ⟨fun _ => rfl, rfl, rfl, fun v h => ⟨bit_masked v h, rfl⟩, rfl, fun x taken => ?_, fun x taken defined => ?_, fun g goes => ?_, fun g goes other => ?_, rfl, rfl, rfl,
      rfl, rfl, rfl, rfl, ?_, rfl, rfl, rfl, rfl, rfl, rfl, rfl, rfl, rfl, rfl⟩
    · rw [resetControl_taken] at taken
      obtain ⟨y, -, rfl⟩ := List.mem_map.mp taken
      exact pairOn_lost _ _ (bit_lostPair y.1)
    · rw [resetControl_taken]
      exact List.mem_map.mpr ⟨x, List.mem_filter.mpr ⟨taken, defined⟩, rfl⟩
    · rw [resetControl_prog] at goes
      obtain ⟨g', -, rfl⟩ := List.mem_map.mp goes
      exact pairOn_lost _ _ (bit_lostPair g'.p.qp)
    · rw [resetControl_prog]
      exact List.mem_map.mpr ⟨g, List.mem_filter.mpr ⟨goes, decide_eq_true other⟩, rfl⟩
    · rw [resetControl_walks, List.map_map]
      rfl
  case off =>
    have idle {t : State} : (Host.Outcome.next (live s t) : Ans) = .next s := congrArg Host.Outcome.next (live_off off)
    have quiet {t : State} : (Host.Outcome.next (ctl s t) : Ans) = .next s := congrArg Host.Outcome.next (ctl_off off)
    exact ⟨idle, idle, idle, idle, quiet, quiet, fun _ => idle, fun _ => quiet⟩
  case unmask => exact fun e awake => next_ctl on awake rfl
  case asleep =>
    intro asleep
    have quiet {t : State} : (Host.Outcome.next (ctl s t) : Ans) = .next s := congrArg Host.Outcome.next (ctl_d3 asleep)
    exact ⟨fun _ => quiet, fun _ _ => ⟨quiet, quiet, quiet, quiet, quiet, fun _ _ => quiet, fun _ _ => quiet⟩⟩
  case create =>
    intro awake disabled sq cq bad q
    have goes : ¬s.regs.qp0En = true := ne_true_of_eq_false disabled
    refine ⟨fun isBad => next_ctl on awake ((if_neg goes).trans (if_pos isBad)), fun good free => ?_, fun good busy => ?_, next_ctl on awake (if_neg goes)⟩
    · exact next_ctl on awake ((if_neg goes).trans ((if_neg (ne_true_of_eq_false good)).trans (if_neg (ne_true_of_eq_false free))))
    · exact next_ctl on awake ((if_neg goes).trans ((if_neg (ne_true_of_eq_false good)).trans (if_pos busy)))
  case created => exact fun awake enabled => ⟨next_ctl on awake (if_pos enabled), next_ctl on awake (if_pos enabled)⟩

end Sys2Proof.Machine
end

section
/-! O49: reads of BAR0, BAR2, the configuration space and the management bus. -/
namespace Sys2Proof.Machine

/-- What a read gives, with what it changes before the answer (R427). -/
def State.answer (s : State) (v : BitVec 64) : State := s.put (.read v)

/-- What the guarded range reads as: a register, its partner as the complement, a reserved offset as zero (R431, R436). -/
def guardedWord (s : State) (o : Nat) : BitVec 64 :=
  if o < 0x8800 then guardedGet s o else if guardedReg (o - 0x800) then ~~~guardedGet s (o - 0x800) else 0
theorem guardedWord_primary {s : State} {o : Nat} (low : o < 0x8800) : guardedWord s o = guardedGet s o := if_pos low
theorem guardedWord_partner {s : State} {o : Nat} (high : 0x8800 ≤ o) (reg : guardedReg (o - 0x800) = true) :
    guardedWord s o = ~~~guardedGet s (o - 0x800) := (if_neg (Nat.not_lt.mpr high)).trans (if_pos reg)
theorem guardedWord_reserved {s : State} {o : Nat} (high : 0x8800 ≤ o) (none : guardedReg (o - 0x800) = false) : guardedWord s o = 0 :=
  (if_neg (Nat.not_lt.mpr high)).trans (if_neg (ne_true_of_eq_false none))
theorem guardedGet_snpTo (s : State) : guardedGet s 0x8008 = s.regs.snpTo.setWidth 64 := by
  rw [guardedGet, if_neg (by decide), if_pos rfl]
theorem guardedGet_farTo (s : State) : guardedGet s 0x8010 = s.regs.farTo.setWidth 64 := by
  rw [guardedGet, if_neg (by decide), if_neg (by decide), if_pos rfl]
theorem guardedGet_reserved (s : State) : guardedGet s 0x8018 = 0 := by
  rw [guardedGet, if_neg (by decide), if_neg (by decide), if_neg (by decide)]

section
variable {o : Nat} {size : BitVec 4} {s : State}
/-! The ranges of BAR0 (R426-R428). -/
theorem barRead_primary (low : o < 0x8000) : barRead o size s =
    if bad64 o size then (badAccess s).answer 0 else (readClears o s).answer (primRead s o) := by
  simp only [barRead, Bool.and_eq_true, decide_eq_true_eq]
  rw [if_neg (by omega), if_neg (by omega), if_neg (by omega), if_neg (by omega), if_neg (by omega), if_neg (by omega)]
  rfl
theorem barRead_guarded (low : 0x8000 ≤ o) (high : o < 0x9000) : barRead o size s =
    if bad64 o size then (badAccess (dropPending s)).answer 0 else (dropPending s).answer (guardedWord (dropPending s) o) := by
  simp only [barRead, Bool.and_eq_true, decide_eq_true_eq]
  rw [if_neg (by omega), if_neg (by omega), if_neg (by omega), if_neg (by omega), if_neg (by omega), if_pos (by omega)]
  rfl
theorem barRead_alias (low : 0x10000 ≤ o) (high : o < 0x40000) : barRead o size s =
    if bad64 o size then (badAccess s).answer 0
    else s.answer (if 0x8000 ≤ o % 0x10000 && o % 0x10000 < 0x9000 then 0 else primRead s (o % 0x10000)) := by
  unfold barRead
  rw [if_neg (by omega), if_neg (by omega), if_neg (by omega), if_neg (by omega), if_pos (by omega)]
  rfl
theorem barRead_doorbell (low : 0x40000 ≤ o) (high : o < 0x50000) (aligned : o % 8 = 0) :
    barRead o 8 s = s.answer (BitVec.ofNat 64 (doorbellGet s o)) := by
  have fits : (!((decide ((8 : BitVec 4) = 4) && decide (o % 4 = 0)) || (decide ((8 : BitVec 4) = 8) && decide (o % 8 = 0)))) = false := by
    rw [aligned]
    rfl
  unfold barRead
  rw [if_neg (by omega), if_neg (by omega), if_neg (by omega), if_pos (by omega)]
  exact if_neg (ne_true_of_eq_false fits)
theorem barRead_reserved (low : 0x70000 ≤ o) : barRead o size s = if 8 < size.toNat then (badAccess s).answer 0 else s.answer 0 := if_pos low

/-- A 32-bit word of BAR2 (R401). -/
theorem bar2Read_word (aligned : o % 4 = 0) : bar2Read o 4 s = s.answer (BitVec.ofNat 64 (bar2Word s o).toNat) := by
  have fits : msixSize o 4 = true := by simp [msixSize, aligned]
  rw [bar2Read, if_pos fits]
  rfl
end

/-- A pending guarded value is discarded by a read (R432); without one nothing changes. -/
theorem dropPending_none {s : State} (none : s.regs.guardP = none) : dropPending s = s := by
  rw [dropPending, none]
  rfl
theorem dropPending_some {s : State} (some : s.regs.guardP ≠ none) : dropPending s = guardFailed s :=
  if_pos (Option.isSome_iff_ne_none.mpr some)

/-- The hub's own indices at the doorbells of a pair (R409). -/
theorem doorbellGet_sq (s : State) (n : BitVec 4) : doorbellGet s (0x40000 + 16 * n.toNat) = (s.qp n.toNat).sqHead := by
  have pair := n.isLt
  have place : (decide (0x40000 + 16 * n.toNat < 0x40100) && decide ((0x40000 + 16 * n.toNat) % 8 = 0)) = true := by
    rw [Bool.and_eq_true, decide_eq_true_eq, decide_eq_true_eq]
    omega
  have index : (0x40000 + 16 * n.toNat - 0x40000) / 16 = n.toNat := by omega
  rw [doorbellGet, if_pos place, index]
  exact if_pos (by omega)
theorem doorbellGet_cq (s : State) (n : BitVec 4) : doorbellGet s (0x40008 + 16 * n.toNat) = (s.qp n.toNat).cqTail := by
  have pair := n.isLt
  have place : (decide (0x40008 + 16 * n.toNat < 0x40100) && decide ((0x40008 + 16 * n.toNat) % 8 = 0)) = true := by
    rw [Bool.and_eq_true, decide_eq_true_eq, decide_eq_true_eq]
    omega
  have index : (0x40008 + 16 * n.toNat - 0x40000) / 16 = n.toNat := by omega
  rw [doorbellGet, if_pos place, index]
  exact if_neg (by omega)
/-- The hub's own index at the doorbell of the event queue (R409). -/
theorem doorbellGet_event (s : State) : doorbellGet s 0x40100 = s.cp.eqTail := by
  rw [doorbellGet, if_neg (by decide), if_pos rfl]
/-- The address of a pair's doorbell. -/
theorem doorbellOff (n : BitVec 4) (k : BitVec 20) (low : k.toNat ≤ 0x40008) : (k + 16 * n.setWidth 20 : BitVec 20).toNat = k.toNat + 16 * n.toNat := by
  have pair := n.isLt
  simp only [BitVec.toNat_add, BitVec.toNat_mul, BitVec.toNat_setWidth, show BitVec.toNat (16 : BitVec 20) = 16 from rfl]
  omega

/-- A word of the MSI-X table's entry `n`, by its place in the entry (R401). -/
theorem bar2Word_entry (s : State) (n : BitVec 5) (k : Nat) (low : k < 16) : bar2Word s (16 * n.toNat + k) =
    let e := NMap.get (0, 0) s.cp.table n.toNat
    if k = 0 then bits e.1 31 0 else if k = 4 then bits e.1 63 32 else if k = 8 then e.2 else BitVec.ofNat 32 (b2n (bit s.cp.masked n.toNat)) := by
  have entry := n.isLt
  have index : (16 * n.toNat + k) / 16 = n.toNat := by omega
  have word : (16 * n.toNat + k) % 16 = k := by omega
  rw [bar2Word, index, word, if_neg (by omega), if_neg (by omega)]

theorem toNat_flag (b : Bool) : (BitVec.ofNat 32 (b2n b)).toNat = b2n b := by
  cases b <;> rfl

/-- Settles O49: each read is its range's rule. -/
theorem readsGiveTheirRegisterAndClear : Obligations.ReadsGiveTheirRegisterAndClear := by
  intro s
  have bar0 (on : s.off = false) (awake : s.cp.d3 = false) {off : BitVec 20} {size : BitVec 4} {t : State} (effect : barRead off.toNat size s = t) :
      exec (.counterLowRead ⟨.bar0 off, size⟩) s = .next t := next_ctl on awake effect
  refine ⟨fun on awake => ?clears, fun on awake free => ?registers, fun on awake pending off low high => ?guarded, fun on awake n => ?table,
    fun on r w size => ⟨next_live on rfl, next_live on rfl⟩, fun code up => congrArg Host.Outcome.next (if_pos up)⟩
  case clears => exact ⟨next_ctl on awake rfl, next_ctl on awake rfl, next_ctl on awake rfl, next_ctl on awake rfl, next_ctl on awake rfl, next_ctl on awake rfl,
    next_ctl on awake rfl, next_ctl on awake rfl, next_ctl on awake rfl, next_ctl on awake rfl⟩
  case registers =>
    intro read
    have guarded {off : BitVec 20} (o : Nat) {w : BitVec 64} (place : off.toNat = o) (low : 0x8000 ≤ o) (high : o < 0x9000) (aligned : o % 8 = 0)
        (value : guardedWord s o = w) : read off 8 = .next (s.answer w) := by
      subst place
      refine bar0 on awake ((barRead_guarded low high).trans ?_)
      rw [dropPending_none free, value]
      exact if_neg (ne_true_of_eq_false (bad64_aligned aligned))
    have doorbell {off : BitVec 20} {n : Nat} (low : 0x40000 ≤ off.toNat) (high : off.toNat < 0x50000) (aligned : off.toNat % 8 = 0)
        (index : doorbellGet s off.toNat = n) : read off 8 = .next (s.answer (BitVec.ofNat 64 n)) := by
      refine bar0 on awake ((barRead_doorbell low high aligned).trans ?_)
      rw [index]
    refine ⟨guarded 0x8008 rfl (by decide) (by decide) (by decide) ((guardedWord_primary (by decide)).trans (guardedGet_snpTo s)),
      guarded 0x8808 rfl (by decide) (by decide) (by decide) ((guardedWord_partner (by decide) (by decide)).trans (congrArg _ (guardedGet_snpTo s))),
      guarded 0x8010 rfl (by decide) (by decide) (by decide) ((guardedWord_primary (by decide)).trans (guardedGet_farTo s)),
      guarded 0x8810 rfl (by decide) (by decide) (by decide) ((guardedWord_partner (by decide) (by decide)).trans (congrArg _ (guardedGet_farTo s))),
      bar0 on awake ((barRead_primary (by decide)).trans (if_neg (by decide))),
      bar0 on awake ((barRead_alias (by decide) (by decide)).trans (if_neg (by decide))),
      fun size other => bar0 on awake ((barRead_primary (by decide)).trans (if_pos (bad64_of (.inl other)))), fun n => ⟨?_, ?_⟩,
      doorbell (by decide) (by decide) (by decide) (doorbellGet_event s),
      guarded 0x8018 rfl (by decide) (by decide) (by decide) ((guardedWord_primary (by decide)).trans (guardedGet_reserved s)),
      guarded 0x8818 rfl (by decide) (by decide) (by decide) (guardedWord_reserved (by decide) (by decide)),
      fun off size reserved short => bar0 on awake ((barRead_reserved reserved).trans (if_neg (Nat.not_lt.mpr short))),
      fun off size reserved long => bar0 on awake ((barRead_reserved reserved).trans (if_pos long))⟩
    · have pair := n.isLt
      have place : (0x40000 + 16 * n.setWidth 20 : BitVec 20).toNat = 0x40000 + 16 * n.toNat := doorbellOff n _ (by decide)
      exact doorbell (by omega) (by omega) (by omega) (by rw [place, doorbellGet_sq])
    · have pair := n.isLt
      have place : (0x40008 + 16 * n.setWidth 20 : BitVec 20).toNat = 0x40008 + 16 * n.toNat := doorbellOff n _ (by decide)
      exact doorbell (by omega) (by omega) (by omega) (by rw [place, doorbellGet_cq])
  case guarded =>
    refine ⟨fun size bad => bar0 on awake ((barRead_guarded low high).trans ?_), fun aligned =>
      ⟨guardedWord s off.toNat, bar0 on awake ((barRead_guarded low high).trans (if_neg (ne_true_of_eq_false (bad64_aligned aligned))) |>.trans ?_), fun primary => ?_, fun partner reg => ?_⟩⟩
    · rw [dropPending_some pending]
      exact if_pos (bad64_of bad)
    · rw [dropPending_some pending]
      rfl
    · exact guardedWord_primary primary
    · exact guardedWord_partner partner reg
  case table =>
    intro e word
    have entry (k : BitVec 14) (low : k.toNat < 16) (aligned : k.toNat % 4 = 0) {w : BitVec 32} (value : bar2Word s (16 * n.toNat + k.toNat) = w) :
        word k = .next (s.answer (BitVec.ofNat 64 w.toNat)) := by
      refine next_ctl on awake ?_
      rw [tableOff n k low, ← value]
      exact bar2Read_word (by omega)
    refine ⟨?_, ?_, ?_, ?_, ?_⟩
    · rw [entry 0 (by decide) (by decide) (bar2Word_entry s n 0 (by decide)), if_pos rfl, toNat_bits]
      rfl
    · rw [entry 4 (by decide) (by decide) (bar2Word_entry s n 4 (by decide)), if_neg (by decide), if_pos rfl, toNat_bits]
      rfl
    · rw [entry 8 (by decide) (by decide) (bar2Word_entry s n 8 (by decide)), if_neg (by decide), if_neg (by decide), if_pos rfl, BitVec.ofNat_toNat]
      rfl
    · rw [entry 12 (by decide) (by decide) (bar2Word_entry s n 12 (by decide)), if_neg (by decide), if_neg (by decide), if_neg (by decide), toNat_flag]
      rfl
    · have pending : bar2Word s 0x1000 = s.cp.pend := by rw [bar2Word, if_pos rfl]
      refine next_ctl on awake ((bar2Read_word (o := 0x1000) (by decide)).trans ?_)
      rw [pending, BitVec.ofNat_toNat]
      rfl

end Sys2Proof.Machine
end

section
/-! HASH_LINE of a line whose set is lost (R371): it reads nothing, of which O37 does not speak. -/
namespace Sys2Proof.Machine

/-- CACHED, the set 0 lost with its tag block on chip, and one open stream whose first offset, in that set, is written and not yet hashed. -/
def hashDueInLostSet : State :=
  { State.reset with
    trip.mode := Trip.all 3
    cache.enabled := true, cache.trained := true, cache.chans := 0
    slices := [(0, { Slice.init with lostSets := [0], tbc := [(0, { TbcEnt.init with valid := true })] })]
    str.ctx := [(0, { Ctx.init with state := 1, st := [(0, { OffSt.init with done := true })] })] }
/-- Nothing answers a read of far memory. -/
def silentFar : HashFar := ⟨.timeout, .timeout⟩

theorem hashLine_lostSet_gaps : (rowEnd hashDueInLostSet (hashLine 0 silentFar [] hashDueInLostSet)).str.gaps = 0 := by decide +kernel

/-- The statement's read of the line: its entry to the slice, the line and whether it is poisoned. -/
def hashReadThere : State × Line × Bool := hashRead 0 silentFar [] (capIn 21 (homeSlice 0) (intDesc 0xCA 0 0 0) 0 [] hashDueInLostSet)
/-- What the slice sends of that read. -/
def hashSentThere : State := capOut 21 (homeSlice 0) (intDesc 0xCA 0 0 0) (if hashReadThere.2.2 then [] else wordBytes 128 hashReadThere.2.1) hashReadThere.1

theorem hashReadThere_poisoned : hashReadThere.2.2 = true := by decide +kernel
theorem offBad_lostSet_gaps : (rowEnd hashDueInLostSet (offBad 0 0 2 hashSentThere)).str.gaps = 1 := by decide +kernel

/-- Refutes O37: HASH_LINE leaves a line of a lost set alone (R371), where the statement reads it; on `hashDueInLostSet` with a silent far port the
statement's read is poisoned and opens a gap, and the model has none. -/
theorem not_streamAndSealRowsAdvanceTheirStream : ¬ Obligations.StreamAndSealRowsAdvanceTheirStream := by
  intro h
  obtain ⟨hash, -, -, -, -⟩ := h hashDueInLostSet rfl
  obtain ⟨poisoned, -⟩ := hash 0 silentFar [] rfl (by decide) rfl
  have line : (hashDueInLostSet.ctx (BitVec.toNat (0 : BitVec 18))).lineOfOff (hashDueInLostSet.ctx (BitVec.toNat (0 : BitVec 18))).hashed = 0 := rfl
  rw [line] at poisoned
  have statement : exec (.hashLine 0 silentFar []) hashDueInLostSet = .next (rowEnd hashDueInLostSet (offBad 0 0 2 hashSentThere)) := poisoned hashReadThere_poisoned
  have model : exec (.hashLine 0 silentFar []) hashDueInLostSet = .next (rowEnd hashDueInLostSet (hashLine 0 silentFar [] hashDueInLostSet)) :=
    next_clocked rfl (if_neg (by decide))
  have gaps := congrArg (fun t : State => t.str.gaps) (Host.Outcome.next.inj (statement.symm.trans model))
  rw [offBad_lostSet_gaps, hashLine_lostSet_gaps] at gaps
  exact absurd gaps (by decide)

end Sys2Proof.Machine
end
